-- ==== Sys2Proof/Word.lean ====
section
/-!
DEFINITION. The word types of the Plalyn P8. Registers are 64 bits wide (04_scalar_registers.md R142); the smallest
addressable unit of every memory is the byte.
-/
namespace Sys2Proof

/-- A register or token: 64 bits. -/
abbrev Word := BitVec 64

/-- A byte of memory. -/
abbrev Byte := BitVec 8

/-- Memory as plain data: (address, byte) pairs, addresses strictly rising, no byte equal to 0, which is what an
unlisted address reads as. -/
abbrev Memory := List Host.Cell

end Sys2Proof
end

