-- ==== Sys2Proof/Syntax.lean ====
section
/-!
DEFINITION. Syntax of the Plalyn P8: one constructor of `Instr` for each row of spec/opcode_table.json.

Rows with an encoding (03_encoding.md R113-R122) carry the fields the table gives them, each a bit vector of the
field's width; a field the table splits in two (LDHI, ADDPC, JAL) is carried whole. Rows without an encoding are the
part's other whole steps (95_what_each_step_holds.md): each carries which tile, slot, end or queue position it acts
on. A message of the host is read from host memory (10_channels.md R360), so its row carries no argument.
-/
namespace Sys2Proof

/-- Kind of a fabric end: the DKIND and SKIND codes 0 to 3 of 11_fragments_and_errands.md R362. -/
inductive EpKind where
  | tile | edge | reel | port
  deriving DecidableEq, Repr

/-- A fabric end: a tile by logical number, an edge station by die * 32 + column, a reel station by
die * 4 + cluster, a port (4 is the Sorcel link); 11_fragments_and_errands.md R362. -/
structure Ep where
  kind : EpKind
  num : Nat
  deriving DecidableEq, Repr

/-- The instructions and events of the machine, one constructor per row of spec/opcode_table.json. -/
inductive Instr where
  /-- ADD (R157): Writes the 64-bit wrapping sum of two scalar sources to gd. -/
  | add (t : BitVec 5) (d : BitVec 5) (s : BitVec 5)
  /-- SUB (R157): Writes the 64-bit wrapping difference of two scalar sources to gd. -/
  | sub (t : BitVec 5) (d : BitVec 5) (s : BitVec 5)
  /-- AND (R157): Writes the bitwise AND of two scalar sources to gd. -/
  | and (t : BitVec 5) (d : BitVec 5) (s : BitVec 5)
  /-- OR (R157): Writes the bitwise OR of two scalar sources to gd. -/
  | or (t : BitVec 5) (d : BitVec 5) (s : BitVec 5)
  /-- XOR (R157): Writes the bitwise XOR of two scalar sources to gd. -/
  | xor (t : BitVec 5) (d : BitVec 5) (s : BitVec 5)
  /-- ANDN (R157): Writes a AND NOT b to gd. -/
  | andn (t : BitVec 5) (d : BitVec 5) (s : BitVec 5)
  /-- SLL (R157): Shifts a left by b[5:0] bits. -/
  | sll (t : BitVec 5) (d : BitVec 5) (s : BitVec 5)
  /-- SRL (R157): Shifts a right logically by b[5:0] bits. -/
  | srl (t : BitVec 5) (d : BitVec 5) (s : BitVec 5)
  /-- SRA (R157): Shifts a right arithmetically by b[5:0] bits. -/
  | sra (t : BitVec 5) (d : BitVec 5) (s : BitVec 5)
  /-- SLT (R157): Writes 1 if a is signed-less than b, else 0. -/
  | slt (t : BitVec 5) (d : BitVec 5) (s : BitVec 5)
  /-- SLTU (R157): Writes 1 if a is unsigned-less than b, else 0. -/
  | sltu (t : BitVec 5) (d : BitVec 5) (s : BitVec 5)
  /-- MIN (R157): Writes the signed lesser of a and b. -/
  | min (t : BitVec 5) (d : BitVec 5) (s : BitVec 5)
  /-- MAX (R157): Writes the signed greater of a and b. -/
  | max (t : BitVec 5) (d : BitVec 5) (s : BitVec 5)
  /-- MINU (R157): Writes the unsigned lesser of a and b. -/
  | minu (t : BitVec 5) (d : BitVec 5) (s : BitVec 5)
  /-- MAXU (R157): Writes the unsigned greater of a and b. -/
  | maxu (t : BitVec 5) (d : BitVec 5) (s : BitVec 5)
  /-- CLZ (R157): Counts zero bits above the highest 1 bit of a. -/
  | clz (d : BitVec 5) (s : BitVec 5)
  /-- CTZ (R157): Counts zero bits below the lowest 1 bit of a. -/
  | ctz (d : BitVec 5) (s : BitVec 5)
  /-- POPC (R157): Counts the 1 bits of a. -/
  | popc (d : BitVec 5) (s : BitVec 5)
  /-- REV8 (R157): Reverses the byte order of a. -/
  | rev8 (d : BitVec 5) (s : BitVec 5)
  /-- ROL (R157): Rotates a towards higher bits by b[5:0]. -/
  | rol (t : BitVec 5) (d : BitVec 5) (s : BitVec 5)
  /-- ROTR (R157): Rotates a towards lower bits by b[5:0]. -/
  | rotr (t : BitVec 5) (d : BitVec 5) (s : BitVec 5)
  /-- SEXT_B (R157): Sign-extends the low 8 bits of a. -/
  | sextB (d : BitVec 5) (s : BitVec 5)
  /-- SEXT_H (R157): Sign-extends the low 16 bits of a. -/
  | sextH (d : BitVec 5) (s : BitVec 5)
  /-- SEXT_W (R157): Sign-extends the low 32 bits of a. -/
  | sextW (d : BitVec 5) (s : BitVec 5)
  /-- ADDI (R159): Adds a sign-extended 13-bit immediate to gs. -/
  | addi (i : BitVec 13) (d : BitVec 5) (s : BitVec 5)
  /-- ANDI (R159): ANDs gs with a sign-extended immediate. -/
  | andi (i : BitVec 13) (d : BitVec 5) (s : BitVec 5)
  /-- ORI (R159): ORs gs with a sign-extended immediate. -/
  | ori (i : BitVec 13) (d : BitVec 5) (s : BitVec 5)
  /-- XORI (R159): XORs gs with a sign-extended immediate. -/
  | xori (i : BitVec 13) (d : BitVec 5) (s : BitVec 5)
  /-- SLTI (R159): Signed compare of gs against an immediate. -/
  | slti (i : BitVec 13) (d : BitVec 5) (s : BitVec 5)
  /-- SLTIU (R159): Unsigned compare of gs against the sign-extended immediate. -/
  | sltiu (i : BitVec 13) (d : BitVec 5) (s : BitVec 5)
  /-- SLLI (R159): Shifts gs left by an immediate amount. -/
  | slli (h : BitVec 6) (d : BitVec 5) (s : BitVec 5)
  /-- SRLI (R159): Shifts gs right logically by an immediate amount. -/
  | srli (h : BitVec 6) (d : BitVec 5) (s : BitVec 5)
  /-- SRAI (R159): Shifts gs right arithmetically by an immediate amount. -/
  | srai (h : BitVec 6) (d : BitVec 5) (s : BitVec 5)
  /-- LDHI (R160): Writes SignExtend(imm20) times 4096 to gd. -/
  | ldhi (i : BitVec 20) (d : BitVec 5)
  /-- ADDPC (R160): Writes the instruction's local address plus SignExtend(imm20) times 4096 to gd. -/
  | addpc (i : BitVec 20) (d : BitVec 5)
  /-- MUL (R161): Writes the low 64 bits of the product. -/
  | mul (t : BitVec 5) (d : BitVec 5) (s : BitVec 5)
  /-- MULH (R161): Writes the high 64 bits of the signed product. -/
  | mulh (t : BitVec 5) (d : BitVec 5) (s : BitVec 5)
  /-- MULHU (R161): Writes the high 64 bits of the unsigned product. -/
  | mulhu (t : BitVec 5) (d : BitVec 5) (s : BitVec 5)
  /-- MULHSU (R161): Writes the high 64 bits of the signed-by-unsigned product. -/
  | mulhsu (t : BitVec 5) (d : BitVec 5) (s : BitVec 5)
  /-- DIVU (R162): Unsigned division, saturating on division by zero. -/
  | divu (t : BitVec 5) (d : BitVec 5) (s : BitVec 5)
  /-- DIV (R162): Signed truncating division with saturating limit cases. -/
  | div (t : BitVec 5) (d : BitVec 5) (s : BitVec 5)
  /-- REMU (R162): Unsigned remainder. -/
  | remu (t : BitVec 5) (d : BitVec 5) (s : BitVec 5)
  /-- REM (R162): Signed remainder of truncated division. -/
  | rem (t : BitVec 5) (d : BitVec 5) (s : BitVec 5)
  /-- BEQ (R163): Branches when a equals b. -/
  | beq (o : BitVec 13) (s : BitVec 5) (t : BitVec 5)
  /-- BNE (R163): Branches when a differs from b. -/
  | bne (o : BitVec 13) (s : BitVec 5) (t : BitVec 5)
  /-- BLT (R163): Branches when a is signed-less than b. -/
  | blt (o : BitVec 13) (s : BitVec 5) (t : BitVec 5)
  /-- BGE (R163): Branches when a is signed-greater or equal to b. -/
  | bge (o : BitVec 13) (s : BitVec 5) (t : BitVec 5)
  /-- BLTU (R163): Branches when a is unsigned-less than b. -/
  | bltu (o : BitVec 13) (s : BitVec 5) (t : BitVec 5)
  /-- BGEU (R163): Branches when a is unsigned-greater or equal to b. -/
  | bgeu (o : BitVec 13) (s : BitVec 5) (t : BitVec 5)
  /-- JAL (R165): Jumps by a halfword offset after checking the target, writing the link to gd. -/
  | jal (i : BitVec 21) (d : BitVec 5)
  /-- JALR (R166): Jumps to gs plus imm13 after CheckTarget, writing the link to gd. -/
  | jalr (i : BitVec 13) (d : BitVec 5) (s : BitVec 5)
  /-- LD_B (R273): Loads a sign-extended byte from a local or window address. -/
  | ldB (i : BitVec 13) (d : BitVec 5) (s : BitVec 5)
  /-- LD_H (R273): Loads a sign-extended halfword. -/
  | ldH (i : BitVec 13) (d : BitVec 5) (s : BitVec 5)
  /-- LD_W (R273): Loads a sign-extended word. -/
  | ldW (i : BitVec 13) (d : BitVec 5) (s : BitVec 5)
  /-- LD_D (R273): Loads a doubleword. -/
  | ldD (i : BitVec 13) (d : BitVec 5) (s : BitVec 5)
  /-- LD_BU (R273): Loads a zero-extended byte. -/
  | ldBu (i : BitVec 13) (d : BitVec 5) (s : BitVec 5)
  /-- LD_HU (R273): Loads a zero-extended halfword. -/
  | ldHu (i : BitVec 13) (d : BitVec 5) (s : BitVec 5)
  /-- LD_WU (R273): Loads a zero-extended word. -/
  | ldWu (i : BitVec 13) (d : BitVec 5) (s : BitVec 5)
  /-- LD_ACQ (R274): Loads a doubleword with acquire semantics at tile or cluster scope. -/
  | ldAcq (i : BitVec 13) (d : BitVec 5) (s : BitVec 5)
  /-- ST_B (R273): Stores the low byte of gd. -/
  | stB (i : BitVec 13) (d : BitVec 5) (s : BitVec 5)
  /-- ST_H (R273): Stores the low halfword of gd. -/
  | stH (i : BitVec 13) (d : BitVec 5) (s : BitVec 5)
  /-- ST_W (R273): Stores the low word of gd. -/
  | stW (i : BitVec 13) (d : BitVec 5) (s : BitVec 5)
  /-- ST_D (R273): Stores the doubleword gd. -/
  | stD (i : BitVec 13) (d : BitVec 5) (s : BitVec 5)
  /-- ST_REL (R274): Stores a doubleword with release semantics. -/
  | stRel (i : BitVec 13) (d : BitVec 5) (s : BitVec 5)
  /-- LDF (R277): Loads from a far address through the home station and waits for the reply. -/
  | ldf (w : BitVec 2) (x : BitVec 1) (d : BitVec 5) (s : BitVec 5)
  /-- STF (R277): Stores to a far address and waits for the reply. -/
  | stf (t : BitVec 5) (w : BitVec 2) (s : BitVec 5)
  /-- AMO_ADD (R277): Atomically adds at a far location and returns the old value. -/
  | amoAdd (t : BitVec 5) (w : BitVec 1) (d : BitVec 5) (s : BitVec 5)
  /-- AMO_SWAP (R277): Atomically swaps at a far location. -/
  | amoSwap (t : BitVec 5) (w : BitVec 1) (d : BitVec 5) (s : BitVec 5)
  /-- AMO_CAS (R277): Atomic compare-and-swap with comparand in gd. -/
  | amoCas (t : BitVec 5) (w : BitVec 1) (d : BitVec 5) (s : BitVec 5)
  /-- AMO_MIN (R277): Atomic signed minimum. -/
  | amoMin (t : BitVec 5) (w : BitVec 1) (d : BitVec 5) (s : BitVec 5)
  /-- AMO_MAX (R277): Atomic signed maximum. -/
  | amoMax (t : BitVec 5) (w : BitVec 1) (d : BitVec 5) (s : BitVec 5)
  /-- AMO_MINU (R277): Atomic unsigned minimum. -/
  | amoMinu (t : BitVec 5) (w : BitVec 1) (d : BitVec 5) (s : BitVec 5)
  /-- AMO_MAXU (R277): Atomic unsigned maximum. -/
  | amoMaxu (t : BitVec 5) (w : BitVec 1) (d : BitVec 5) (s : BitVec 5)
  /-- AMO_AND (R277): Atomic AND. -/
  | amoAnd (t : BitVec 5) (w : BitVec 1) (d : BitVec 5) (s : BitVec 5)
  /-- AMO_OR (R277): Atomic OR. -/
  | amoOr (t : BitVec 5) (w : BitVec 1) (d : BitVec 5) (s : BitVec 5)
  /-- AMO_XOR (R277): Atomic XOR. -/
  | amoXor (t : BitVec 5) (w : BitVec 1) (d : BitVec 5) (s : BitVec 5)
  /-- AMO_FADD (R277): Atomic FP32 add rounded RNE. -/
  | amoFadd (t : BitVec 5) (d : BitVec 5) (s : BitVec 5)
  /-- RUPD_ADD (R278): Sends a fire-and-forget atomic add to a far location. -/
  | rupdAdd (t : BitVec 5) (w : BitVec 1) (s : BitVec 5)
  /-- RUPD_MIN (R278): Remote signed minimum update. -/
  | rupdMin (t : BitVec 5) (w : BitVec 1) (s : BitVec 5)
  /-- RUPD_MAX (R278): Remote signed maximum update. -/
  | rupdMax (t : BitVec 5) (w : BitVec 1) (s : BitVec 5)
  /-- RUPD_MINU (R278): Remote unsigned minimum update. -/
  | rupdMinu (t : BitVec 5) (w : BitVec 1) (s : BitVec 5)
  /-- RUPD_MAXU (R278): Remote unsigned maximum update. -/
  | rupdMaxu (t : BitVec 5) (w : BitVec 1) (s : BitVec 5)
  /-- RUPD_AND (R278): Remote AND update. -/
  | rupdAnd (t : BitVec 5) (w : BitVec 1) (s : BitVec 5)
  /-- RUPD_OR (R278): Remote OR update. -/
  | rupdOr (t : BitVec 5) (w : BitVec 1) (s : BitVec 5)
  /-- RUPD_XOR (R278): Remote XOR update. -/
  | rupdXor (t : BitVec 5) (w : BitVec 1) (s : BitVec 5)
  /-- RUPD_FADD (R278): Remote FP32 add update. -/
  | rupdFadd (t : BitVec 5) (s : BitVec 5)
  /-- OXL (R167): Copies a g register into an e-register. -/
  | oxl (d : BitVec 3) (s : BitVec 5)
  /-- OXM (R167): Copies one e-register to another. -/
  | oxm (d : BitVec 3) (s : BitVec 3)
  /-- OXR (R167): Copies an e-register into a g register. -/
  | oxr (d : BitVec 5) (s : BitVec 3)
  /-- CTLR (R237): Reads a control register into gd after privilege checks. -/
  | ctlr (c : BitVec 12) (d : BitVec 5)
  /-- CTLW (R237): Writes gs to a control register through its own write rule. -/
  | ctlw (c : BitVec 12) (s : BitVec 5)
  /-- CTLS (R237): Sets bits of a control register and returns the old value. -/
  | ctls (c : BitVec 12) (d : BitVec 5) (s : BitVec 5)
  /-- CTLC (R237): Clears bits of a control register and returns the old value. -/
  | ctlc (c : BitVec 12) (d : BitVec 5) (s : BitVec 5)
  /-- FENCE (R314): Waits until selected earlier accesses are performed at the scope before later ones proceed. -/
  | fence (p : BitVec 3) (k : BitVec 4)
  /-- TRAP (R243): Raises SYSCALL with the code in EVAL and EPC at the next instruction. -/
  | trap (n : BitVec 9)
  /-- RETT (R242): Returns from a trap to EPC, restoring STATUS from SAVED. -/
  | rett
  /-- CHKERR (R244): Raises POISON when CIR.PSN is set. -/
  | chkerr
  /-- BKPT (R243): Raises BREAK with EPC at itself. -/
  | bkpt
  /-- SETVL (R185): Grants VL from a register request and writes it to gd. -/
  | setvl (d : BitVec 5) (s : BitVec 5)
  /-- SETVLI (R185): Grants VL from an immediate request. -/
  | setvli (i : BitVec 13) (d : BitVec 5)
  /-- SETVT (R186): Writes VT, setting BAD on an invalid value, and regrants VL. -/
  | setvt (d : BitVec 5) (s : BitVec 5)
  /-- VADD (R188): Element-wise wrapping integer add. -/
  | vadd (b : BitVec 5) (x : BitVec 1) (y : BitVec 1) (m : BitVec 3) (e : BitVec 1) (d : BitVec 5) (a : BitVec 5)
  /-- VSUB (R188): Element-wise wrapping integer subtract. -/
  | vsub (b : BitVec 5) (x : BitVec 1) (y : BitVec 1) (m : BitVec 3) (e : BitVec 1) (d : BitVec 5) (a : BitVec 5)
  /-- VMUL (R188): Element-wise low product. -/
  | vmul (b : BitVec 5) (x : BitVec 1) (y : BitVec 1) (m : BitVec 3) (e : BitVec 1) (d : BitVec 5) (a : BitVec 5)
  /-- VMULH (R188): Element-wise high product. -/
  | vmulh (b : BitVec 5) (x : BitVec 1) (y : BitVec 1) (m : BitVec 3) (e : BitVec 1) (d : BitVec 5) (a : BitVec 5)
  /-- VAND (R188): Element-wise AND. -/
  | vand (b : BitVec 5) (x : BitVec 1) (y : BitVec 1) (m : BitVec 3) (e : BitVec 1) (d : BitVec 5) (a : BitVec 5)
  /-- VOR (R188): Element-wise OR. -/
  | vor (b : BitVec 5) (x : BitVec 1) (y : BitVec 1) (m : BitVec 3) (e : BitVec 1) (d : BitVec 5) (a : BitVec 5)
  /-- VXOR (R188): Element-wise XOR. -/
  | vxor (b : BitVec 5) (x : BitVec 1) (y : BitVec 1) (m : BitVec 3) (e : BitVec 1) (d : BitVec 5) (a : BitVec 5)
  /-- VSLL (R188): Element-wise left shift. -/
  | vsll (b : BitVec 5) (x : BitVec 1) (y : BitVec 1) (m : BitVec 3) (e : BitVec 1) (d : BitVec 5) (a : BitVec 5)
  /-- VSRL (R188): Element-wise logical right shift. -/
  | vsrl (b : BitVec 5) (x : BitVec 1) (y : BitVec 1) (m : BitVec 3) (e : BitVec 1) (d : BitVec 5) (a : BitVec 5)
  /-- VSRA (R188): Element-wise arithmetic right shift. -/
  | vsra (b : BitVec 5) (x : BitVec 1) (y : BitVec 1) (m : BitVec 3) (e : BitVec 1) (d : BitVec 5) (a : BitVec 5)
  /-- VMIN (R188): Element-wise minimum. -/
  | vmin (b : BitVec 5) (x : BitVec 1) (y : BitVec 1) (m : BitVec 3) (e : BitVec 1) (d : BitVec 5) (a : BitVec 5)
  /-- VMAX (R188): Element-wise maximum. -/
  | vmax (b : BitVec 5) (x : BitVec 1) (y : BitVec 1) (m : BitVec 3) (e : BitVec 1) (d : BitVec 5) (a : BitVec 5)
  /-- VMINU (R188): Element-wise unsigned minimum. -/
  | vminu (b : BitVec 5) (x : BitVec 1) (y : BitVec 1) (m : BitVec 3) (e : BitVec 1) (d : BitVec 5) (a : BitVec 5)
  /-- VMAXU (R188): Element-wise unsigned maximum. -/
  | vmaxu (b : BitVec 5) (x : BitVec 1) (y : BitVec 1) (m : BitVec 3) (e : BitVec 1) (d : BitVec 5) (a : BitVec 5)
  /-- VABSD (R188): Element-wise absolute difference. -/
  | vabsd (b : BitVec 5) (x : BitVec 1) (y : BitVec 1) (m : BitVec 3) (e : BitVec 1) (d : BitVec 5) (a : BitVec 5)
  /-- VSADD (R188): Element-wise saturating add. -/
  | vsadd (b : BitVec 5) (x : BitVec 1) (y : BitVec 1) (m : BitVec 3) (e : BitVec 1) (d : BitVec 5) (a : BitVec 5)
  /-- VSSUB (R188): Element-wise saturating subtract. -/
  | vssub (b : BitVec 5) (x : BitVec 1) (y : BitVec 1) (m : BitVec 3) (e : BitVec 1) (d : BitVec 5) (a : BitVec 5)
  /-- VFADD (R189): Floating-point add rounded by VT.RM. -/
  | vfadd (b : BitVec 5) (x : BitVec 1) (y : BitVec 1) (m : BitVec 3) (e : BitVec 1) (d : BitVec 5) (a : BitVec 5)
  /-- VFSUB (R189): Floating-point subtract. -/
  | vfsub (b : BitVec 5) (x : BitVec 1) (y : BitVec 1) (m : BitVec 3) (e : BitVec 1) (d : BitVec 5) (a : BitVec 5)
  /-- VFMUL (R189): Floating-point multiply. -/
  | vfmul (b : BitVec 5) (x : BitVec 1) (y : BitVec 1) (m : BitVec 3) (e : BitVec 1) (d : BitVec 5) (a : BitVec 5)
  /-- VFMA (R189): Fused multiply-add into vd. -/
  | vfma (b : BitVec 5) (x : BitVec 1) (y : BitVec 1) (m : BitVec 3) (e : BitVec 1) (d : BitVec 5) (a : BitVec 5)
  /-- VFMS (R189): Fused multiply-subtract. -/
  | vfms (b : BitVec 5) (x : BitVec 1) (y : BitVec 1) (m : BitVec 3) (e : BitVec 1) (d : BitVec 5) (a : BitVec 5)
  /-- VFNMA (R189): Fused negated multiply-add. -/
  | vfnma (b : BitVec 5) (x : BitVec 1) (y : BitVec 1) (m : BitVec 3) (e : BitVec 1) (d : BitVec 5) (a : BitVec 5)
  /-- VFDIV (R189): Floating-point divide. -/
  | vfdiv (b : BitVec 5) (x : BitVec 1) (y : BitVec 1) (m : BitVec 3) (e : BitVec 1) (d : BitVec 5) (a : BitVec 5)
  /-- VFSQRT (R189): Floating-point square root. -/
  | vfsqrt (x : BitVec 1) (m : BitVec 3) (e : BitVec 1) (d : BitVec 5) (a : BitVec 5)
  /-- VFMIN (R189): Floating-point minimum. -/
  | vfmin (b : BitVec 5) (x : BitVec 1) (y : BitVec 1) (m : BitVec 3) (e : BitVec 1) (d : BitVec 5) (a : BitVec 5)
  /-- VFMAX (R189): Floating-point maximum. -/
  | vfmax (b : BitVec 5) (x : BitVec 1) (y : BitVec 1) (m : BitVec 3) (e : BitVec 1) (d : BitVec 5) (a : BitVec 5)
  /-- VFABS (R190): Clears the sign bit of each element. -/
  | vfabs (x : BitVec 1) (m : BitVec 3) (e : BitVec 1) (d : BitVec 5) (a : BitVec 5)
  /-- VFNEG (R190): Inverts the sign bit of each element. -/
  | vfneg (x : BitVec 1) (m : BitVec 3) (e : BitVec 1) (d : BitVec 5) (a : BitVec 5)
  /-- VFADD_STATIC (R189): VFADD with a static rounding mode. -/
  | vfaddStatic (b : BitVec 5) (x : BitVec 1) (y : BitVec 1) (m : BitVec 3) (e : BitVec 1) (r : BitVec 2) (d : BitVec 5) (a : BitVec 5)
  /-- VFSUB_STATIC (R189): VFSUB with a static rounding mode. -/
  | vfsubStatic (b : BitVec 5) (x : BitVec 1) (y : BitVec 1) (m : BitVec 3) (e : BitVec 1) (r : BitVec 2) (d : BitVec 5) (a : BitVec 5)
  /-- VFMUL_STATIC (R189): VFMUL with a static rounding mode. -/
  | vfmulStatic (b : BitVec 5) (x : BitVec 1) (y : BitVec 1) (m : BitVec 3) (e : BitVec 1) (r : BitVec 2) (d : BitVec 5) (a : BitVec 5)
  /-- VFMA_STATIC (R189): VFMA with a static rounding mode. -/
  | vfmaStatic (b : BitVec 5) (x : BitVec 1) (y : BitVec 1) (m : BitVec 3) (e : BitVec 1) (r : BitVec 2) (d : BitVec 5) (a : BitVec 5)
  /-- VCMP_EQ (R191): Integer equal compare into a mask. -/
  | vcmpEq (b : BitVec 5) (x : BitVec 1) (y : BitVec 1) (m : BitVec 3) (e : BitVec 1) (d : BitVec 3) (a : BitVec 5)
  /-- VCMP_NE (R191): Integer not-equal compare into a mask. -/
  | vcmpNe (b : BitVec 5) (x : BitVec 1) (y : BitVec 1) (m : BitVec 3) (e : BitVec 1) (d : BitVec 3) (a : BitVec 5)
  /-- VCMP_LT (R191): Signed less-than compare. -/
  | vcmpLt (b : BitVec 5) (x : BitVec 1) (y : BitVec 1) (m : BitVec 3) (e : BitVec 1) (d : BitVec 3) (a : BitVec 5)
  /-- VCMP_LE (R191): Signed less-or-equal compare. -/
  | vcmpLe (b : BitVec 5) (x : BitVec 1) (y : BitVec 1) (m : BitVec 3) (e : BitVec 1) (d : BitVec 3) (a : BitVec 5)
  /-- VCMP_GT (R191): Signed greater-than compare. -/
  | vcmpGt (b : BitVec 5) (x : BitVec 1) (y : BitVec 1) (m : BitVec 3) (e : BitVec 1) (d : BitVec 3) (a : BitVec 5)
  /-- VCMP_GE (R191): Signed greater-or-equal compare. -/
  | vcmpGe (b : BitVec 5) (x : BitVec 1) (y : BitVec 1) (m : BitVec 3) (e : BitVec 1) (d : BitVec 3) (a : BitVec 5)
  /-- VCMP_LTU (R191): Unsigned less-than compare. -/
  | vcmpLtu (b : BitVec 5) (x : BitVec 1) (y : BitVec 1) (m : BitVec 3) (e : BitVec 1) (d : BitVec 3) (a : BitVec 5)
  /-- VCMP_LEU (R191): Unsigned less-or-equal compare. -/
  | vcmpLeu (b : BitVec 5) (x : BitVec 1) (y : BitVec 1) (m : BitVec 3) (e : BitVec 1) (d : BitVec 3) (a : BitVec 5)
  /-- VCMP_GTU (R191): Unsigned greater-than compare. -/
  | vcmpGtu (b : BitVec 5) (x : BitVec 1) (y : BitVec 1) (m : BitVec 3) (e : BitVec 1) (d : BitVec 3) (a : BitVec 5)
  /-- VCMP_GEU (R191): Unsigned greater-or-equal compare. -/
  | vcmpGeu (b : BitVec 5) (x : BitVec 1) (y : BitVec 1) (m : BitVec 3) (e : BitVec 1) (d : BitVec 3) (a : BitVec 5)
  /-- VFCMP_EQ (R191): Floating-point equal compare. -/
  | vfcmpEq (b : BitVec 5) (x : BitVec 1) (y : BitVec 1) (m : BitVec 3) (e : BitVec 1) (d : BitVec 3) (a : BitVec 5)
  /-- VFCMP_NE (R191): Floating-point not-equal compare. -/
  | vfcmpNe (b : BitVec 5) (x : BitVec 1) (y : BitVec 1) (m : BitVec 3) (e : BitVec 1) (d : BitVec 3) (a : BitVec 5)
  /-- VFCMP_LT (R191): Floating-point less-than compare. -/
  | vfcmpLt (b : BitVec 5) (x : BitVec 1) (y : BitVec 1) (m : BitVec 3) (e : BitVec 1) (d : BitVec 3) (a : BitVec 5)
  /-- VFCMP_LE (R191): Floating-point less-or-equal compare. -/
  | vfcmpLe (b : BitVec 5) (x : BitVec 1) (y : BitVec 1) (m : BitVec 3) (e : BitVec 1) (d : BitVec 3) (a : BitVec 5)
  /-- VFCMP_GT (R191): Floating-point greater-than compare. -/
  | vfcmpGt (b : BitVec 5) (x : BitVec 1) (y : BitVec 1) (m : BitVec 3) (e : BitVec 1) (d : BitVec 3) (a : BitVec 5)
  /-- VFCMP_GE (R191): Floating-point greater-or-equal compare. -/
  | vfcmpGe (b : BitVec 5) (x : BitVec 1) (y : BitVec 1) (m : BitVec 3) (e : BitVec 1) (d : BitVec 3) (a : BitVec 5)
  /-- VFCMP_UN (R191): Unordered compare: 1 when either operand is NaN. -/
  | vfcmpUn (b : BitVec 5) (x : BitVec 1) (y : BitVec 1) (m : BitVec 3) (e : BitVec 1) (d : BitVec 3) (a : BitVec 5)
  /-- MAND (R192): ANDs two masks over bits below VL. -/
  | mand (b : BitVec 3) (d : BitVec 3) (a : BitVec 3)
  /-- MOR (R192): ORs two masks. -/
  | mor (b : BitVec 3) (d : BitVec 3) (a : BitVec 3)
  /-- MXOR (R192): XORs two masks. -/
  | mxor (b : BitVec 3) (d : BitVec 3) (a : BitVec 3)
  /-- MANDN (R192): ms1 AND NOT ms2. -/
  | mandn (b : BitVec 3) (d : BitVec 3) (a : BitVec 3)
  /-- MNOT (R192): Inverts a mask below VL. -/
  | mnot (d : BitVec 3) (a : BitVec 3)
  /-- MSETN (R192): Sets the first n bits of a mask from a g register, independent of VL. -/
  | msetn (d : BitVec 3) (s : BitVec 5)
  /-- MPOPC (R192): Counts active set bits of a mask into gd. -/
  | mpopc (m : BitVec 3) (e : BitVec 1) (d : BitVec 5) (a : BitVec 3)
  /-- MFIRST (R192): Writes the index of the first active set bit, or all ones. -/
  | mfirst (m : BitVec 3) (e : BitVec 1) (d : BitVec 5) (a : BitVec 3)
  /-- MMOVE (R193): Copies a whole 4096-bit mask among m0-m7, XM and FMASK. -/
  | mmove (d : BitVec 5) (a : BitVec 5)
  /-- VSEL (R194): Selects elements from two sources under a mask. -/
  | vsel (b : BitVec 5) (x : BitVec 1) (y : BitVec 1) (m : BitVec 3) (d : BitVec 5) (a : BitVec 5)
  /-- VMV (R194): Copies active elements, whole BFP blocks only. -/
  | vmv (x : BitVec 1) (m : BitVec 3) (e : BitVec 1) (d : BitVec 5) (a : BitVec 5)
  /-- VMVX (R194): Broadcasts a scalar into active elements. -/
  | vmvx (m : BitVec 3) (e : BitVec 1) (d : BitVec 5) (s : BitVec 5)
  /-- VEXT (R194): Extracts element k of a vector into gd. -/
  | vext (t : BitVec 5) (x : BitVec 1) (d : BitVec 5) (a : BitVec 5)
  /-- VSLIDEUP (R194): Slides elements up by a scalar offset. -/
  | vslideup (t : BitVec 5) (x : BitVec 1) (m : BitVec 3) (e : BitVec 1) (d : BitVec 5) (a : BitVec 5)
  /-- VSLIDEDN (R194): Slides elements down by a scalar offset. -/
  | vslidedn (t : BitVec 5) (x : BitVec 1) (m : BitVec 3) (e : BitVec 1) (d : BitVec 5) (a : BitVec 5)
  /-- VGATH (R194): Gathers elements by index vector. -/
  | vgath (b : BitVec 5) (x : BitVec 1) (y : BitVec 1) (m : BitVec 3) (e : BitVec 1) (d : BitVec 5) (a : BitVec 5)
  /-- VCOMP (R194): Compresses active elements to the front. -/
  | vcomp (x : BitVec 1) (m : BitVec 3) (e : BitVec 1) (d : BitVec 5) (a : BitVec 5)
  /-- VEXP (R194): Expands leading elements into active positions. -/
  | vexp (x : BitVec 1) (m : BitVec 3) (e : BitVec 1) (d : BitVec 5) (a : BitVec 5)
  /-- VIOTA (R194): Writes prefix counts of active elements. -/
  | viota (m : BitVec 3) (e : BitVec 1) (d : BitVec 5)
  /-- VREDSUM (R195): Tree-sums active integer elements into element 0. -/
  | vredsum (x : BitVec 1) (m : BitVec 3) (e : BitVec 1) (d : BitVec 5) (a : BitVec 5)
  /-- VREDMIN (R195): Tree minimum into element 0. -/
  | vredmin (x : BitVec 1) (m : BitVec 3) (e : BitVec 1) (d : BitVec 5) (a : BitVec 5)
  /-- VREDMAX (R195): Tree maximum into element 0. -/
  | vredmax (x : BitVec 1) (m : BitVec 3) (e : BitVec 1) (d : BitVec 5) (a : BitVec 5)
  /-- VFREDSUM (R195): Canonical RNE tree sum of FP elements into element 0. -/
  | vfredsum (x : BitVec 1) (m : BitVec 3) (e : BitVec 1) (d : BitVec 5) (a : BitVec 5)
  /-- VCVT (R196): Converts elements from a source format to VT.FMT with VT.RM. -/
  | vcvt (g : BitVec 5) (x : BitVec 1) (m : BitVec 3) (e : BitVec 1) (d : BitVec 5) (a : BitVec 5)
  /-- VCVT_STATIC (R196): VCVT with a static rounding mode. -/
  | vcvtStatic (g : BitVec 5) (x : BitVec 1) (m : BitVec 3) (e : BitVec 1) (r : BitVec 2) (d : BitVec 5) (a : BitVec 5)
  /-- VBFPX_X (R197): Extracts BFP block exponents into bytes of vd. -/
  | vbfpxX (x : BitVec 1) (d : BitVec 5) (a : BitVec 5)
  /-- VBFPX_I (R197): Inserts bytes as BFP block exponents of vd. -/
  | vbfpxI (x : BitVec 1) (d : BitVec 5) (a : BitVec 5)
  /-- VLD (R286): Unit-stride vector load with format conversion. -/
  | vld (o : BitVec 1) (v : BitVec 1) (m : BitVec 3) (e : BitVec 1) (d : BitVec 5) (s : BitVec 5)
  /-- VLDS (R286): Strided vector load. -/
  | vlds (o : BitVec 1) (v : BitVec 1) (m : BitVec 3) (e : BitVec 1) (k : BitVec 3) (d : BitVec 5) (s : BitVec 5)
  /-- VLDX (R286): Indexed vector load with partial-fault completion. -/
  | vldx (i : BitVec 5) (o : BitVec 1) (v : BitVec 1) (m : BitVec 3) (e : BitVec 1) (d : BitVec 5) (s : BitVec 5)
  /-- VST (R286): Unit-stride vector store. -/
  | vst (o : BitVec 1) (v : BitVec 1) (m : BitVec 3) (e : BitVec 1) (d : BitVec 5) (s : BitVec 5)
  /-- VSTS (R286): Strided vector store. -/
  | vsts (o : BitVec 1) (v : BitVec 1) (m : BitVec 3) (e : BitVec 1) (k : BitVec 3) (d : BitVec 5) (s : BitVec 5)
  /-- VSTX (R286): Indexed vector store with partial-fault completion. -/
  | vstx (i : BitVec 5) (o : BitVec 1) (v : BitVec 1) (m : BitVec 3) (e : BitVec 1) (d : BitVec 5) (s : BitVec 5)
  /-- MZERO (R217): Clears an accumulator, its row sums and poison bit. -/
  | mzero (c : BitVec 1)
  /-- MINIT (R218): Initialises every cell to column plus row vector values. -/
  | minit (t : BitVec 5) (c : BitVec 1) (s : BitVec 5)
  /-- MMA (R219): Integer panel multiply-accumulate into an accumulator and its row sums. -/
  | mma (t : BitVec 5) (e : BitVec 3) (c : BitVec 1) (a : BitVec 1) (b : BitVec 1) (x : BitVec 1) (s : BitVec 5)
  /-- MMAB (R220): BFP panel multiply-accumulate into FP32 cells. -/
  | mmab (t : BitVec 5) (e : BitVec 3) (c : BitVec 1) (s : BitVec 5)
  /-- MROWSUM (R221): Writes the accumulator's row sums to a vector register. -/
  | mrowsum (c : BitVec 1) (d : BitVec 5)
  /-- MDRAIN_REG (R222): Copies eight accumulator rows to a vector register. -/
  | mdrainReg (c : BitVec 1) (d : BitVec 5) (s : BitVec 5)
  /-- MDRAIN_SPAD (R222): Writes the 4 KiB accumulator image to scratchpad. -/
  | mdrainSpad (c : BitVec 1) (s : BitVec 5)
  /-- MDRAINQ_REG (R224): Requantises every cell to a byte into a vector register. -/
  | mdrainqReg (t : BitVec 5) (e : BitVec 3) (c : BitVec 1) (d : BitVec 5)
  /-- MDRAINQ_SPAD (R224): Requantises every cell to a byte into scratchpad. -/
  | mdrainqSpad (t : BitVec 5) (e : BitVec 3) (c : BitVec 1) (s : BitVec 5)
  /-- CPY (R296): Copies one strip of VL elements with conversion and sync-word counting. -/
  | cpy (y : BitVec 3) (d : BitVec 5) (s : BitVec 5)
  /-- CPYR_ADD (R296): Reducing copy: integer add into destination elements. -/
  | cpyrAdd (y : BitVec 3) (d : BitVec 5) (s : BitVec 5)
  /-- CPYR_FADD (R296): Reducing copy: FP32 add. -/
  | cpyrFadd (y : BitVec 3) (d : BitVec 5) (s : BitVec 5)
  /-- CPYR_BFADD (R296): Reducing copy: BF16 add. -/
  | cpyrBfadd (y : BitVec 3) (d : BitVec 5) (s : BitVec 5)
  /-- CPYR_MIN (R296): Reducing copy: integer minimum. -/
  | cpyrMin (y : BitVec 3) (d : BitVec 5) (s : BitVec 5)
  /-- CPYR_MAX (R296): Reducing copy: integer maximum. -/
  | cpyrMax (y : BitVec 3) (d : BitVec 5) (s : BitVec 5)
  /-- CPYR_FMIN (R296): Reducing copy: FP32 minimum. -/
  | cpyrFmin (y : BitVec 3) (d : BitVec 5) (s : BitVec 5)
  /-- CPYR_FMAX (R296): Reducing copy: FP32 maximum. -/
  | cpyrFmax (y : BitVec 3) (d : BitVec 5) (s : BitVec 5)
  /-- CPYF (R296): Fills VL destination elements with the low bits of gt. -/
  | cpyf (t : BitVec 5) (y : BitVec 3) (d : BitVec 5)
  /-- CPY_MC (R297): Multicasts a strip to every member tile of a reel. -/
  | cpyMc (h : BitVec 4) (y : BitVec 3) (d : BitVec 5) (s : BitVec 5)
  /-- SEND (R335): Sends one token on a send port once a credit is held. -/
  | send (p : BitVec 4) (s : BitVec 5)
  /-- RECV (R335): Receives the next token from a receive port, or the end token. -/
  | recv (p : BitVec 4) (d : BitVec 5)
  /-- VSEND (R336): Sends VL elements packed into tokens. -/
  | vsend (p : BitVec 4) (s : BitVec 5)
  /-- VRECV (R336): Receives packed tokens into VL elements. -/
  | vrecv (p : BitVec 4) (d : BitVec 5)
  /-- SENDE (R335): Sends a plain end token and closes the send end. -/
  | sende (p : BitVec 4)
  /-- RECVE (R335): Receives a token with an end status and never traps on an end. -/
  | recve (p : BitVec 4) (d : BitVec 5) (s : BitVec 5)
  /-- PORTQ (R338): Writes a port's binding and state to gd. -/
  | portq (p : BitVec 4) (d : BitVec 5)
  /-- ERRAND (R388): Checks and sends an errand frame to the owner of its target, returning a tag. -/
  | errand (d : BitVec 5) (s : BitVec 5)
  /-- ERRWAIT (R388): Waits for an errand's REPLY and delivers its value or fault. -/
  | errwait (d : BitVec 5) (s : BitVec 5)
  /-- REPLY (R387): Errand-only: sets the frame's reply value. -/
  | reply (s : BitVec 5)
  /-- FINS (R387): Errand-only sub-byte field insert into an aligned word. -/
  | fins (t : BitVec 5) (d : BitVec 5) (s : BitVec 5)
  /-- GNEW (R411): Creates a reel by name and joins it, writing a status. -/
  | gnew (h : BitVec 4) (c : BitVec 3) (d : BitVec 5) (s : BitVec 5)
  /-- GJOIN (R411): Joins a reel at a rank and weight, writing a status. -/
  | gjoin (h : BitVec 4) (d : BitVec 5) (s : BitVec 5)
  /-- GLEAVE (R413): Unbinds a handle and sends a leave to the station. -/
  | gleave (h : BitVec 4) (d : BitVec 5)
  /-- GARR (R420): Arrives with a scalar weight without waiting. -/
  | garr (h : BitVec 4) (s : BitVec 5)
  /-- GARR_MASK (R420): Arrives with the count of active mask bits. -/
  | garrMask (h : BitVec 4) (k : BitVec 3)
  /-- GBAR (R421): Arrives with the remaining weight and waits for the phase to complete. -/
  | gbar (h : BitVec 4) (d : BitVec 5)
  /-- GWAIT (R421): Waits until a named phase has completed. -/
  | gwait (h : BitVec 4) (d : BitVec 5) (s : BitVec 5)
  /-- GVOTE_ALL (R423): Arrives with a scalar predicate and returns the all vote. -/
  | gvoteAll (h : BitVec 4) (d : BitVec 5) (s : BitVec 5)
  /-- GVOTE_ANY (R423): Scalar any vote. -/
  | gvoteAny (h : BitVec 4) (d : BitVec 5) (s : BitVec 5)
  /-- GVOTE_COUNT (R423): Scalar count vote. -/
  | gvoteCount (h : BitVec 4) (d : BitVec 5) (s : BitVec 5)
  /-- GVOTE_ALL_MASK (R423): All vote with yes count from a mask. -/
  | gvoteAllMask (h : BitVec 4) (d : BitVec 5) (k : BitVec 3)
  /-- GVOTE_ANY_MASK (R423): Any vote with yes count from a mask. -/
  | gvoteAnyMask (h : BitVec 4) (d : BitVec 5) (k : BitVec 3)
  /-- GVOTE_COUNT_MASK (R423): Count vote with yes count from a mask. -/
  | gvoteCountMask (h : BitVec 4) (d : BitVec 5) (k : BitVec 3)
  /-- GRED_SUM (R424): Arrives with a value and returns the canonical tree sum. -/
  | gredSum (h : BitVec 4) (y : BitVec 3) (d : BitVec 5) (s : BitVec 5)
  /-- GRED_MIN (R424): Reel reduction minimum. -/
  | gredMin (h : BitVec 4) (y : BitVec 3) (d : BitVec 5) (s : BitVec 5)
  /-- GRED_MAX (R424): Reel reduction maximum. -/
  | gredMax (h : BitVec 4) (y : BitVec 3) (d : BitVec 5) (s : BitVec 5)
  /-- GINFO (R426): Asks the station for phase, member count and departures. -/
  | ginfo (h : BitVec 4) (d : BitVec 5)
  /-- SWSET (R458): Arms a sync word's target, optionally clearing COUNT. -/
  | swset (t : BitVec 5) (d : BitVec 5) (s : BitVec 5)
  /-- SWWAIT (R458): Waits until a sync word reaches a generation. -/
  | swwait (t : BitVec 5) (d : BitVec 5) (s : BitVec 5)
  /-- SWADD (R458): Adds bytes to a sync word and advances its generation. -/
  | swadd (t : BitVec 5) (s : BitVec 5)
  /-- SWREAD (R458): Reads GEN and COUNT in one access. -/
  | swread (d : BitVec 5) (s : BitVec 5)
  /-- TEMIT (R472): Writes a TEMIT trace record when enabled. -/
  | temit (s : BitVec 5)
  /-- TMARK (R472): Writes a BLOCK trace record when enabled. -/
  | tmark (i : BitVec 13)
  /-- RQPUSH (R252): Marks a park record ready and appends it to a ready-queue FIFO. -/
  | rqpush (t : BitVec 5) (d : BitVec 5) (s : BitVec 5)
  /-- RQPOP (R252): Removes the head of the highest non-empty ready FIFO. -/
  | rqpop (d : BitVec 5)
  /-- SLOTGO (R252): Starts a stopped slot, restoring long-vector context if asked. -/
  | slotgo (t : BitVec 5) (s : BitVec 5)
  /-- SLOTSTOP (R252): Stops a slot at a boundary and saves long-vector context if asked. -/
  | slotstop (t : BitVec 5) (s : BitVec 5)
  /-- MIGRATE (R252): Moves the tile's state to a free tile of the partition (volta). -/
  | migrate (d : BitVec 5) (s : BitVec 5)
  /-- FWDSET (R252): Sets or removes a vacated tile's forwarding entry. -/
  | fwdset (t : BitVec 5) (d : BitVec 5) (s : BitVec 5)
  /-- TIMERSET (R252): Arms or disarms a slot's timer. -/
  | timerset (t : BitVec 5) (s : BitVec 5)
  /-- PARKWAIT (R252): Wakes a record whose condition holds or arms its watched wait. -/
  | parkwait (d : BitVec 5) (s : BitVec 5)
  /-- HINT (R124): Major 0x1F hint executes as a no-op. -/
  | hint (i : BitVec 16) (j : BitVec 10)
  /-- NOP (R124): The 32-bit no-op. -/
  | nop
  /-- C_MV (R117): Compact ADD d, s, g0. -/
  | cMv (d : BitVec 5) (s : BitVec 5)
  /-- C_ADD (R117): Compact ADD d, d, s. -/
  | cAdd (d : BitVec 5) (s : BitVec 5)
  /-- C_ADDI (R117): Compact ADDI d, d, imm6. -/
  | cAddi (d : BitVec 5) (i : BitVec 6)
  /-- C_LD (R169): Compact doubleword load from g2 plus offset. -/
  | cLd (d : BitVec 5) (i : BitVec 6)
  /-- C_ST (R169): Compact doubleword store to g2 plus offset. -/
  | cSt (d : BitVec 5) (i : BitVec 6)
  /-- C_BEQZ (R117): Compact branch if zero. -/
  | cBeqz (d : BitVec 5) (o : BitVec 6)
  /-- C_BNEZ (R117): Compact branch if non-zero. -/
  | cBnez (d : BitVec 5) (o : BitVec 6)
  /-- C_J (R117): Compact jump, JAL g0. -/
  | cJ (o : BitVec 11)
  /-- C_SEND (R117): Compact SEND. -/
  | cSend (p : BitVec 4) (s : BitVec 5)
  /-- C_RECV (R117): Compact RECV. -/
  | cRecv (d : BitVec 5) (p : BitVec 4)
  /-- C_LDHI (R117): Compact LDHI with a 6-bit immediate. -/
  | cLdhi (d : BitVec 5) (i : BitVec 6)
  /-- C_NOP (R117): Compact no-op. -/
  | cNop
  /-- VT_WRITE (R186): A CTL write of VT applies the SETVT rule, setting BAD or regranting VL. -/
  | vtWrite (tile : Nat) (slot : Fin 8) (q : BitVec 64)
  /-- VL_WRITE (R175): A CTL write of VL applies the grant rule. -/
  | vlWrite (tile : Nat) (slot : Fin 8) (q : BitVec 64)
  /-- XCLASS_WRITE (R176): A write of XCLASS also clears all of XM. -/
  | xclassWrite (tile : Nat) (slot : Fin 8) (q : BitVec 64)
  /-- XM_WRITE (R176): A CTL write of XM sets bits 63:0 only. -/
  | xmWrite (tile : Nat) (slot : Fin 8) (q : BitVec 64)
  /-- FMASK_WRITE (R176): A CTL write of FMASK sets bits 63:0 only. -/
  | fmaskWrite (tile : Nat) (slot : Fin 8) (q : BitVec 64)
  /-- STATUS_WRITE (R236): A CTL write of STATUS changes fields by the writer's privilege. -/
  | statusWrite (tile : Nat) (slot : Fin 8) (q : BitVec 64)
  /-- MSLOT_WRITE (R208): Writes a matrix slot owner, effective from the next quantum. -/
  | mslotWrite (tile : Nat) (n : Fin 16) (q : BitVec 64)
  /-- BFMT_WRITE (R264): Writes a bank format, governing later accesses and placements. -/
  | bfmtWrite (tile : Nat) (n : Fin 16) (q : BitVec 64)
  /-- PERFSEL_WRITE (R462): Selects a counter event; a reserved code leaves it unchanged. -/
  | perfselWrite (tile : Nat) (n : Fin 8) (q : BitVec 64)
  /-- PROBE_DELAY_WRITE (R344): Writes the probe launch delay, raised to at least 256. -/
  | probeDelayWrite (tile : Nat) (q : BitVec 64)
  /-- DECODE_DEADLINE_WRITE (R368): Writes the decode deadline, raised to at least 256. -/
  | decodeDeadlineWrite (tile : Nat) (q : BitVec 64)
  /-- CRATE_WRITE (R368): Writes a parity count; 0 and 5-7 leave it unchanged. -/
  | crateWrite (tile : Nat) (n : Fin 4) (q : BitVec 64)
  /-- INJECT_DROP_FRAGMENT (R234): KIND 1: drops fragment FRAG of the next counted message. -/
  | injectDropFragment (tile : Nat) (frag : BitVec 8)
  /-- INJECT_HOLD_FRAGMENT (R234): KIND 2: holds fragment FRAG of the next counted message DELAY cycles. -/
  | injectHoldFragment (tile : Nat) (frag : BitVec 8) (delay : BitVec 16)
  /-- INJECT_CHECKER_MISMATCH (R234): KIND 3: forces one checker mismatch at the next check. -/
  | injectCheckerMismatch (tile : Nat)
  /-- INJECT_DOUBLE_MISMATCH (R234): KIND 4: forces two mismatches at the next check. -/
  | injectDoubleMismatch (tile : Nat)
  /-- INJECT_POISON_GRANULE (R234): KIND 5: poisons the next 32-byte granule written on the tile. -/
  | injectPoisonGranule (tile : Nat)
  /-- INJECT_HOLD_RELEASE (R234): A held injected fragment is sent after its DELAY expires. -/
  | injectHoldRelease (tile : Nat) (i : Nat)
  /-- CONTROL_REGISTER_WRITE (R233): Writes a control register that has no row of its own. -/
  | controlRegisterWrite (tile : Nat) (slot : Fin 8) (num : BitVec 12) (q : BitVec 64)
  /-- SLOT_IMAGE_WRITE (R507): Store at S to a stopped slot's image, including errand completion positions. -/
  | slotImageWrite (tile : Nat) (slot : Fin 8) (off : BitVec 10) (q : BitVec 64)
  /-- WATCHDOG_PASS (R247): WDOG passing WDLIM stops the slot and sets WDP. -/
  | watchdogPass (tile : Nat) (slot : Fin 8)
  /-- TIMER_EXPIRY (R248): A slot timer reaches its deadline, disarms and sets TMP. -/
  | timerExpiry (tile : Nat) (slot : Fin 8)
  /-- PARK_DEADLINE_EXPIRY (R35): A watched record's deadline passes: mark ready, enqueue, raise WAKE. -/
  | parkDeadlineExpiry (tile : Nat) (i : Nat)
  /-- WATCHDOG_EVENT (R241): Supervisor slot takes a pending WATCHDOG event. -/
  | watchdogEvent (tile : Nat)
  /-- MIGRATE_EVENT (R241): Supervisor slot takes a pending MIGRATE event ordered by the manager. -/
  | migrateEvent (tile : Nat)
  /-- TIMER_EVENT (R241): Supervisor slot takes a pending TIMER event. -/
  | timerEvent (tile : Nat)
  /-- WAKE_EVENT (R241): Supervisor slot takes a pending WAKE event. -/
  | wakeEvent (tile : Nat)
  /-- UNIT_END (R43): Ends a process, network or partition and applies its effects in order. -/
  | unitEnd
  /-- LAUNCH (R65): Checks budgets, places, loads through the rewriter, binds and starts a network. -/
  | launch
  /-- ABORT (R69): Ends a network or partition as by a terminal fault. -/
  | abort
  /-- CAPTURE_START (R475): Opens a trace capture window at each tile of a network. -/
  | captureStart
  /-- CAPTURE_STOP (R475): Closes a trace window and drains every tile before the ACK. -/
  | captureStop
  /-- MANAGE_CREATE (R445): Creates a partition: check, scrub, bitmaps, route tables, ACK. -/
  | manageCreate
  /-- MANAGE_DESTROY (R70): Ends a partition's networks and removes the partition. -/
  | manageDestroy
  /-- MANAGE_SETFIELD (R70): Writes one field of a region control block. -/
  | manageSetfield
  /-- MANAGE_MAP (R70): Scrubs a target page, builds tables and writes a leaf. -/
  | manageMap
  /-- MANAGE_UNMAP (R70): Removes a leaf with invalidation and returns its charge. -/
  | manageUnmap
  /-- MANAGE_REBIND (R342): Rebinds a channel end to another port carrying its state. -/
  | manageRebind
  /-- MANAGE_READ (R70): Writes a counter image, link block, black box or reel entry to host memory. -/
  | manageRead
  /-- MANAGE_BBCLEAR (R70): Clears every die's black-box ring. -/
  | manageBbclear
  /-- MANAGE_HALT (R243): Raises DEBUG_HALT in a slot at an instruction boundary. -/
  | manageHalt
  /-- MANAGE_RESUME (R243): Resumes a halted slot at its EPC. -/
  | manageResume
  /-- ASSIST_ANSWER_TRANSLATION (R73): Installs a leaf or denies a host-assisted translation miss. -/
  | assistAnswerTranslation
  /-- ASSIST_ANSWER_GROWTH (R73): Grows a named channel or declares DEADLOCK. -/
  | assistAnswerGrowth
  /-- ASSIST_ANSWER_REEL (R73): Retries or refuses an overflowed GNEW or GJOIN. -/
  | assistAnswerReel
  /-- ASSIST_ANSWER_LINK (R73): Holds a link's rate or raises it one step. -/
  | assistAnswerLink
  /-- ASSIST_ANSWER_DECODE (R73): Keeps the decode table or supplies a signed image. -/
  | assistAnswerDecode
  /-- ASSIST_ANSWER_MIGRATION (R73): Names a volta target tile or defers to hardware choice. -/
  | assistAnswerMigration
  /-- ATTEST (R503): Writes the signed attestation log to host memory. -/
  | attest
  /-- RETURN_CHANNEL_ROOM (R361): A held outgoing message is written once the host frees a return slot. -/
  | returnChannelRoom
  /-- FRAGMENT_ARRIVAL (R372): A fragment reaches a decode buffer and is stored, discarded or completes its message. -/
  | fragmentArrival (i : Nat)
  /-- HELD_FRAGMENT_NACK (R372): A fragment held at the fabric input past the deadline draws a HELD NACK. -/
  | heldFragmentNack (ep : Ep) (i : Nat)
  /-- DECODE_DEADLINE_EXPIRY (R372): An open buffer's deadline expires: NACK or destination loss. -/
  | decodeDeadlineExpiry (ep : Ep) (i : Nat)
  /-- FILTER_ENTRY_EXPIRY (R373): A completion-filter entry leaves after 2^24 cycles. -/
  | filterEntryExpiry (ep : Ep) (i : Nat)
  /-- SHADOW_TIMER_EXPIRY (R376): The source's send-shadow timer expires: resend or source loss. -/
  | shadowTimerExpiry (ep : Ep) (i : Nat)
  /-- DONE (R374): Acknowledgement arrives at the source, stopping its timer and sending RELEASE. -/
  | done (ep : Ep) (i : Nat)
  /-- RELEASE (R373): Removes a filter entry or frees an open buffer for that identity. -/
  | release (ep : Ep) (i : Nat)
  /-- NACK (R376): A NACK arrives at the source, causing a resend, redirect or RELEASE. -/
  | nack (ep : Ep) (i : Nat)
  /-- TOKENS (R375): A token message is placed in its channel buffer by sequence number. -/
  | tokens (ep : Ep) (i : Nat)
  /-- CREDIT (R329): Cumulative credits return to a send end, unblocking a waiting send. -/
  | credit (ep : Ep) (i : Nat)
  /-- ENDED (R340): Consumer-ended notice makes the next send raise CHANNEL_BROKEN. -/
  | ended (ep : Ep) (i : Nat)
  /-- COPY (R379): A copy message's data is placed directly or after decode at its destination. -/
  | copy (ep : Ep) (i : Nat)
  /-- PLACED (R381): The home's placement report is counted in the issuer's sync word. -/
  | placed (ep : Ep) (i : Nat)
  /-- ERRAND_FRAME_EXECUTION (R383): Executor runs the frame at the head of its queue and replies. -/
  | errandFrameExecution (ep : Ep)
  /-- REPLY_MESSAGE (R388): An errand's REPLY completes it at the issuing slot. -/
  | replyMessage (ep : Ep) (i : Nat)
  /-- HOME_ACCESS (R268): A far request is translated and checked at its home and performed. -/
  | homeAccess (ep : Ep) (i : Nat)
  /-- RUPD_APPLY (R278): A remote update is applied or discarded at its home. -/
  | rupdApply (ep : Ep) (i : Nat)
  /-- FAR_REPLY (R277): A far reply arrives and completes LDF, STF, AMO or an XLATE. -/
  | farReply (ep : Ep) (i : Nat)
  /-- SERVER_READ (R357): Memory server checks and performs a READ and replies with data. -/
  | serverRead (ep : Ep) (i : Nat)
  /-- SERVER_WRITE (R357): Memory server performs a WRITE after its data tokens and replies. -/
  | serverWrite (ep : Ep) (i : Nat)
  /-- SERVER_ZERO (R357): Memory server writes zero bytes and replies. -/
  | serverZero (ep : Ep) (i : Nat)
  /-- XLATE (R487): Translation request of a copy checked at the page's home and answered. -/
  | xlate (ep : Ep) (i : Nat)
  /-- PROBE_LAUNCH (R345): A wait lasting its launch delay launches a deadlock probe. -/
  | probeLaunch (tile : Nat) (slot : Fin 8)
  /-- PROBE (R346): A probe reaches a process or station and follows its wait-for edges. -/
  | probe (ep : Ep) (i : Nat)
  /-- GROW (R350): Growth request at the consumer tile doubles capacity and claims spill. -/
  | grow (ep : Ep) (i : Nat)
  /-- SPILL_CLAIM_REPLY (R480): The claim returns an offset and the tile sends C credits, or spill is exhausted. -/
  | spillClaimReply (ep : Ep) (i : Nat)
  /-- REEL_CREATE (R411): Station creates a reel entry with the creator counted, or a status. -/
  | reelCreate (ep : Ep) (i : Nat)
  /-- REEL_JOIN (R414): Station adds a member counted now or pending. -/
  | reelJoin (ep : Ep) (i : Nat)
  /-- REEL_LEAVE (R413): Station removes a member or marks it LEAVING. -/
  | reelLeave (ep : Ep) (i : Nat)
  /-- REEL_ARRIVE (R419): Station adds arrived weight, votes or values toward a phase. -/
  | reelArrive (ep : Ep) (i : Nat)
  /-- REEL_WAIT (R421): Station answers a wait for a phase when it has completed. -/
  | reelWait (ep : Ep) (i : Nat)
  /-- REEL_INFO (R426): Station answers a GINFO. -/
  | reelInfo (ep : Ep) (i : Nat)
  /-- REEL_STATUS (R411): Status reply completes GNEW or GJOIN and binds the handle. -/
  | reelStatus (ep : Ep) (i : Nat)
  /-- REEL_RESULT (R422): Phase result completes a waiting GBAR, GVOTE, GRED or GWAIT. -/
  | reelResult (ep : Ep) (i : Nat)
  /-- REEL_DEPART (R429): Station removes a faulted member and increments DEPARTED. -/
  | reelDepart (ep : Ep) (i : Nat)
  /-- REEL_MOVED (R433): Station updates a moved member's tile and slot. -/
  | reelMoved (ep : Ep) (i : Nat)
  /-- REEL_GANG (R432): Station sends gang notices that set TMP at other members' tiles. -/
  | reelGang (ep : Ep) (i : Nat)
  /-- REEL_EXPAND (R297): Station expands a CPY.MC strip to the counted members' tiles. -/
  | reelExpand (ep : Ep) (i : Nat)
  /-- FORWARDING_EXPIRY (R453): A forwarding entry expires after 2^24 ticks. -/
  | forwardingExpiry (tile : Nat)
  /-- PAGE_MIGRATION (R321): Manager freezes a far page and its old home drains applied requests. -/
  | pageMigration (tnt pid va stack : Nat)
  /-- MIGRATION_COPY (R321): After the drain, the page is copied and the entry switched to the new home. -/
  | migrationCopy (i : Nat)
  /-- MIGRATION_COMPLETE (R442): After 2^24 ticks switched, MIG is cleared and forwarding discarded. -/
  | migrationComplete (i : Nat)
  /-- DECODE_TABLE_UPDATE (R450): Firmware verifies and loads a decode-table image into stopped tiles. -/
  | decodeTableUpdate (tile : Nat)
  /-- LINK_STEP_DOWN (R398): A lane's margin below threshold drops the link one rate step. -/
  | linkStepDown (link lane : Nat) (margin : BitVec 8)
  /-- LINK_STEP_UP (R56): After one second of clean margin the link returns to a higher rate. -/
  | linkStepUp (link : Nat)
  /-- TRACE_DRAIN (R468): The trace FIFO drains a 64-byte line into the far ring. -/
  | traceDrain (tile : Nat)
  /-- GAP_RECORD (R471): When room returns, a GAP and TIME record enter the FIFO. -/
  | gapRecord (tile : Nat)
  /-- THROTTLE_STEP_UP (R494): A sensor reading at or above 95 C raises the cluster one throttle step. -/
  | throttleStepUp (cluster reading : Nat)
  /-- THROTTLE_STEP_DOWN (R494): A reading below 90 C held 1 ms lowers the cluster one step. -/
  | throttleStepDown (cluster reading : Nat)
  /-- OVERCURRENT_THROTTLE (R494): Core current above 12000 A for 10 us raises every cluster one step. -/
  | overcurrentThrottle
  /-- THERMAL_TRIP (R495): A reading at or above 110 C cuts the core rail and ends every network. -/
  | thermalTrip (cluster reading : Nat)
  /-- POWER_ON_RESET (R498): Module power clears everything including the black box. -/
  | powerOnReset
  /-- WARM_RESET (R498): SMBus RESET write or companion resets all but the black box. -/
  | warmReset
  /-- CORE_RAIL_RESET (R498): Undervoltage or thermal trip resets as a warm reset. -/
  | coreRailReset
  /-- BOOT (R499): Boot tile verifies, floods, numbers, delivers, measures, trains links and sets READY. -/
  | boot
  /-- SCBASE_WRITE (R501): Sets the host address of the supervisor channel. -/
  | scbaseWrite (q : BitVec 64)
  /-- RCBASE_WRITE (R501): Sets the host address of the return channel. -/
  | rcbaseWrite (q : BitVec 64)
  /-- BBOX_READ (R501): Returns the next 8 bytes of the black-box rings. -/
  | bboxRead
  /-- ILLEGAL (R123): Executing an unassigned encoding (major 0x1C-0x1E, an unlisted funct or sub-field value, or compact op4 0x0, 0xD-0xF) raises ILLEGAL with the encoding in EVAL. -/
  | illegal (enc : BitVec 32)
  /-- VOLTA_ORDER (R241): The network manager orders a volta of a tile, which sets MGP in the supervisor slot's STATUS. -/
  | voltaOrder (tile target : Nat)
  /-- ROUTER_FRAGMENT (R47): A fragment reaches a router or vacated tile. The router discards and counts it when its tenant bit is clear, or a forwarding entry rewrites its DEST and sends it on. -/
  | routerFragment (i : Nat) (router : Ep)
  /-- LINK_FLIT_RETRY (R398): A flit fails its link check and is retried on the link up to three times, then dropped and counted in LOST. -/
  | linkFlitRetry (i link : Nat)
  /-- RETRAIN_COMPLETE (R398): A link finishes retraining after a rate step, within 4 us, and delivers the flits it held. -/
  | retrainComplete (link : Nat)
  /-- SPILL_READ (R352): The reply to a spill read reaches the consumer tile, which places the tokens read back into the channel area in sequence order. -/
  | spillRead (ep : Ep) (i : Nat)
  /-- TS_WRAP (R471): When TS [39:0] of the trace timestamp wraps, the tile writes a TIME record. -/
  | tsWrap (tile : Nat)
  deriving DecidableEq, Repr

end Sys2Proof
end

