-- ==== Sys2Proof/WellFormed.lean ====
section
/-!
DEFINITION. Well-formed instructions: the operand rules of 03_encoding.md R115, R122 and of the instructions' own
entries that the fields' widths do not already say, and the ranges of what an event row names.
-/
namespace Sys2Proof

/-- The format codes 02_number_formats.md R74 assigns. -/
def fmtAssigned (c : Nat) : Bool :=
  decide (c ≤ 4) || decide (8 ≤ c && c ≤ 10) || decide (0x12 ≤ c && c ≤ 0x18)

/-- The mask register field is zero when mask enable is 0 (03_encoding.md R115). -/
def maskOk (m : BitVec 3) (e : BitVec 1) : Bool := e == 1#1 || m == 0#3

/-- A fabric end that the package has: 01_machine.md R11 to R16. -/
def Ep.exists : Ep → Bool
  | ⟨.tile, n⟩ => decide (n < 8192)
  | ⟨.edge, n⟩ => decide (n < 256)
  | ⟨.reel, n⟩ => decide (n < 32)
  | ⟨.port, n⟩ => decide (n < 5)

/-- Well-formedness, one arm per constructor. -/
def Instr.wf : Instr → Bool
  | .add _ _ _ => true
  | .sub _ _ _ => true
  | .and _ _ _ => true
  | .or _ _ _ => true
  | .xor _ _ _ => true
  | .andn _ _ _ => true
  | .sll _ _ _ => true
  | .srl _ _ _ => true
  | .sra _ _ _ => true
  | .slt _ _ _ => true
  | .sltu _ _ _ => true
  | .min _ _ _ => true
  | .max _ _ _ => true
  | .minu _ _ _ => true
  | .maxu _ _ _ => true
  | .clz _ _ => true
  | .ctz _ _ => true
  | .popc _ _ => true
  | .rev8 _ _ => true
  | .rol _ _ _ => true
  | .rotr _ _ _ => true
  | .sextB _ _ => true
  | .sextH _ _ => true
  | .sextW _ _ => true
  | .addi _ _ _ => true
  | .andi _ _ _ => true
  | .ori _ _ _ => true
  | .xori _ _ _ => true
  | .slti _ _ _ => true
  | .sltiu _ _ _ => true
  | .slli _ _ _ => true
  | .srli _ _ _ => true
  | .srai _ _ _ => true
  | .ldhi _ _ => true
  | .addpc _ _ => true
  | .mul _ _ _ => true
  | .mulh _ _ _ => true
  | .mulhu _ _ _ => true
  | .mulhsu _ _ _ => true
  | .divu _ _ _ => true
  | .div _ _ _ => true
  | .remu _ _ _ => true
  | .rem _ _ _ => true
  | .beq _ _ _ => true
  | .bne _ _ _ => true
  | .blt _ _ _ => true
  | .bge _ _ _ => true
  | .bltu _ _ _ => true
  | .bgeu _ _ _ => true
  | .jal _ _ => true
  | .jalr _ _ _ => true
  | .ldB _ _ _ => true
  | .ldH _ _ _ => true
  | .ldW _ _ _ => true
  | .ldD _ _ _ => true
  | .ldBu _ _ _ => true
  | .ldHu _ _ _ => true
  | .ldWu _ _ _ => true
  | .ldAcq _ _ _ => true
  | .stB _ _ _ => true
  | .stH _ _ _ => true
  | .stW _ _ _ => true
  | .stD _ _ _ => true
  | .stRel _ _ _ => true
  | .ldf w x _ _ => !(w == 3#2 && x == 1#1)
  | .stf _ _ _ => true
  | .amoAdd _ _ _ _ => true
  | .amoSwap _ _ _ _ => true
  | .amoCas _ _ _ _ => true
  | .amoMin _ _ _ _ => true
  | .amoMax _ _ _ _ => true
  | .amoMinu _ _ _ _ => true
  | .amoMaxu _ _ _ _ => true
  | .amoAnd _ _ _ _ => true
  | .amoOr _ _ _ _ => true
  | .amoXor _ _ _ _ => true
  | .amoFadd _ _ _ => true
  | .rupdAdd _ _ _ => true
  | .rupdMin _ _ _ => true
  | .rupdMax _ _ _ => true
  | .rupdMinu _ _ _ => true
  | .rupdMaxu _ _ _ => true
  | .rupdAnd _ _ _ => true
  | .rupdOr _ _ _ => true
  | .rupdXor _ _ _ => true
  | .rupdFadd _ _ => true
  | .oxl _ _ => true
  | .oxm _ _ => true
  | .oxr _ _ => true
  | .ctlr _ _ => true
  | .ctlw _ _ => true
  | .ctls _ _ _ => true
  | .ctlc _ _ _ => true
  | .fence p _ => decide (p.toNat ≤ 4)
  | .trap _ => true
  | .rett => true
  | .chkerr => true
  | .bkpt => true
  | .setvl _ _ => true
  | .setvli _ _ => true
  | .setvt _ _ => true
  | .vadd _ _ _ m e _ _ => maskOk m e
  | .vsub _ _ _ m e _ _ => maskOk m e
  | .vmul _ _ _ m e _ _ => maskOk m e
  | .vmulh _ _ _ m e _ _ => maskOk m e
  | .vand _ _ _ m e _ _ => maskOk m e
  | .vor _ _ _ m e _ _ => maskOk m e
  | .vxor _ _ _ m e _ _ => maskOk m e
  | .vsll _ _ _ m e _ _ => maskOk m e
  | .vsrl _ _ _ m e _ _ => maskOk m e
  | .vsra _ _ _ m e _ _ => maskOk m e
  | .vmin _ _ _ m e _ _ => maskOk m e
  | .vmax _ _ _ m e _ _ => maskOk m e
  | .vminu _ _ _ m e _ _ => maskOk m e
  | .vmaxu _ _ _ m e _ _ => maskOk m e
  | .vabsd _ _ _ m e _ _ => maskOk m e
  | .vsadd _ _ _ m e _ _ => maskOk m e
  | .vssub _ _ _ m e _ _ => maskOk m e
  | .vfadd _ _ _ m e _ _ => maskOk m e
  | .vfsub _ _ _ m e _ _ => maskOk m e
  | .vfmul _ _ _ m e _ _ => maskOk m e
  | .vfma _ _ _ m e _ _ => maskOk m e
  | .vfms _ _ _ m e _ _ => maskOk m e
  | .vfnma _ _ _ m e _ _ => maskOk m e
  | .vfdiv _ _ _ m e _ _ => maskOk m e
  | .vfsqrt _ m e _ _ => maskOk m e
  | .vfmin _ _ _ m e _ _ => maskOk m e
  | .vfmax _ _ _ m e _ _ => maskOk m e
  | .vfabs _ m e _ _ => maskOk m e
  | .vfneg _ m e _ _ => maskOk m e
  | .vfaddStatic _ _ _ m e _ _ _ => maskOk m e
  | .vfsubStatic _ _ _ m e _ _ _ => maskOk m e
  | .vfmulStatic _ _ _ m e _ _ _ => maskOk m e
  | .vfmaStatic _ _ _ m e _ _ _ => maskOk m e
  | .vcmpEq _ _ _ m e _ _ => maskOk m e
  | .vcmpNe _ _ _ m e _ _ => maskOk m e
  | .vcmpLt _ _ _ m e _ _ => maskOk m e
  | .vcmpLe _ _ _ m e _ _ => maskOk m e
  | .vcmpGt _ _ _ m e _ _ => maskOk m e
  | .vcmpGe _ _ _ m e _ _ => maskOk m e
  | .vcmpLtu _ _ _ m e _ _ => maskOk m e
  | .vcmpLeu _ _ _ m e _ _ => maskOk m e
  | .vcmpGtu _ _ _ m e _ _ => maskOk m e
  | .vcmpGeu _ _ _ m e _ _ => maskOk m e
  | .vfcmpEq _ _ _ m e _ _ => maskOk m e
  | .vfcmpNe _ _ _ m e _ _ => maskOk m e
  | .vfcmpLt _ _ _ m e _ _ => maskOk m e
  | .vfcmpLe _ _ _ m e _ _ => maskOk m e
  | .vfcmpGt _ _ _ m e _ _ => maskOk m e
  | .vfcmpGe _ _ _ m e _ _ => maskOk m e
  | .vfcmpUn _ _ _ m e _ _ => maskOk m e
  | .mand _ _ _ => true
  | .mor _ _ _ => true
  | .mxor _ _ _ => true
  | .mandn _ _ _ => true
  | .mnot _ _ => true
  | .msetn _ _ => true
  | .mpopc m e _ _ => maskOk m e
  | .mfirst m e _ _ => maskOk m e
  | .mmove d a => decide (d.toNat < 10) && decide (a.toNat < 10)
  | .vsel _ _ _ _ _ _ => true
  | .vmv _ m e _ _ => maskOk m e
  | .vmvx m e _ _ => maskOk m e
  | .vext _ _ _ _ => true
  | .vslideup _ _ m e _ _ => maskOk m e
  | .vslidedn _ _ m e _ _ => maskOk m e
  | .vgath _ _ _ m e _ _ => maskOk m e
  | .vcomp _ m e _ _ => maskOk m e
  | .vexp _ m e _ _ => maskOk m e
  | .viota m e _ => maskOk m e
  | .vredsum _ m e _ _ => maskOk m e
  | .vredmin _ m e _ _ => maskOk m e
  | .vredmax _ m e _ _ => maskOk m e
  | .vfredsum _ m e _ _ => maskOk m e
  | .vcvt g _ m e _ _ => maskOk m e && fmtAssigned g.toNat
  | .vcvtStatic g _ m e _ _ _ => maskOk m e && fmtAssigned g.toNat
  | .vbfpxX _ _ _ => true
  | .vbfpxI _ _ _ => true
  | .vld _ _ m e _ _ => maskOk m e
  | .vlds _ _ m e _ _ _ => maskOk m e
  | .vldx _ _ _ m e _ _ => maskOk m e
  | .vst _ _ m e _ _ => maskOk m e
  | .vsts _ _ m e _ _ _ => maskOk m e
  | .vstx _ _ _ m e _ _ => maskOk m e
  | .mzero _ => true
  | .minit _ _ _ => true
  | .mma _ _ _ _ _ _ _ => true
  | .mmab _ _ _ _ => true
  | .mrowsum _ _ => true
  | .mdrainReg _ _ _ => true
  | .mdrainSpad _ _ => true
  | .mdrainqReg _ _ _ _ => true
  | .mdrainqSpad _ _ _ _ => true
  | .cpy _ _ _ => true
  | .cpyrAdd _ _ _ => true
  | .cpyrFadd _ _ _ => true
  | .cpyrBfadd _ _ _ => true
  | .cpyrMin _ _ _ => true
  | .cpyrMax _ _ _ => true
  | .cpyrFmin _ _ _ => true
  | .cpyrFmax _ _ _ => true
  | .cpyf _ _ _ => true
  | .cpyMc _ _ _ _ => true
  | .send _ _ => true
  | .recv _ _ => true
  | .vsend _ _ => true
  | .vrecv _ _ => true
  | .sende _ => true
  | .recve _ d s => !(d == s && d != 0#5)
  | .portq _ _ => true
  | .errand _ _ => true
  | .errwait _ _ => true
  | .reply _ => true
  | .fins _ _ _ => true
  | .gnew _ c _ _ => decide (c.toNat ≤ 2)
  | .gjoin _ _ _ => true
  | .gleave _ _ => true
  | .garr _ _ => true
  | .garrMask _ _ => true
  | .gbar _ _ => true
  | .gwait _ _ _ => true
  | .gvoteAll _ _ _ => true
  | .gvoteAny _ _ _ => true
  | .gvoteCount _ _ _ => true
  | .gvoteAllMask _ _ _ => true
  | .gvoteAnyMask _ _ _ => true
  | .gvoteCountMask _ _ _ => true
  | .gredSum _ y d s => decide (y.toNat ≤ 2) && !(d == s && d != 0#5)
  | .gredMin _ y d s => decide (y.toNat ≤ 2) && !(d == s && d != 0#5)
  | .gredMax _ y d s => decide (y.toNat ≤ 2) && !(d == s && d != 0#5)
  | .ginfo _ _ => true
  | .swset _ _ _ => true
  | .swwait _ _ _ => true
  | .swadd _ _ => true
  | .swread _ _ => true
  | .temit _ => true
  | .tmark _ => true
  | .rqpush _ _ _ => true
  | .rqpop _ => true
  | .slotgo _ _ => true
  | .slotstop _ _ => true
  | .migrate _ _ => true
  | .fwdset _ _ _ => true
  | .timerset _ _ => true
  | .parkwait _ _ => true
  | .hint i j => !(i == 0#16 && j == 0#10)
  | .nop => true
  | .cMv _ _ => true
  | .cAdd _ _ => true
  | .cAddi _ _ => true
  | .cLd _ _ => true
  | .cSt _ _ => true
  | .cBeqz _ _ => true
  | .cBnez _ _ => true
  | .cJ _ => true
  | .cSend _ _ => true
  | .cRecv _ _ => true
  | .cLdhi _ _ => true
  | .cNop => true
  | .vtWrite tile _ _ => decide (tile < 8192)
  | .vlWrite tile _ _ => decide (tile < 8192)
  | .xclassWrite tile _ _ => decide (tile < 8192)
  | .xmWrite tile _ _ => decide (tile < 8192)
  | .fmaskWrite tile _ _ => decide (tile < 8192)
  | .statusWrite tile _ _ => decide (tile < 8192)
  | .mslotWrite tile _ _ => decide (tile < 8192)
  | .bfmtWrite tile _ _ => decide (tile < 8192)
  | .perfselWrite tile _ _ => decide (tile < 8192)
  | .probeDelayWrite tile _ => decide (tile < 8192)
  | .decodeDeadlineWrite tile _ => decide (tile < 8192)
  | .crateWrite tile _ _ => decide (tile < 8192)
  | .injectDropFragment tile _ => decide (tile < 8192)
  | .injectHoldFragment tile _ _ => decide (tile < 8192)
  | .injectCheckerMismatch tile => decide (tile < 8192)
  | .injectDoubleMismatch tile => decide (tile < 8192)
  | .injectPoisonGranule tile => decide (tile < 8192)
  | .injectHoldRelease tile _ => decide (tile < 8192)
  | .controlRegisterWrite tile _ _ _ => decide (tile < 8192)
  | .slotImageWrite tile _ _ _ => decide (tile < 8192)
  | .watchdogPass tile _ => decide (tile < 8192)
  | .timerExpiry tile _ => decide (tile < 8192)
  | .parkDeadlineExpiry tile _ => decide (tile < 8192)
  | .watchdogEvent tile => decide (tile < 8192)
  | .migrateEvent tile => decide (tile < 8192)
  | .timerEvent tile => decide (tile < 8192)
  | .wakeEvent tile => decide (tile < 8192)
  | .unitEnd => true
  | .launch => true
  | .abort => true
  | .captureStart => true
  | .captureStop => true
  | .manageCreate => true
  | .manageDestroy => true
  | .manageSetfield => true
  | .manageMap => true
  | .manageUnmap => true
  | .manageRebind => true
  | .manageRead => true
  | .manageBbclear => true
  | .manageHalt => true
  | .manageResume => true
  | .assistAnswerTranslation => true
  | .assistAnswerGrowth => true
  | .assistAnswerReel => true
  | .assistAnswerLink => true
  | .assistAnswerDecode => true
  | .assistAnswerMigration => true
  | .attest => true
  | .returnChannelRoom => true
  | .fragmentArrival _ => true
  | .heldFragmentNack ep _ => ep.exists
  | .decodeDeadlineExpiry ep _ => ep.exists
  | .filterEntryExpiry ep _ => ep.exists
  | .shadowTimerExpiry ep _ => ep.exists
  | .done ep _ => ep.exists
  | .release ep _ => ep.exists
  | .nack ep _ => ep.exists
  | .tokens ep _ => ep.exists
  | .credit ep _ => ep.exists
  | .ended ep _ => ep.exists
  | .copy ep _ => ep.exists
  | .placed ep _ => ep.exists
  | .errandFrameExecution ep => ep.exists
  | .replyMessage ep _ => ep.exists
  | .homeAccess ep _ => ep.exists
  | .rupdApply ep _ => ep.exists
  | .farReply ep _ => ep.exists
  | .serverRead ep _ => ep.exists
  | .serverWrite ep _ => ep.exists
  | .serverZero ep _ => ep.exists
  | .xlate ep _ => ep.exists
  | .probeLaunch tile _ => decide (tile < 8192)
  | .probe ep _ => ep.exists
  | .grow ep _ => ep.exists
  | .spillClaimReply ep _ => ep.exists
  | .reelCreate ep _ => ep.exists
  | .reelJoin ep _ => ep.exists
  | .reelLeave ep _ => ep.exists
  | .reelArrive ep _ => ep.exists
  | .reelWait ep _ => ep.exists
  | .reelInfo ep _ => ep.exists
  | .reelStatus ep _ => ep.exists
  | .reelResult ep _ => ep.exists
  | .reelDepart ep _ => ep.exists
  | .reelMoved ep _ => ep.exists
  | .reelGang ep _ => ep.exists
  | .reelExpand ep _ => ep.exists
  | .forwardingExpiry tile => decide (tile < 8192)
  | .pageMigration _ _ _ _ => true
  | .migrationCopy _ => true
  | .migrationComplete _ => true
  | .decodeTableUpdate tile => decide (tile < 8192)
  | .linkStepDown link _ _ => decide (link < 324)
  | .linkStepUp link => decide (link < 324)
  | .traceDrain tile => decide (tile < 8192)
  | .gapRecord tile => decide (tile < 8192)
  | .throttleStepUp cluster _ => decide (cluster < 32)
  | .throttleStepDown cluster _ => decide (cluster < 32)
  | .overcurrentThrottle => true
  | .thermalTrip cluster _ => decide (cluster < 32)
  | .powerOnReset => true
  | .warmReset => true
  | .coreRailReset => true
  | .boot => true
  | .scbaseWrite _ => true
  | .rcbaseWrite _ => true
  | .bboxRead => true
  | .illegal _ => true
  | .voltaOrder tile target => decide (tile < 8192) && decide (target < 8192)
  | .routerFragment _ router => router.exists
  | .linkFlitRetry _ link => decide (link < 324)
  | .retrainComplete link => decide (link < 324)
  | .spillRead ep _ => ep.exists
  | .tsWrap tile => decide (tile < 8192)

end Sys2Proof
end

