-- ==== Sys2Proof/Decode.lean ====
section
/-!
DEFINITION. The decoder of edition 1 (03_encoding.md R109-R123), total on any halfwords and rejecting by name, and
after it the encoder, written from the same tables.

A word is numbered as spec/opcode_table.json numbers it: bit 0 is bit 0 of the first halfword. The hint encoding with
all other bits zero is the 32-bit no-op (R124), so NOP is read before HINT.
-/
namespace Sys2Proof

noncomputable section

/-- Why an encoding is not an instruction; every one of these raises ILLEGAL (03_encoding.md R123). -/
inductive DecodeError where
  /-- Compact op4 0x0, 0xD, 0xE or 0xF (R117). -/
  | compactReserved
  /-- Major 0x1C, 0x1D or 0x1E (R120). -/
  | reservedMajor
  /-- An unlisted funct11, funct3, cond, funct5, form or sub-field value, or a field that must be zero and is not
  (R115, R121, R122). -/
  | unassigned
  /-- A field holding a value its instruction's entry does not allow (R123). -/
  | badOperand
  /-- Not enough halfwords for the length bit (R109). -/
  | truncated
  deriving DecidableEq, Repr

/-- Bits [hi:lo] of `w`. -/
def fld (w hi lo : Nat) : Nat := w / 2 ^ lo % 2 ^ (hi + 1 - lo)

/-- A decoded instruction is kept only when it is well formed (R115, R123). -/
def checked (i : Instr) : Except DecodeError Instr :=
  if i.wf then .ok i else .error .badOperand

/-- Major 0x00, INT-R (R120, R121). -/
def decMajor00 (w : Nat) : Except DecodeError Instr :=
  if fld w 26 16 = 0 then checked (.add (BitVec.ofNat 5 (fld w 31 27)) (BitVec.ofNat 5 (fld w 9 5)) (BitVec.ofNat 5 (fld w 4 0)))
  else if fld w 26 16 = 1 then checked (.sub (BitVec.ofNat 5 (fld w 31 27)) (BitVec.ofNat 5 (fld w 9 5)) (BitVec.ofNat 5 (fld w 4 0)))
  else if fld w 26 16 = 2 then checked (.and (BitVec.ofNat 5 (fld w 31 27)) (BitVec.ofNat 5 (fld w 9 5)) (BitVec.ofNat 5 (fld w 4 0)))
  else if fld w 26 16 = 3 then checked (.or (BitVec.ofNat 5 (fld w 31 27)) (BitVec.ofNat 5 (fld w 9 5)) (BitVec.ofNat 5 (fld w 4 0)))
  else if fld w 26 16 = 4 then checked (.xor (BitVec.ofNat 5 (fld w 31 27)) (BitVec.ofNat 5 (fld w 9 5)) (BitVec.ofNat 5 (fld w 4 0)))
  else if fld w 26 16 = 5 then checked (.andn (BitVec.ofNat 5 (fld w 31 27)) (BitVec.ofNat 5 (fld w 9 5)) (BitVec.ofNat 5 (fld w 4 0)))
  else if fld w 26 16 = 6 then checked (.sll (BitVec.ofNat 5 (fld w 31 27)) (BitVec.ofNat 5 (fld w 9 5)) (BitVec.ofNat 5 (fld w 4 0)))
  else if fld w 26 16 = 7 then checked (.srl (BitVec.ofNat 5 (fld w 31 27)) (BitVec.ofNat 5 (fld w 9 5)) (BitVec.ofNat 5 (fld w 4 0)))
  else if fld w 26 16 = 8 then checked (.sra (BitVec.ofNat 5 (fld w 31 27)) (BitVec.ofNat 5 (fld w 9 5)) (BitVec.ofNat 5 (fld w 4 0)))
  else if fld w 26 16 = 9 then checked (.slt (BitVec.ofNat 5 (fld w 31 27)) (BitVec.ofNat 5 (fld w 9 5)) (BitVec.ofNat 5 (fld w 4 0)))
  else if fld w 26 16 = 10 then checked (.sltu (BitVec.ofNat 5 (fld w 31 27)) (BitVec.ofNat 5 (fld w 9 5)) (BitVec.ofNat 5 (fld w 4 0)))
  else if fld w 26 16 = 11 then checked (.min (BitVec.ofNat 5 (fld w 31 27)) (BitVec.ofNat 5 (fld w 9 5)) (BitVec.ofNat 5 (fld w 4 0)))
  else if fld w 26 16 = 12 then checked (.max (BitVec.ofNat 5 (fld w 31 27)) (BitVec.ofNat 5 (fld w 9 5)) (BitVec.ofNat 5 (fld w 4 0)))
  else if fld w 26 16 = 13 then checked (.minu (BitVec.ofNat 5 (fld w 31 27)) (BitVec.ofNat 5 (fld w 9 5)) (BitVec.ofNat 5 (fld w 4 0)))
  else if fld w 26 16 = 14 then checked (.maxu (BitVec.ofNat 5 (fld w 31 27)) (BitVec.ofNat 5 (fld w 9 5)) (BitVec.ofNat 5 (fld w 4 0)))
  else if fld w 31 16 = 15 then checked (.clz (BitVec.ofNat 5 (fld w 9 5)) (BitVec.ofNat 5 (fld w 4 0)))
  else if fld w 31 16 = 16 then checked (.ctz (BitVec.ofNat 5 (fld w 9 5)) (BitVec.ofNat 5 (fld w 4 0)))
  else if fld w 31 16 = 17 then checked (.popc (BitVec.ofNat 5 (fld w 9 5)) (BitVec.ofNat 5 (fld w 4 0)))
  else if fld w 31 16 = 18 then checked (.rev8 (BitVec.ofNat 5 (fld w 9 5)) (BitVec.ofNat 5 (fld w 4 0)))
  else if fld w 26 16 = 19 then checked (.rol (BitVec.ofNat 5 (fld w 31 27)) (BitVec.ofNat 5 (fld w 9 5)) (BitVec.ofNat 5 (fld w 4 0)))
  else if fld w 26 16 = 20 then checked (.rotr (BitVec.ofNat 5 (fld w 31 27)) (BitVec.ofNat 5 (fld w 9 5)) (BitVec.ofNat 5 (fld w 4 0)))
  else if fld w 31 16 = 21 then checked (.sextB (BitVec.ofNat 5 (fld w 9 5)) (BitVec.ofNat 5 (fld w 4 0)))
  else if fld w 31 16 = 22 then checked (.sextH (BitVec.ofNat 5 (fld w 9 5)) (BitVec.ofNat 5 (fld w 4 0)))
  else if fld w 31 16 = 23 then checked (.sextW (BitVec.ofNat 5 (fld w 9 5)) (BitVec.ofNat 5 (fld w 4 0)))
  else .error .unassigned

/-- Major 0x01, INT-I (R120, R121). -/
def decMajor01 (w : Nat) : Except DecodeError Instr :=
  if fld w 31 29 = 0 then checked (.addi (BitVec.ofNat 13 (fld w 28 16)) (BitVec.ofNat 5 (fld w 9 5)) (BitVec.ofNat 5 (fld w 4 0)))
  else if fld w 31 29 = 1 then checked (.andi (BitVec.ofNat 13 (fld w 28 16)) (BitVec.ofNat 5 (fld w 9 5)) (BitVec.ofNat 5 (fld w 4 0)))
  else if fld w 31 29 = 2 then checked (.ori (BitVec.ofNat 13 (fld w 28 16)) (BitVec.ofNat 5 (fld w 9 5)) (BitVec.ofNat 5 (fld w 4 0)))
  else if fld w 31 29 = 3 then checked (.xori (BitVec.ofNat 13 (fld w 28 16)) (BitVec.ofNat 5 (fld w 9 5)) (BitVec.ofNat 5 (fld w 4 0)))
  else if fld w 31 29 = 4 then checked (.slti (BitVec.ofNat 13 (fld w 28 16)) (BitVec.ofNat 5 (fld w 9 5)) (BitVec.ofNat 5 (fld w 4 0)))
  else if fld w 31 29 = 5 then checked (.sltiu (BitVec.ofNat 13 (fld w 28 16)) (BitVec.ofNat 5 (fld w 9 5)) (BitVec.ofNat 5 (fld w 4 0)))
  else if fld w 31 22 = 768 then checked (.slli (BitVec.ofNat 6 (fld w 21 16)) (BitVec.ofNat 5 (fld w 9 5)) (BitVec.ofNat 5 (fld w 4 0)))
  else if fld w 31 22 = 769 then checked (.srli (BitVec.ofNat 6 (fld w 21 16)) (BitVec.ofNat 5 (fld w 9 5)) (BitVec.ofNat 5 (fld w 4 0)))
  else if fld w 31 22 = 770 then checked (.srai (BitVec.ofNat 6 (fld w 21 16)) (BitVec.ofNat 5 (fld w 9 5)) (BitVec.ofNat 5 (fld w 4 0)))
  else .error .unassigned

/-- Major 0x02, LDHI and ADDPC (R120, R121). -/
def decMajor02 (w : Nat) : Except DecodeError Instr :=
  if fld w 16 16 = 0 then checked (.ldhi (BitVec.ofNat 20 (fld w 4 0 * 32768 + fld w 31 17)) (BitVec.ofNat 5 (fld w 9 5)))
  else if fld w 16 16 = 1 then checked (.addpc (BitVec.ofNat 20 (fld w 4 0 * 32768 + fld w 31 17)) (BitVec.ofNat 5 (fld w 9 5)))
  else .error .unassigned

/-- Major 0x03, MULDIV (R120, R121). -/
def decMajor03 (w : Nat) : Except DecodeError Instr :=
  if fld w 26 16 = 16 then checked (.mul (BitVec.ofNat 5 (fld w 31 27)) (BitVec.ofNat 5 (fld w 9 5)) (BitVec.ofNat 5 (fld w 4 0)))
  else if fld w 26 16 = 23 then checked (.mulh (BitVec.ofNat 5 (fld w 31 27)) (BitVec.ofNat 5 (fld w 9 5)) (BitVec.ofNat 5 (fld w 4 0)))
  else if fld w 26 16 = 20 then checked (.mulhu (BitVec.ofNat 5 (fld w 31 27)) (BitVec.ofNat 5 (fld w 9 5)) (BitVec.ofNat 5 (fld w 4 0)))
  else if fld w 26 16 = 21 then checked (.mulhsu (BitVec.ofNat 5 (fld w 31 27)) (BitVec.ofNat 5 (fld w 9 5)) (BitVec.ofNat 5 (fld w 4 0)))
  else if fld w 26 16 = 32 then checked (.divu (BitVec.ofNat 5 (fld w 31 27)) (BitVec.ofNat 5 (fld w 9 5)) (BitVec.ofNat 5 (fld w 4 0)))
  else if fld w 26 16 = 33 then checked (.div (BitVec.ofNat 5 (fld w 31 27)) (BitVec.ofNat 5 (fld w 9 5)) (BitVec.ofNat 5 (fld w 4 0)))
  else if fld w 26 16 = 34 then checked (.remu (BitVec.ofNat 5 (fld w 31 27)) (BitVec.ofNat 5 (fld w 9 5)) (BitVec.ofNat 5 (fld w 4 0)))
  else if fld w 26 16 = 35 then checked (.rem (BitVec.ofNat 5 (fld w 31 27)) (BitVec.ofNat 5 (fld w 9 5)) (BitVec.ofNat 5 (fld w 4 0)))
  else .error .unassigned

/-- Major 0x04, BRANCH (R120, R121). -/
def decMajor04 (w : Nat) : Except DecodeError Instr :=
  if fld w 31 29 = 0 then checked (.beq (BitVec.ofNat 13 (fld w 28 16)) (BitVec.ofNat 5 (fld w 9 5)) (BitVec.ofNat 5 (fld w 4 0)))
  else if fld w 31 29 = 1 then checked (.bne (BitVec.ofNat 13 (fld w 28 16)) (BitVec.ofNat 5 (fld w 9 5)) (BitVec.ofNat 5 (fld w 4 0)))
  else if fld w 31 29 = 4 then checked (.blt (BitVec.ofNat 13 (fld w 28 16)) (BitVec.ofNat 5 (fld w 9 5)) (BitVec.ofNat 5 (fld w 4 0)))
  else if fld w 31 29 = 5 then checked (.bge (BitVec.ofNat 13 (fld w 28 16)) (BitVec.ofNat 5 (fld w 9 5)) (BitVec.ofNat 5 (fld w 4 0)))
  else if fld w 31 29 = 6 then checked (.bltu (BitVec.ofNat 13 (fld w 28 16)) (BitVec.ofNat 5 (fld w 9 5)) (BitVec.ofNat 5 (fld w 4 0)))
  else if fld w 31 29 = 7 then checked (.bgeu (BitVec.ofNat 13 (fld w 28 16)) (BitVec.ofNat 5 (fld w 9 5)) (BitVec.ofNat 5 (fld w 4 0)))
  else .error .unassigned

/-- Major 0x05, JAL (R120, R121). -/
def decMajor05 (w : Nat) : Except DecodeError Instr :=
  if True then checked (.jal (BitVec.ofNat 21 (fld w 4 0 * 65536 + fld w 31 16)) (BitVec.ofNat 5 (fld w 9 5)))
  else .error .unassigned

/-- Major 0x06, JALR (R120, R121). -/
def decMajor06 (w : Nat) : Except DecodeError Instr :=
  if fld w 31 29 = 0 then checked (.jalr (BitVec.ofNat 13 (fld w 28 16)) (BitVec.ofNat 5 (fld w 9 5)) (BitVec.ofNat 5 (fld w 4 0)))
  else .error .unassigned

/-- Major 0x07, LOAD (R120, R121). -/
def decMajor07 (w : Nat) : Except DecodeError Instr :=
  if fld w 31 29 = 0 then checked (.ldB (BitVec.ofNat 13 (fld w 28 16)) (BitVec.ofNat 5 (fld w 9 5)) (BitVec.ofNat 5 (fld w 4 0)))
  else if fld w 31 29 = 1 then checked (.ldH (BitVec.ofNat 13 (fld w 28 16)) (BitVec.ofNat 5 (fld w 9 5)) (BitVec.ofNat 5 (fld w 4 0)))
  else if fld w 31 29 = 2 then checked (.ldW (BitVec.ofNat 13 (fld w 28 16)) (BitVec.ofNat 5 (fld w 9 5)) (BitVec.ofNat 5 (fld w 4 0)))
  else if fld w 31 29 = 3 then checked (.ldD (BitVec.ofNat 13 (fld w 28 16)) (BitVec.ofNat 5 (fld w 9 5)) (BitVec.ofNat 5 (fld w 4 0)))
  else if fld w 31 29 = 4 then checked (.ldBu (BitVec.ofNat 13 (fld w 28 16)) (BitVec.ofNat 5 (fld w 9 5)) (BitVec.ofNat 5 (fld w 4 0)))
  else if fld w 31 29 = 5 then checked (.ldHu (BitVec.ofNat 13 (fld w 28 16)) (BitVec.ofNat 5 (fld w 9 5)) (BitVec.ofNat 5 (fld w 4 0)))
  else if fld w 31 29 = 6 then checked (.ldWu (BitVec.ofNat 13 (fld w 28 16)) (BitVec.ofNat 5 (fld w 9 5)) (BitVec.ofNat 5 (fld w 4 0)))
  else if fld w 31 29 = 7 then checked (.ldAcq (BitVec.ofNat 13 (fld w 28 16)) (BitVec.ofNat 5 (fld w 9 5)) (BitVec.ofNat 5 (fld w 4 0)))
  else .error .unassigned

/-- Major 0x08, STORE (R120, R121). -/
def decMajor08 (w : Nat) : Except DecodeError Instr :=
  if fld w 31 29 = 0 then checked (.stB (BitVec.ofNat 13 (fld w 28 16)) (BitVec.ofNat 5 (fld w 9 5)) (BitVec.ofNat 5 (fld w 4 0)))
  else if fld w 31 29 = 1 then checked (.stH (BitVec.ofNat 13 (fld w 28 16)) (BitVec.ofNat 5 (fld w 9 5)) (BitVec.ofNat 5 (fld w 4 0)))
  else if fld w 31 29 = 2 then checked (.stW (BitVec.ofNat 13 (fld w 28 16)) (BitVec.ofNat 5 (fld w 9 5)) (BitVec.ofNat 5 (fld w 4 0)))
  else if fld w 31 29 = 3 then checked (.stD (BitVec.ofNat 13 (fld w 28 16)) (BitVec.ofNat 5 (fld w 9 5)) (BitVec.ofNat 5 (fld w 4 0)))
  else if fld w 31 29 = 7 then checked (.stRel (BitVec.ofNat 13 (fld w 28 16)) (BitVec.ofNat 5 (fld w 9 5)) (BitVec.ofNat 5 (fld w 4 0)))
  else .error .unassigned

/-- Major 0x09, FAR (R120, R121). -/
def decMajor09 (w : Nat) : Except DecodeError Instr :=
  if fld w 31 20 = 0 ∧ fld w 16 16 = 0 then checked (.ldf (BitVec.ofNat 2 (fld w 19 18)) (BitVec.ofNat 1 (fld w 17 17)) (BitVec.ofNat 5 (fld w 9 5)) (BitVec.ofNat 5 (fld w 4 0)))
  else if fld w 26 20 = 16 ∧ fld w 17 16 = 0 ∧ fld w 9 5 = 0 then checked (.stf (BitVec.ofNat 5 (fld w 31 27)) (BitVec.ofNat 2 (fld w 19 18)) (BitVec.ofNat 5 (fld w 4 0)))
  else if fld w 26 19 = 65 ∧ fld w 17 16 = 0 then checked (.amoAdd (BitVec.ofNat 5 (fld w 31 27)) (BitVec.ofNat 1 (fld w 18 18)) (BitVec.ofNat 5 (fld w 9 5)) (BitVec.ofNat 5 (fld w 4 0)))
  else if fld w 26 19 = 67 ∧ fld w 17 16 = 0 then checked (.amoSwap (BitVec.ofNat 5 (fld w 31 27)) (BitVec.ofNat 1 (fld w 18 18)) (BitVec.ofNat 5 (fld w 9 5)) (BitVec.ofNat 5 (fld w 4 0)))
  else if fld w 26 19 = 69 ∧ fld w 17 16 = 0 then checked (.amoCas (BitVec.ofNat 5 (fld w 31 27)) (BitVec.ofNat 1 (fld w 18 18)) (BitVec.ofNat 5 (fld w 9 5)) (BitVec.ofNat 5 (fld w 4 0)))
  else if fld w 26 19 = 71 ∧ fld w 17 16 = 0 then checked (.amoMin (BitVec.ofNat 5 (fld w 31 27)) (BitVec.ofNat 1 (fld w 18 18)) (BitVec.ofNat 5 (fld w 9 5)) (BitVec.ofNat 5 (fld w 4 0)))
  else if fld w 26 19 = 73 ∧ fld w 17 16 = 0 then checked (.amoMax (BitVec.ofNat 5 (fld w 31 27)) (BitVec.ofNat 1 (fld w 18 18)) (BitVec.ofNat 5 (fld w 9 5)) (BitVec.ofNat 5 (fld w 4 0)))
  else if fld w 26 19 = 75 ∧ fld w 17 16 = 0 then checked (.amoMinu (BitVec.ofNat 5 (fld w 31 27)) (BitVec.ofNat 1 (fld w 18 18)) (BitVec.ofNat 5 (fld w 9 5)) (BitVec.ofNat 5 (fld w 4 0)))
  else if fld w 26 19 = 77 ∧ fld w 17 16 = 0 then checked (.amoMaxu (BitVec.ofNat 5 (fld w 31 27)) (BitVec.ofNat 1 (fld w 18 18)) (BitVec.ofNat 5 (fld w 9 5)) (BitVec.ofNat 5 (fld w 4 0)))
  else if fld w 26 19 = 79 ∧ fld w 17 16 = 0 then checked (.amoAnd (BitVec.ofNat 5 (fld w 31 27)) (BitVec.ofNat 1 (fld w 18 18)) (BitVec.ofNat 5 (fld w 9 5)) (BitVec.ofNat 5 (fld w 4 0)))
  else if fld w 26 19 = 81 ∧ fld w 17 16 = 0 then checked (.amoOr (BitVec.ofNat 5 (fld w 31 27)) (BitVec.ofNat 1 (fld w 18 18)) (BitVec.ofNat 5 (fld w 9 5)) (BitVec.ofNat 5 (fld w 4 0)))
  else if fld w 26 19 = 83 ∧ fld w 17 16 = 0 then checked (.amoXor (BitVec.ofNat 5 (fld w 31 27)) (BitVec.ofNat 1 (fld w 18 18)) (BitVec.ofNat 5 (fld w 9 5)) (BitVec.ofNat 5 (fld w 4 0)))
  else if fld w 26 16 = 680 then checked (.amoFadd (BitVec.ofNat 5 (fld w 31 27)) (BitVec.ofNat 5 (fld w 9 5)) (BitVec.ofNat 5 (fld w 4 0)))
  else if fld w 26 19 = 97 ∧ fld w 17 16 = 0 ∧ fld w 9 5 = 0 then checked (.rupdAdd (BitVec.ofNat 5 (fld w 31 27)) (BitVec.ofNat 1 (fld w 18 18)) (BitVec.ofNat 5 (fld w 4 0)))
  else if fld w 26 19 = 103 ∧ fld w 17 16 = 0 ∧ fld w 9 5 = 0 then checked (.rupdMin (BitVec.ofNat 5 (fld w 31 27)) (BitVec.ofNat 1 (fld w 18 18)) (BitVec.ofNat 5 (fld w 4 0)))
  else if fld w 26 19 = 105 ∧ fld w 17 16 = 0 ∧ fld w 9 5 = 0 then checked (.rupdMax (BitVec.ofNat 5 (fld w 31 27)) (BitVec.ofNat 1 (fld w 18 18)) (BitVec.ofNat 5 (fld w 4 0)))
  else if fld w 26 19 = 107 ∧ fld w 17 16 = 0 ∧ fld w 9 5 = 0 then checked (.rupdMinu (BitVec.ofNat 5 (fld w 31 27)) (BitVec.ofNat 1 (fld w 18 18)) (BitVec.ofNat 5 (fld w 4 0)))
  else if fld w 26 19 = 109 ∧ fld w 17 16 = 0 ∧ fld w 9 5 = 0 then checked (.rupdMaxu (BitVec.ofNat 5 (fld w 31 27)) (BitVec.ofNat 1 (fld w 18 18)) (BitVec.ofNat 5 (fld w 4 0)))
  else if fld w 26 19 = 111 ∧ fld w 17 16 = 0 ∧ fld w 9 5 = 0 then checked (.rupdAnd (BitVec.ofNat 5 (fld w 31 27)) (BitVec.ofNat 1 (fld w 18 18)) (BitVec.ofNat 5 (fld w 4 0)))
  else if fld w 26 19 = 113 ∧ fld w 17 16 = 0 ∧ fld w 9 5 = 0 then checked (.rupdOr (BitVec.ofNat 5 (fld w 31 27)) (BitVec.ofNat 1 (fld w 18 18)) (BitVec.ofNat 5 (fld w 4 0)))
  else if fld w 26 19 = 115 ∧ fld w 17 16 = 0 ∧ fld w 9 5 = 0 then checked (.rupdXor (BitVec.ofNat 5 (fld w 31 27)) (BitVec.ofNat 1 (fld w 18 18)) (BitVec.ofNat 5 (fld w 4 0)))
  else if fld w 26 16 = 936 ∧ fld w 9 5 = 0 then checked (.rupdFadd (BitVec.ofNat 5 (fld w 31 27)) (BitVec.ofNat 5 (fld w 4 0)))
  else .error .unassigned

/-- Major 0x0A, OX (R120, R121). -/
def decMajor0A (w : Nat) : Except DecodeError Instr :=
  if fld w 31 16 = 0 ∧ fld w 9 8 = 0 then checked (.oxl (BitVec.ofNat 3 (fld w 7 5)) (BitVec.ofNat 5 (fld w 4 0)))
  else if fld w 31 16 = 1 ∧ fld w 9 8 = 0 ∧ fld w 4 3 = 0 then checked (.oxm (BitVec.ofNat 3 (fld w 7 5)) (BitVec.ofNat 3 (fld w 2 0)))
  else if fld w 31 16 = 2 ∧ fld w 4 3 = 0 then checked (.oxr (BitVec.ofNat 5 (fld w 9 5)) (BitVec.ofNat 3 (fld w 2 0)))
  else .error .unassigned

/-- Major 0x0B, SYS (R120, R121). -/
def decMajor0B (w : Nat) : Except DecodeError Instr :=
  if fld w 31 28 = 0 ∧ fld w 4 0 = 0 then checked (.ctlr (BitVec.ofNat 12 (fld w 27 16)) (BitVec.ofNat 5 (fld w 9 5)))
  else if fld w 31 28 = 2 ∧ fld w 9 5 = 0 then checked (.ctlw (BitVec.ofNat 12 (fld w 27 16)) (BitVec.ofNat 5 (fld w 4 0)))
  else if fld w 31 28 = 4 then checked (.ctls (BitVec.ofNat 12 (fld w 27 16)) (BitVec.ofNat 5 (fld w 9 5)) (BitVec.ofNat 5 (fld w 4 0)))
  else if fld w 31 28 = 6 then checked (.ctlc (BitVec.ofNat 12 (fld w 27 16)) (BitVec.ofNat 5 (fld w 9 5)) (BitVec.ofNat 5 (fld w 4 0)))
  else if fld w 31 25 = 64 ∧ fld w 17 16 = 0 ∧ fld w 9 0 = 0 then checked (.fence (BitVec.ofNat 3 (fld w 24 22)) (BitVec.ofNat 4 (fld w 21 18)))
  else if fld w 31 25 = 65 ∧ fld w 9 0 = 0 then checked (.trap (BitVec.ofNat 9 (fld w 24 16)))
  else if fld w 31 16 = 33792 ∧ fld w 9 0 = 0 then checked (.rett)
  else if fld w 31 16 = 34304 ∧ fld w 9 0 = 0 then checked (.chkerr)
  else if fld w 31 16 = 34816 ∧ fld w 9 0 = 0 then checked (.bkpt)
  else .error .unassigned

/-- Major 0x0C, VCFG (R120, R121). -/
def decMajor0C (w : Nat) : Except DecodeError Instr :=
  if fld w 31 16 = 0 then checked (.setvl (BitVec.ofNat 5 (fld w 9 5)) (BitVec.ofNat 5 (fld w 4 0)))
  else if fld w 31 29 = 1 ∧ fld w 4 0 = 0 then checked (.setvli (BitVec.ofNat 13 (fld w 28 16)) (BitVec.ofNat 5 (fld w 9 5)))
  else if fld w 31 16 = 16384 then checked (.setvt (BitVec.ofNat 5 (fld w 9 5)) (BitVec.ofNat 5 (fld w 4 0)))
  else .error .unassigned

/-- Major 0x0D, VINT (R120, R121). -/
def decMajor0D (w : Nat) : Except DecodeError Instr :=
  if fld w 20 16 = 0 then checked (.vadd (BitVec.ofNat 5 (fld w 31 27)) (BitVec.ofNat 1 (fld w 26 26)) (BitVec.ofNat 1 (fld w 25 25)) (BitVec.ofNat 3 (fld w 24 22)) (BitVec.ofNat 1 (fld w 21 21)) (BitVec.ofNat 5 (fld w 9 5)) (BitVec.ofNat 5 (fld w 4 0)))
  else if fld w 20 16 = 1 then checked (.vsub (BitVec.ofNat 5 (fld w 31 27)) (BitVec.ofNat 1 (fld w 26 26)) (BitVec.ofNat 1 (fld w 25 25)) (BitVec.ofNat 3 (fld w 24 22)) (BitVec.ofNat 1 (fld w 21 21)) (BitVec.ofNat 5 (fld w 9 5)) (BitVec.ofNat 5 (fld w 4 0)))
  else if fld w 20 16 = 2 then checked (.vmul (BitVec.ofNat 5 (fld w 31 27)) (BitVec.ofNat 1 (fld w 26 26)) (BitVec.ofNat 1 (fld w 25 25)) (BitVec.ofNat 3 (fld w 24 22)) (BitVec.ofNat 1 (fld w 21 21)) (BitVec.ofNat 5 (fld w 9 5)) (BitVec.ofNat 5 (fld w 4 0)))
  else if fld w 20 16 = 3 then checked (.vmulh (BitVec.ofNat 5 (fld w 31 27)) (BitVec.ofNat 1 (fld w 26 26)) (BitVec.ofNat 1 (fld w 25 25)) (BitVec.ofNat 3 (fld w 24 22)) (BitVec.ofNat 1 (fld w 21 21)) (BitVec.ofNat 5 (fld w 9 5)) (BitVec.ofNat 5 (fld w 4 0)))
  else if fld w 20 16 = 4 then checked (.vand (BitVec.ofNat 5 (fld w 31 27)) (BitVec.ofNat 1 (fld w 26 26)) (BitVec.ofNat 1 (fld w 25 25)) (BitVec.ofNat 3 (fld w 24 22)) (BitVec.ofNat 1 (fld w 21 21)) (BitVec.ofNat 5 (fld w 9 5)) (BitVec.ofNat 5 (fld w 4 0)))
  else if fld w 20 16 = 5 then checked (.vor (BitVec.ofNat 5 (fld w 31 27)) (BitVec.ofNat 1 (fld w 26 26)) (BitVec.ofNat 1 (fld w 25 25)) (BitVec.ofNat 3 (fld w 24 22)) (BitVec.ofNat 1 (fld w 21 21)) (BitVec.ofNat 5 (fld w 9 5)) (BitVec.ofNat 5 (fld w 4 0)))
  else if fld w 20 16 = 6 then checked (.vxor (BitVec.ofNat 5 (fld w 31 27)) (BitVec.ofNat 1 (fld w 26 26)) (BitVec.ofNat 1 (fld w 25 25)) (BitVec.ofNat 3 (fld w 24 22)) (BitVec.ofNat 1 (fld w 21 21)) (BitVec.ofNat 5 (fld w 9 5)) (BitVec.ofNat 5 (fld w 4 0)))
  else if fld w 20 16 = 7 then checked (.vsll (BitVec.ofNat 5 (fld w 31 27)) (BitVec.ofNat 1 (fld w 26 26)) (BitVec.ofNat 1 (fld w 25 25)) (BitVec.ofNat 3 (fld w 24 22)) (BitVec.ofNat 1 (fld w 21 21)) (BitVec.ofNat 5 (fld w 9 5)) (BitVec.ofNat 5 (fld w 4 0)))
  else if fld w 20 16 = 8 then checked (.vsrl (BitVec.ofNat 5 (fld w 31 27)) (BitVec.ofNat 1 (fld w 26 26)) (BitVec.ofNat 1 (fld w 25 25)) (BitVec.ofNat 3 (fld w 24 22)) (BitVec.ofNat 1 (fld w 21 21)) (BitVec.ofNat 5 (fld w 9 5)) (BitVec.ofNat 5 (fld w 4 0)))
  else if fld w 20 16 = 9 then checked (.vsra (BitVec.ofNat 5 (fld w 31 27)) (BitVec.ofNat 1 (fld w 26 26)) (BitVec.ofNat 1 (fld w 25 25)) (BitVec.ofNat 3 (fld w 24 22)) (BitVec.ofNat 1 (fld w 21 21)) (BitVec.ofNat 5 (fld w 9 5)) (BitVec.ofNat 5 (fld w 4 0)))
  else if fld w 20 16 = 10 then checked (.vmin (BitVec.ofNat 5 (fld w 31 27)) (BitVec.ofNat 1 (fld w 26 26)) (BitVec.ofNat 1 (fld w 25 25)) (BitVec.ofNat 3 (fld w 24 22)) (BitVec.ofNat 1 (fld w 21 21)) (BitVec.ofNat 5 (fld w 9 5)) (BitVec.ofNat 5 (fld w 4 0)))
  else if fld w 20 16 = 11 then checked (.vmax (BitVec.ofNat 5 (fld w 31 27)) (BitVec.ofNat 1 (fld w 26 26)) (BitVec.ofNat 1 (fld w 25 25)) (BitVec.ofNat 3 (fld w 24 22)) (BitVec.ofNat 1 (fld w 21 21)) (BitVec.ofNat 5 (fld w 9 5)) (BitVec.ofNat 5 (fld w 4 0)))
  else if fld w 20 16 = 12 then checked (.vminu (BitVec.ofNat 5 (fld w 31 27)) (BitVec.ofNat 1 (fld w 26 26)) (BitVec.ofNat 1 (fld w 25 25)) (BitVec.ofNat 3 (fld w 24 22)) (BitVec.ofNat 1 (fld w 21 21)) (BitVec.ofNat 5 (fld w 9 5)) (BitVec.ofNat 5 (fld w 4 0)))
  else if fld w 20 16 = 13 then checked (.vmaxu (BitVec.ofNat 5 (fld w 31 27)) (BitVec.ofNat 1 (fld w 26 26)) (BitVec.ofNat 1 (fld w 25 25)) (BitVec.ofNat 3 (fld w 24 22)) (BitVec.ofNat 1 (fld w 21 21)) (BitVec.ofNat 5 (fld w 9 5)) (BitVec.ofNat 5 (fld w 4 0)))
  else if fld w 20 16 = 14 then checked (.vabsd (BitVec.ofNat 5 (fld w 31 27)) (BitVec.ofNat 1 (fld w 26 26)) (BitVec.ofNat 1 (fld w 25 25)) (BitVec.ofNat 3 (fld w 24 22)) (BitVec.ofNat 1 (fld w 21 21)) (BitVec.ofNat 5 (fld w 9 5)) (BitVec.ofNat 5 (fld w 4 0)))
  else if fld w 20 16 = 15 then checked (.vsadd (BitVec.ofNat 5 (fld w 31 27)) (BitVec.ofNat 1 (fld w 26 26)) (BitVec.ofNat 1 (fld w 25 25)) (BitVec.ofNat 3 (fld w 24 22)) (BitVec.ofNat 1 (fld w 21 21)) (BitVec.ofNat 5 (fld w 9 5)) (BitVec.ofNat 5 (fld w 4 0)))
  else if fld w 20 16 = 16 then checked (.vssub (BitVec.ofNat 5 (fld w 31 27)) (BitVec.ofNat 1 (fld w 26 26)) (BitVec.ofNat 1 (fld w 25 25)) (BitVec.ofNat 3 (fld w 24 22)) (BitVec.ofNat 1 (fld w 21 21)) (BitVec.ofNat 5 (fld w 9 5)) (BitVec.ofNat 5 (fld w 4 0)))
  else .error .unassigned

/-- Major 0x0E, VFP (R120, R121). -/
def decMajor0E (w : Nat) : Except DecodeError Instr :=
  if fld w 20 16 = 0 then checked (.vfadd (BitVec.ofNat 5 (fld w 31 27)) (BitVec.ofNat 1 (fld w 26 26)) (BitVec.ofNat 1 (fld w 25 25)) (BitVec.ofNat 3 (fld w 24 22)) (BitVec.ofNat 1 (fld w 21 21)) (BitVec.ofNat 5 (fld w 9 5)) (BitVec.ofNat 5 (fld w 4 0)))
  else if fld w 20 16 = 1 then checked (.vfsub (BitVec.ofNat 5 (fld w 31 27)) (BitVec.ofNat 1 (fld w 26 26)) (BitVec.ofNat 1 (fld w 25 25)) (BitVec.ofNat 3 (fld w 24 22)) (BitVec.ofNat 1 (fld w 21 21)) (BitVec.ofNat 5 (fld w 9 5)) (BitVec.ofNat 5 (fld w 4 0)))
  else if fld w 20 16 = 2 then checked (.vfmul (BitVec.ofNat 5 (fld w 31 27)) (BitVec.ofNat 1 (fld w 26 26)) (BitVec.ofNat 1 (fld w 25 25)) (BitVec.ofNat 3 (fld w 24 22)) (BitVec.ofNat 1 (fld w 21 21)) (BitVec.ofNat 5 (fld w 9 5)) (BitVec.ofNat 5 (fld w 4 0)))
  else if fld w 20 16 = 3 then checked (.vfma (BitVec.ofNat 5 (fld w 31 27)) (BitVec.ofNat 1 (fld w 26 26)) (BitVec.ofNat 1 (fld w 25 25)) (BitVec.ofNat 3 (fld w 24 22)) (BitVec.ofNat 1 (fld w 21 21)) (BitVec.ofNat 5 (fld w 9 5)) (BitVec.ofNat 5 (fld w 4 0)))
  else if fld w 20 16 = 4 then checked (.vfms (BitVec.ofNat 5 (fld w 31 27)) (BitVec.ofNat 1 (fld w 26 26)) (BitVec.ofNat 1 (fld w 25 25)) (BitVec.ofNat 3 (fld w 24 22)) (BitVec.ofNat 1 (fld w 21 21)) (BitVec.ofNat 5 (fld w 9 5)) (BitVec.ofNat 5 (fld w 4 0)))
  else if fld w 20 16 = 5 then checked (.vfnma (BitVec.ofNat 5 (fld w 31 27)) (BitVec.ofNat 1 (fld w 26 26)) (BitVec.ofNat 1 (fld w 25 25)) (BitVec.ofNat 3 (fld w 24 22)) (BitVec.ofNat 1 (fld w 21 21)) (BitVec.ofNat 5 (fld w 9 5)) (BitVec.ofNat 5 (fld w 4 0)))
  else if fld w 20 16 = 6 then checked (.vfdiv (BitVec.ofNat 5 (fld w 31 27)) (BitVec.ofNat 1 (fld w 26 26)) (BitVec.ofNat 1 (fld w 25 25)) (BitVec.ofNat 3 (fld w 24 22)) (BitVec.ofNat 1 (fld w 21 21)) (BitVec.ofNat 5 (fld w 9 5)) (BitVec.ofNat 5 (fld w 4 0)))
  else if fld w 31 27 = 0 ∧ fld w 25 25 = 0 ∧ fld w 20 16 = 7 then checked (.vfsqrt (BitVec.ofNat 1 (fld w 26 26)) (BitVec.ofNat 3 (fld w 24 22)) (BitVec.ofNat 1 (fld w 21 21)) (BitVec.ofNat 5 (fld w 9 5)) (BitVec.ofNat 5 (fld w 4 0)))
  else if fld w 20 16 = 8 then checked (.vfmin (BitVec.ofNat 5 (fld w 31 27)) (BitVec.ofNat 1 (fld w 26 26)) (BitVec.ofNat 1 (fld w 25 25)) (BitVec.ofNat 3 (fld w 24 22)) (BitVec.ofNat 1 (fld w 21 21)) (BitVec.ofNat 5 (fld w 9 5)) (BitVec.ofNat 5 (fld w 4 0)))
  else if fld w 20 16 = 9 then checked (.vfmax (BitVec.ofNat 5 (fld w 31 27)) (BitVec.ofNat 1 (fld w 26 26)) (BitVec.ofNat 1 (fld w 25 25)) (BitVec.ofNat 3 (fld w 24 22)) (BitVec.ofNat 1 (fld w 21 21)) (BitVec.ofNat 5 (fld w 9 5)) (BitVec.ofNat 5 (fld w 4 0)))
  else if fld w 31 27 = 0 ∧ fld w 25 25 = 0 ∧ fld w 20 16 = 10 then checked (.vfabs (BitVec.ofNat 1 (fld w 26 26)) (BitVec.ofNat 3 (fld w 24 22)) (BitVec.ofNat 1 (fld w 21 21)) (BitVec.ofNat 5 (fld w 9 5)) (BitVec.ofNat 5 (fld w 4 0)))
  else if fld w 31 27 = 0 ∧ fld w 25 25 = 0 ∧ fld w 20 16 = 11 then checked (.vfneg (BitVec.ofNat 1 (fld w 26 26)) (BitVec.ofNat 3 (fld w 24 22)) (BitVec.ofNat 1 (fld w 21 21)) (BitVec.ofNat 5 (fld w 9 5)) (BitVec.ofNat 5 (fld w 4 0)))
  else if fld w 20 18 = 4 then checked (.vfaddStatic (BitVec.ofNat 5 (fld w 31 27)) (BitVec.ofNat 1 (fld w 26 26)) (BitVec.ofNat 1 (fld w 25 25)) (BitVec.ofNat 3 (fld w 24 22)) (BitVec.ofNat 1 (fld w 21 21)) (BitVec.ofNat 2 (fld w 17 16)) (BitVec.ofNat 5 (fld w 9 5)) (BitVec.ofNat 5 (fld w 4 0)))
  else if fld w 20 18 = 5 then checked (.vfsubStatic (BitVec.ofNat 5 (fld w 31 27)) (BitVec.ofNat 1 (fld w 26 26)) (BitVec.ofNat 1 (fld w 25 25)) (BitVec.ofNat 3 (fld w 24 22)) (BitVec.ofNat 1 (fld w 21 21)) (BitVec.ofNat 2 (fld w 17 16)) (BitVec.ofNat 5 (fld w 9 5)) (BitVec.ofNat 5 (fld w 4 0)))
  else if fld w 20 18 = 6 then checked (.vfmulStatic (BitVec.ofNat 5 (fld w 31 27)) (BitVec.ofNat 1 (fld w 26 26)) (BitVec.ofNat 1 (fld w 25 25)) (BitVec.ofNat 3 (fld w 24 22)) (BitVec.ofNat 1 (fld w 21 21)) (BitVec.ofNat 2 (fld w 17 16)) (BitVec.ofNat 5 (fld w 9 5)) (BitVec.ofNat 5 (fld w 4 0)))
  else if fld w 20 18 = 7 then checked (.vfmaStatic (BitVec.ofNat 5 (fld w 31 27)) (BitVec.ofNat 1 (fld w 26 26)) (BitVec.ofNat 1 (fld w 25 25)) (BitVec.ofNat 3 (fld w 24 22)) (BitVec.ofNat 1 (fld w 21 21)) (BitVec.ofNat 2 (fld w 17 16)) (BitVec.ofNat 5 (fld w 9 5)) (BitVec.ofNat 5 (fld w 4 0)))
  else .error .unassigned

/-- Major 0x0F, VCMP and masks (R120, R121). -/
def decMajor0F (w : Nat) : Except DecodeError Instr :=
  if fld w 20 16 = 0 ∧ fld w 9 8 = 0 then checked (.vcmpEq (BitVec.ofNat 5 (fld w 31 27)) (BitVec.ofNat 1 (fld w 26 26)) (BitVec.ofNat 1 (fld w 25 25)) (BitVec.ofNat 3 (fld w 24 22)) (BitVec.ofNat 1 (fld w 21 21)) (BitVec.ofNat 3 (fld w 7 5)) (BitVec.ofNat 5 (fld w 4 0)))
  else if fld w 20 16 = 1 ∧ fld w 9 8 = 0 then checked (.vcmpNe (BitVec.ofNat 5 (fld w 31 27)) (BitVec.ofNat 1 (fld w 26 26)) (BitVec.ofNat 1 (fld w 25 25)) (BitVec.ofNat 3 (fld w 24 22)) (BitVec.ofNat 1 (fld w 21 21)) (BitVec.ofNat 3 (fld w 7 5)) (BitVec.ofNat 5 (fld w 4 0)))
  else if fld w 20 16 = 2 ∧ fld w 9 8 = 0 then checked (.vcmpLt (BitVec.ofNat 5 (fld w 31 27)) (BitVec.ofNat 1 (fld w 26 26)) (BitVec.ofNat 1 (fld w 25 25)) (BitVec.ofNat 3 (fld w 24 22)) (BitVec.ofNat 1 (fld w 21 21)) (BitVec.ofNat 3 (fld w 7 5)) (BitVec.ofNat 5 (fld w 4 0)))
  else if fld w 20 16 = 3 ∧ fld w 9 8 = 0 then checked (.vcmpLe (BitVec.ofNat 5 (fld w 31 27)) (BitVec.ofNat 1 (fld w 26 26)) (BitVec.ofNat 1 (fld w 25 25)) (BitVec.ofNat 3 (fld w 24 22)) (BitVec.ofNat 1 (fld w 21 21)) (BitVec.ofNat 3 (fld w 7 5)) (BitVec.ofNat 5 (fld w 4 0)))
  else if fld w 20 16 = 4 ∧ fld w 9 8 = 0 then checked (.vcmpGt (BitVec.ofNat 5 (fld w 31 27)) (BitVec.ofNat 1 (fld w 26 26)) (BitVec.ofNat 1 (fld w 25 25)) (BitVec.ofNat 3 (fld w 24 22)) (BitVec.ofNat 1 (fld w 21 21)) (BitVec.ofNat 3 (fld w 7 5)) (BitVec.ofNat 5 (fld w 4 0)))
  else if fld w 20 16 = 5 ∧ fld w 9 8 = 0 then checked (.vcmpGe (BitVec.ofNat 5 (fld w 31 27)) (BitVec.ofNat 1 (fld w 26 26)) (BitVec.ofNat 1 (fld w 25 25)) (BitVec.ofNat 3 (fld w 24 22)) (BitVec.ofNat 1 (fld w 21 21)) (BitVec.ofNat 3 (fld w 7 5)) (BitVec.ofNat 5 (fld w 4 0)))
  else if fld w 20 16 = 6 ∧ fld w 9 8 = 0 then checked (.vcmpLtu (BitVec.ofNat 5 (fld w 31 27)) (BitVec.ofNat 1 (fld w 26 26)) (BitVec.ofNat 1 (fld w 25 25)) (BitVec.ofNat 3 (fld w 24 22)) (BitVec.ofNat 1 (fld w 21 21)) (BitVec.ofNat 3 (fld w 7 5)) (BitVec.ofNat 5 (fld w 4 0)))
  else if fld w 20 16 = 7 ∧ fld w 9 8 = 0 then checked (.vcmpLeu (BitVec.ofNat 5 (fld w 31 27)) (BitVec.ofNat 1 (fld w 26 26)) (BitVec.ofNat 1 (fld w 25 25)) (BitVec.ofNat 3 (fld w 24 22)) (BitVec.ofNat 1 (fld w 21 21)) (BitVec.ofNat 3 (fld w 7 5)) (BitVec.ofNat 5 (fld w 4 0)))
  else if fld w 20 16 = 8 ∧ fld w 9 8 = 0 then checked (.vcmpGtu (BitVec.ofNat 5 (fld w 31 27)) (BitVec.ofNat 1 (fld w 26 26)) (BitVec.ofNat 1 (fld w 25 25)) (BitVec.ofNat 3 (fld w 24 22)) (BitVec.ofNat 1 (fld w 21 21)) (BitVec.ofNat 3 (fld w 7 5)) (BitVec.ofNat 5 (fld w 4 0)))
  else if fld w 20 16 = 9 ∧ fld w 9 8 = 0 then checked (.vcmpGeu (BitVec.ofNat 5 (fld w 31 27)) (BitVec.ofNat 1 (fld w 26 26)) (BitVec.ofNat 1 (fld w 25 25)) (BitVec.ofNat 3 (fld w 24 22)) (BitVec.ofNat 1 (fld w 21 21)) (BitVec.ofNat 3 (fld w 7 5)) (BitVec.ofNat 5 (fld w 4 0)))
  else if fld w 20 16 = 10 ∧ fld w 9 8 = 0 then checked (.vfcmpEq (BitVec.ofNat 5 (fld w 31 27)) (BitVec.ofNat 1 (fld w 26 26)) (BitVec.ofNat 1 (fld w 25 25)) (BitVec.ofNat 3 (fld w 24 22)) (BitVec.ofNat 1 (fld w 21 21)) (BitVec.ofNat 3 (fld w 7 5)) (BitVec.ofNat 5 (fld w 4 0)))
  else if fld w 20 16 = 11 ∧ fld w 9 8 = 0 then checked (.vfcmpNe (BitVec.ofNat 5 (fld w 31 27)) (BitVec.ofNat 1 (fld w 26 26)) (BitVec.ofNat 1 (fld w 25 25)) (BitVec.ofNat 3 (fld w 24 22)) (BitVec.ofNat 1 (fld w 21 21)) (BitVec.ofNat 3 (fld w 7 5)) (BitVec.ofNat 5 (fld w 4 0)))
  else if fld w 20 16 = 12 ∧ fld w 9 8 = 0 then checked (.vfcmpLt (BitVec.ofNat 5 (fld w 31 27)) (BitVec.ofNat 1 (fld w 26 26)) (BitVec.ofNat 1 (fld w 25 25)) (BitVec.ofNat 3 (fld w 24 22)) (BitVec.ofNat 1 (fld w 21 21)) (BitVec.ofNat 3 (fld w 7 5)) (BitVec.ofNat 5 (fld w 4 0)))
  else if fld w 20 16 = 13 ∧ fld w 9 8 = 0 then checked (.vfcmpLe (BitVec.ofNat 5 (fld w 31 27)) (BitVec.ofNat 1 (fld w 26 26)) (BitVec.ofNat 1 (fld w 25 25)) (BitVec.ofNat 3 (fld w 24 22)) (BitVec.ofNat 1 (fld w 21 21)) (BitVec.ofNat 3 (fld w 7 5)) (BitVec.ofNat 5 (fld w 4 0)))
  else if fld w 20 16 = 14 ∧ fld w 9 8 = 0 then checked (.vfcmpGt (BitVec.ofNat 5 (fld w 31 27)) (BitVec.ofNat 1 (fld w 26 26)) (BitVec.ofNat 1 (fld w 25 25)) (BitVec.ofNat 3 (fld w 24 22)) (BitVec.ofNat 1 (fld w 21 21)) (BitVec.ofNat 3 (fld w 7 5)) (BitVec.ofNat 5 (fld w 4 0)))
  else if fld w 20 16 = 15 ∧ fld w 9 8 = 0 then checked (.vfcmpGe (BitVec.ofNat 5 (fld w 31 27)) (BitVec.ofNat 1 (fld w 26 26)) (BitVec.ofNat 1 (fld w 25 25)) (BitVec.ofNat 3 (fld w 24 22)) (BitVec.ofNat 1 (fld w 21 21)) (BitVec.ofNat 3 (fld w 7 5)) (BitVec.ofNat 5 (fld w 4 0)))
  else if fld w 20 16 = 16 ∧ fld w 9 8 = 0 then checked (.vfcmpUn (BitVec.ofNat 5 (fld w 31 27)) (BitVec.ofNat 1 (fld w 26 26)) (BitVec.ofNat 1 (fld w 25 25)) (BitVec.ofNat 3 (fld w 24 22)) (BitVec.ofNat 1 (fld w 21 21)) (BitVec.ofNat 3 (fld w 7 5)) (BitVec.ofNat 5 (fld w 4 0)))
  else if fld w 31 30 = 0 ∧ fld w 26 16 = 17 ∧ fld w 9 8 = 0 ∧ fld w 4 3 = 0 then checked (.mand (BitVec.ofNat 3 (fld w 29 27)) (BitVec.ofNat 3 (fld w 7 5)) (BitVec.ofNat 3 (fld w 2 0)))
  else if fld w 31 30 = 0 ∧ fld w 26 16 = 18 ∧ fld w 9 8 = 0 ∧ fld w 4 3 = 0 then checked (.mor (BitVec.ofNat 3 (fld w 29 27)) (BitVec.ofNat 3 (fld w 7 5)) (BitVec.ofNat 3 (fld w 2 0)))
  else if fld w 31 30 = 0 ∧ fld w 26 16 = 19 ∧ fld w 9 8 = 0 ∧ fld w 4 3 = 0 then checked (.mxor (BitVec.ofNat 3 (fld w 29 27)) (BitVec.ofNat 3 (fld w 7 5)) (BitVec.ofNat 3 (fld w 2 0)))
  else if fld w 31 30 = 0 ∧ fld w 26 16 = 20 ∧ fld w 9 8 = 0 ∧ fld w 4 3 = 0 then checked (.mandn (BitVec.ofNat 3 (fld w 29 27)) (BitVec.ofNat 3 (fld w 7 5)) (BitVec.ofNat 3 (fld w 2 0)))
  else if fld w 31 16 = 21 ∧ fld w 9 8 = 0 ∧ fld w 4 3 = 0 then checked (.mnot (BitVec.ofNat 3 (fld w 7 5)) (BitVec.ofNat 3 (fld w 2 0)))
  else if fld w 31 16 = 22 ∧ fld w 9 8 = 0 then checked (.msetn (BitVec.ofNat 3 (fld w 7 5)) (BitVec.ofNat 5 (fld w 4 0)))
  else if fld w 31 25 = 0 ∧ fld w 20 16 = 23 ∧ fld w 4 3 = 0 then checked (.mpopc (BitVec.ofNat 3 (fld w 24 22)) (BitVec.ofNat 1 (fld w 21 21)) (BitVec.ofNat 5 (fld w 9 5)) (BitVec.ofNat 3 (fld w 2 0)))
  else if fld w 31 25 = 0 ∧ fld w 20 16 = 24 ∧ fld w 4 3 = 0 then checked (.mfirst (BitVec.ofNat 3 (fld w 24 22)) (BitVec.ofNat 1 (fld w 21 21)) (BitVec.ofNat 5 (fld w 9 5)) (BitVec.ofNat 3 (fld w 2 0)))
  else if fld w 31 16 = 25 then checked (.mmove (BitVec.ofNat 5 (fld w 9 5)) (BitVec.ofNat 5 (fld w 4 0)))
  else .error .unassigned

/-- Major 0x10, VPERM and reductions (R120, R121). -/
def decMajor10 (w : Nat) : Except DecodeError Instr :=
  if fld w 21 16 = 32 then checked (.vsel (BitVec.ofNat 5 (fld w 31 27)) (BitVec.ofNat 1 (fld w 26 26)) (BitVec.ofNat 1 (fld w 25 25)) (BitVec.ofNat 3 (fld w 24 22)) (BitVec.ofNat 5 (fld w 9 5)) (BitVec.ofNat 5 (fld w 4 0)))
  else if fld w 31 27 = 0 ∧ fld w 25 25 = 0 ∧ fld w 20 16 = 1 then checked (.vmv (BitVec.ofNat 1 (fld w 26 26)) (BitVec.ofNat 3 (fld w 24 22)) (BitVec.ofNat 1 (fld w 21 21)) (BitVec.ofNat 5 (fld w 9 5)) (BitVec.ofNat 5 (fld w 4 0)))
  else if fld w 31 25 = 0 ∧ fld w 20 16 = 2 then checked (.vmvx (BitVec.ofNat 3 (fld w 24 22)) (BitVec.ofNat 1 (fld w 21 21)) (BitVec.ofNat 5 (fld w 9 5)) (BitVec.ofNat 5 (fld w 4 0)))
  else if fld w 25 16 = 3 then checked (.vext (BitVec.ofNat 5 (fld w 31 27)) (BitVec.ofNat 1 (fld w 26 26)) (BitVec.ofNat 5 (fld w 9 5)) (BitVec.ofNat 5 (fld w 4 0)))
  else if fld w 25 25 = 0 ∧ fld w 20 16 = 4 then checked (.vslideup (BitVec.ofNat 5 (fld w 31 27)) (BitVec.ofNat 1 (fld w 26 26)) (BitVec.ofNat 3 (fld w 24 22)) (BitVec.ofNat 1 (fld w 21 21)) (BitVec.ofNat 5 (fld w 9 5)) (BitVec.ofNat 5 (fld w 4 0)))
  else if fld w 25 25 = 0 ∧ fld w 20 16 = 5 then checked (.vslidedn (BitVec.ofNat 5 (fld w 31 27)) (BitVec.ofNat 1 (fld w 26 26)) (BitVec.ofNat 3 (fld w 24 22)) (BitVec.ofNat 1 (fld w 21 21)) (BitVec.ofNat 5 (fld w 9 5)) (BitVec.ofNat 5 (fld w 4 0)))
  else if fld w 20 16 = 6 then checked (.vgath (BitVec.ofNat 5 (fld w 31 27)) (BitVec.ofNat 1 (fld w 26 26)) (BitVec.ofNat 1 (fld w 25 25)) (BitVec.ofNat 3 (fld w 24 22)) (BitVec.ofNat 1 (fld w 21 21)) (BitVec.ofNat 5 (fld w 9 5)) (BitVec.ofNat 5 (fld w 4 0)))
  else if fld w 31 27 = 0 ∧ fld w 25 25 = 0 ∧ fld w 20 16 = 7 then checked (.vcomp (BitVec.ofNat 1 (fld w 26 26)) (BitVec.ofNat 3 (fld w 24 22)) (BitVec.ofNat 1 (fld w 21 21)) (BitVec.ofNat 5 (fld w 9 5)) (BitVec.ofNat 5 (fld w 4 0)))
  else if fld w 31 27 = 0 ∧ fld w 25 25 = 0 ∧ fld w 20 16 = 8 then checked (.vexp (BitVec.ofNat 1 (fld w 26 26)) (BitVec.ofNat 3 (fld w 24 22)) (BitVec.ofNat 1 (fld w 21 21)) (BitVec.ofNat 5 (fld w 9 5)) (BitVec.ofNat 5 (fld w 4 0)))
  else if fld w 31 25 = 0 ∧ fld w 20 16 = 9 ∧ fld w 4 0 = 0 then checked (.viota (BitVec.ofNat 3 (fld w 24 22)) (BitVec.ofNat 1 (fld w 21 21)) (BitVec.ofNat 5 (fld w 9 5)))
  else if fld w 31 27 = 0 ∧ fld w 25 25 = 0 ∧ fld w 20 16 = 10 then checked (.vredsum (BitVec.ofNat 1 (fld w 26 26)) (BitVec.ofNat 3 (fld w 24 22)) (BitVec.ofNat 1 (fld w 21 21)) (BitVec.ofNat 5 (fld w 9 5)) (BitVec.ofNat 5 (fld w 4 0)))
  else if fld w 31 27 = 0 ∧ fld w 25 25 = 0 ∧ fld w 20 16 = 11 then checked (.vredmin (BitVec.ofNat 1 (fld w 26 26)) (BitVec.ofNat 3 (fld w 24 22)) (BitVec.ofNat 1 (fld w 21 21)) (BitVec.ofNat 5 (fld w 9 5)) (BitVec.ofNat 5 (fld w 4 0)))
  else if fld w 31 27 = 0 ∧ fld w 25 25 = 0 ∧ fld w 20 16 = 12 then checked (.vredmax (BitVec.ofNat 1 (fld w 26 26)) (BitVec.ofNat 3 (fld w 24 22)) (BitVec.ofNat 1 (fld w 21 21)) (BitVec.ofNat 5 (fld w 9 5)) (BitVec.ofNat 5 (fld w 4 0)))
  else if fld w 31 27 = 0 ∧ fld w 25 25 = 0 ∧ fld w 20 16 = 13 then checked (.vfredsum (BitVec.ofNat 1 (fld w 26 26)) (BitVec.ofNat 3 (fld w 24 22)) (BitVec.ofNat 1 (fld w 21 21)) (BitVec.ofNat 5 (fld w 9 5)) (BitVec.ofNat 5 (fld w 4 0)))
  else .error .unassigned

/-- Major 0x11, VCVT (R120, R121). -/
def decMajor11 (w : Nat) : Except DecodeError Instr :=
  if fld w 25 25 = 0 ∧ fld w 20 16 = 0 then checked (.vcvt (BitVec.ofNat 5 (fld w 31 27)) (BitVec.ofNat 1 (fld w 26 26)) (BitVec.ofNat 3 (fld w 24 22)) (BitVec.ofNat 1 (fld w 21 21)) (BitVec.ofNat 5 (fld w 9 5)) (BitVec.ofNat 5 (fld w 4 0)))
  else if fld w 25 25 = 0 ∧ fld w 20 18 = 1 then checked (.vcvtStatic (BitVec.ofNat 5 (fld w 31 27)) (BitVec.ofNat 1 (fld w 26 26)) (BitVec.ofNat 3 (fld w 24 22)) (BitVec.ofNat 1 (fld w 21 21)) (BitVec.ofNat 2 (fld w 17 16)) (BitVec.ofNat 5 (fld w 9 5)) (BitVec.ofNat 5 (fld w 4 0)))
  else if fld w 31 27 = 0 ∧ fld w 25 16 = 8 then checked (.vbfpxX (BitVec.ofNat 1 (fld w 26 26)) (BitVec.ofNat 5 (fld w 9 5)) (BitVec.ofNat 5 (fld w 4 0)))
  else if fld w 31 27 = 0 ∧ fld w 25 16 = 9 then checked (.vbfpxI (BitVec.ofNat 1 (fld w 26 26)) (BitVec.ofNat 5 (fld w 9 5)) (BitVec.ofNat 5 (fld w 4 0)))
  else .error .unassigned

/-- Major 0x12, VLOAD (R120, R121). -/
def decMajor12 (w : Nat) : Except DecodeError Instr :=
  if fld w 31 27 = 0 ∧ fld w 20 16 = 0 then checked (.vld (BitVec.ofNat 1 (fld w 26 26)) (BitVec.ofNat 1 (fld w 25 25)) (BitVec.ofNat 3 (fld w 24 22)) (BitVec.ofNat 1 (fld w 21 21)) (BitVec.ofNat 5 (fld w 9 5)) (BitVec.ofNat 5 (fld w 4 0)))
  else if fld w 31 27 = 0 ∧ fld w 17 16 = 1 then checked (.vlds (BitVec.ofNat 1 (fld w 26 26)) (BitVec.ofNat 1 (fld w 25 25)) (BitVec.ofNat 3 (fld w 24 22)) (BitVec.ofNat 1 (fld w 21 21)) (BitVec.ofNat 3 (fld w 20 18)) (BitVec.ofNat 5 (fld w 9 5)) (BitVec.ofNat 5 (fld w 4 0)))
  else if fld w 20 16 = 2 then checked (.vldx (BitVec.ofNat 5 (fld w 31 27)) (BitVec.ofNat 1 (fld w 26 26)) (BitVec.ofNat 1 (fld w 25 25)) (BitVec.ofNat 3 (fld w 24 22)) (BitVec.ofNat 1 (fld w 21 21)) (BitVec.ofNat 5 (fld w 9 5)) (BitVec.ofNat 5 (fld w 4 0)))
  else .error .unassigned

/-- Major 0x13, VSTORE (R120, R121). -/
def decMajor13 (w : Nat) : Except DecodeError Instr :=
  if fld w 31 27 = 0 ∧ fld w 20 16 = 0 then checked (.vst (BitVec.ofNat 1 (fld w 26 26)) (BitVec.ofNat 1 (fld w 25 25)) (BitVec.ofNat 3 (fld w 24 22)) (BitVec.ofNat 1 (fld w 21 21)) (BitVec.ofNat 5 (fld w 9 5)) (BitVec.ofNat 5 (fld w 4 0)))
  else if fld w 31 27 = 0 ∧ fld w 17 16 = 1 then checked (.vsts (BitVec.ofNat 1 (fld w 26 26)) (BitVec.ofNat 1 (fld w 25 25)) (BitVec.ofNat 3 (fld w 24 22)) (BitVec.ofNat 1 (fld w 21 21)) (BitVec.ofNat 3 (fld w 20 18)) (BitVec.ofNat 5 (fld w 9 5)) (BitVec.ofNat 5 (fld w 4 0)))
  else if fld w 20 16 = 2 then checked (.vstx (BitVec.ofNat 5 (fld w 31 27)) (BitVec.ofNat 1 (fld w 26 26)) (BitVec.ofNat 1 (fld w 25 25)) (BitVec.ofNat 3 (fld w 24 22)) (BitVec.ofNat 1 (fld w 21 21)) (BitVec.ofNat 5 (fld w 9 5)) (BitVec.ofNat 5 (fld w 4 0)))
  else .error .unassigned

/-- Major 0x14, MATRIX (R120, R121). -/
def decMajor14 (w : Nat) : Except DecodeError Instr :=
  if fld w 31 21 = 0 ∧ fld w 19 16 = 0 ∧ fld w 9 0 = 0 then checked (.mzero (BitVec.ofNat 1 (fld w 20 20)))
  else if fld w 26 21 = 8 ∧ fld w 19 16 = 0 ∧ fld w 9 5 = 0 then checked (.minit (BitVec.ofNat 5 (fld w 31 27)) (BitVec.ofNat 1 (fld w 20 20)) (BitVec.ofNat 5 (fld w 4 0)))
  else if fld w 26 24 = 2 ∧ fld w 16 16 = 0 ∧ fld w 9 5 = 0 then checked (.mma (BitVec.ofNat 5 (fld w 31 27)) (BitVec.ofNat 3 (fld w 23 21)) (BitVec.ofNat 1 (fld w 20 20)) (BitVec.ofNat 1 (fld w 19 19)) (BitVec.ofNat 1 (fld w 18 18)) (BitVec.ofNat 1 (fld w 17 17)) (BitVec.ofNat 5 (fld w 4 0)))
  else if fld w 26 24 = 3 ∧ fld w 19 16 = 0 ∧ fld w 9 5 = 0 then checked (.mmab (BitVec.ofNat 5 (fld w 31 27)) (BitVec.ofNat 3 (fld w 23 21)) (BitVec.ofNat 1 (fld w 20 20)) (BitVec.ofNat 5 (fld w 4 0)))
  else if fld w 31 21 = 32 ∧ fld w 19 16 = 0 ∧ fld w 4 0 = 0 then checked (.mrowsum (BitVec.ofNat 1 (fld w 20 20)) (BitVec.ofNat 5 (fld w 9 5)))
  else if fld w 31 21 = 40 ∧ fld w 19 16 = 0 then checked (.mdrainReg (BitVec.ofNat 1 (fld w 20 20)) (BitVec.ofNat 5 (fld w 9 5)) (BitVec.ofNat 5 (fld w 4 0)))
  else if fld w 31 21 = 40 ∧ fld w 19 16 = 1 ∧ fld w 9 5 = 0 then checked (.mdrainSpad (BitVec.ofNat 1 (fld w 20 20)) (BitVec.ofNat 5 (fld w 4 0)))
  else if fld w 26 24 = 6 ∧ fld w 19 16 = 0 ∧ fld w 4 0 = 0 then checked (.mdrainqReg (BitVec.ofNat 5 (fld w 31 27)) (BitVec.ofNat 3 (fld w 23 21)) (BitVec.ofNat 1 (fld w 20 20)) (BitVec.ofNat 5 (fld w 9 5)))
  else if fld w 26 24 = 6 ∧ fld w 19 16 = 1 ∧ fld w 9 5 = 0 then checked (.mdrainqSpad (BitVec.ofNat 5 (fld w 31 27)) (BitVec.ofNat 3 (fld w 23 21)) (BitVec.ofNat 1 (fld w 20 20)) (BitVec.ofNat 5 (fld w 4 0)))
  else .error .unassigned

/-- Major 0x15, COPY (R120, R121). -/
def decMajor15 (w : Nat) : Except DecodeError Instr :=
  if fld w 31 24 = 0 ∧ fld w 20 16 = 0 then checked (.cpy (BitVec.ofNat 3 (fld w 23 21)) (BitVec.ofNat 5 (fld w 9 5)) (BitVec.ofNat 5 (fld w 4 0)))
  else if fld w 31 24 = 1 ∧ fld w 20 16 = 0 then checked (.cpyrAdd (BitVec.ofNat 3 (fld w 23 21)) (BitVec.ofNat 5 (fld w 9 5)) (BitVec.ofNat 5 (fld w 4 0)))
  else if fld w 31 24 = 1 ∧ fld w 20 16 = 2 then checked (.cpyrFadd (BitVec.ofNat 3 (fld w 23 21)) (BitVec.ofNat 5 (fld w 9 5)) (BitVec.ofNat 5 (fld w 4 0)))
  else if fld w 31 24 = 1 ∧ fld w 20 16 = 4 then checked (.cpyrBfadd (BitVec.ofNat 3 (fld w 23 21)) (BitVec.ofNat 5 (fld w 9 5)) (BitVec.ofNat 5 (fld w 4 0)))
  else if fld w 31 24 = 1 ∧ fld w 20 16 = 6 then checked (.cpyrMin (BitVec.ofNat 3 (fld w 23 21)) (BitVec.ofNat 5 (fld w 9 5)) (BitVec.ofNat 5 (fld w 4 0)))
  else if fld w 31 24 = 1 ∧ fld w 20 16 = 8 then checked (.cpyrMax (BitVec.ofNat 3 (fld w 23 21)) (BitVec.ofNat 5 (fld w 9 5)) (BitVec.ofNat 5 (fld w 4 0)))
  else if fld w 31 24 = 1 ∧ fld w 20 16 = 10 then checked (.cpyrFmin (BitVec.ofNat 3 (fld w 23 21)) (BitVec.ofNat 5 (fld w 9 5)) (BitVec.ofNat 5 (fld w 4 0)))
  else if fld w 31 24 = 1 ∧ fld w 20 16 = 12 then checked (.cpyrFmax (BitVec.ofNat 3 (fld w 23 21)) (BitVec.ofNat 5 (fld w 9 5)) (BitVec.ofNat 5 (fld w 4 0)))
  else if fld w 26 24 = 2 ∧ fld w 20 16 = 0 ∧ fld w 4 0 = 0 then checked (.cpyf (BitVec.ofNat 5 (fld w 31 27)) (BitVec.ofNat 3 (fld w 23 21)) (BitVec.ofNat 5 (fld w 9 5)))
  else if fld w 31 31 = 0 ∧ fld w 26 24 = 3 ∧ fld w 20 16 = 0 then checked (.cpyMc (BitVec.ofNat 4 (fld w 30 27)) (BitVec.ofNat 3 (fld w 23 21)) (BitVec.ofNat 5 (fld w 9 5)) (BitVec.ofNat 5 (fld w 4 0)))
  else .error .unassigned

/-- Major 0x16, CHAN (R120, R121). -/
def decMajor16 (w : Nat) : Except DecodeError Instr :=
  if fld w 31 31 = 0 ∧ fld w 26 16 = 0 ∧ fld w 9 5 = 0 then checked (.send (BitVec.ofNat 4 (fld w 30 27)) (BitVec.ofNat 5 (fld w 4 0)))
  else if fld w 31 31 = 0 ∧ fld w 26 16 = 1 ∧ fld w 4 0 = 0 then checked (.recv (BitVec.ofNat 4 (fld w 30 27)) (BitVec.ofNat 5 (fld w 9 5)))
  else if fld w 31 31 = 0 ∧ fld w 26 16 = 2 ∧ fld w 9 5 = 0 then checked (.vsend (BitVec.ofNat 4 (fld w 30 27)) (BitVec.ofNat 5 (fld w 4 0)))
  else if fld w 31 31 = 0 ∧ fld w 26 16 = 3 ∧ fld w 4 0 = 0 then checked (.vrecv (BitVec.ofNat 4 (fld w 30 27)) (BitVec.ofNat 5 (fld w 9 5)))
  else if fld w 31 31 = 0 ∧ fld w 26 16 = 4 ∧ fld w 9 0 = 0 then checked (.sende (BitVec.ofNat 4 (fld w 30 27)))
  else if fld w 31 31 = 0 ∧ fld w 26 16 = 5 then checked (.recve (BitVec.ofNat 4 (fld w 30 27)) (BitVec.ofNat 5 (fld w 9 5)) (BitVec.ofNat 5 (fld w 4 0)))
  else if fld w 31 31 = 0 ∧ fld w 26 16 = 6 ∧ fld w 4 0 = 0 then checked (.portq (BitVec.ofNat 4 (fld w 30 27)) (BitVec.ofNat 5 (fld w 9 5)))
  else .error .unassigned

/-- Major 0x17, ERRAND (R120, R121). -/
def decMajor17 (w : Nat) : Except DecodeError Instr :=
  if fld w 31 16 = 0 then checked (.errand (BitVec.ofNat 5 (fld w 9 5)) (BitVec.ofNat 5 (fld w 4 0)))
  else if fld w 31 16 = 1 then checked (.errwait (BitVec.ofNat 5 (fld w 9 5)) (BitVec.ofNat 5 (fld w 4 0)))
  else if fld w 31 16 = 16 ∧ fld w 9 5 = 0 then checked (.reply (BitVec.ofNat 5 (fld w 4 0)))
  else if fld w 26 16 = 17 then checked (.fins (BitVec.ofNat 5 (fld w 31 27)) (BitVec.ofNat 5 (fld w 9 5)) (BitVec.ofNat 5 (fld w 4 0)))
  else .error .unassigned

/-- Major 0x18, REEL (R120, R121). -/
def decMajor18 (w : Nat) : Except DecodeError Instr :=
  if fld w 31 31 = 0 ∧ fld w 26 23 = 0 ∧ fld w 19 16 = 0 then checked (.gnew (BitVec.ofNat 4 (fld w 30 27)) (BitVec.ofNat 3 (fld w 22 20)) (BitVec.ofNat 5 (fld w 9 5)) (BitVec.ofNat 5 (fld w 4 0)))
  else if fld w 31 31 = 0 ∧ fld w 26 16 = 128 then checked (.gjoin (BitVec.ofNat 4 (fld w 30 27)) (BitVec.ofNat 5 (fld w 9 5)) (BitVec.ofNat 5 (fld w 4 0)))
  else if fld w 31 31 = 0 ∧ fld w 26 16 = 256 ∧ fld w 4 0 = 0 then checked (.gleave (BitVec.ofNat 4 (fld w 30 27)) (BitVec.ofNat 5 (fld w 9 5)))
  else if fld w 31 31 = 0 ∧ fld w 26 16 = 384 ∧ fld w 9 5 = 0 then checked (.garr (BitVec.ofNat 4 (fld w 30 27)) (BitVec.ofNat 5 (fld w 4 0)))
  else if fld w 31 31 = 0 ∧ fld w 26 16 = 385 ∧ fld w 9 3 = 0 then checked (.garrMask (BitVec.ofNat 4 (fld w 30 27)) (BitVec.ofNat 3 (fld w 2 0)))
  else if fld w 31 31 = 0 ∧ fld w 26 16 = 512 ∧ fld w 4 0 = 0 then checked (.gbar (BitVec.ofNat 4 (fld w 30 27)) (BitVec.ofNat 5 (fld w 9 5)))
  else if fld w 31 31 = 0 ∧ fld w 26 16 = 640 then checked (.gwait (BitVec.ofNat 4 (fld w 30 27)) (BitVec.ofNat 5 (fld w 9 5)) (BitVec.ofNat 5 (fld w 4 0)))
  else if fld w 31 31 = 0 ∧ fld w 26 16 = 768 then checked (.gvoteAll (BitVec.ofNat 4 (fld w 30 27)) (BitVec.ofNat 5 (fld w 9 5)) (BitVec.ofNat 5 (fld w 4 0)))
  else if fld w 31 31 = 0 ∧ fld w 26 16 = 784 then checked (.gvoteAny (BitVec.ofNat 4 (fld w 30 27)) (BitVec.ofNat 5 (fld w 9 5)) (BitVec.ofNat 5 (fld w 4 0)))
  else if fld w 31 31 = 0 ∧ fld w 26 16 = 800 then checked (.gvoteCount (BitVec.ofNat 4 (fld w 30 27)) (BitVec.ofNat 5 (fld w 9 5)) (BitVec.ofNat 5 (fld w 4 0)))
  else if fld w 31 31 = 0 ∧ fld w 26 16 = 769 ∧ fld w 4 3 = 0 then checked (.gvoteAllMask (BitVec.ofNat 4 (fld w 30 27)) (BitVec.ofNat 5 (fld w 9 5)) (BitVec.ofNat 3 (fld w 2 0)))
  else if fld w 31 31 = 0 ∧ fld w 26 16 = 785 ∧ fld w 4 3 = 0 then checked (.gvoteAnyMask (BitVec.ofNat 4 (fld w 30 27)) (BitVec.ofNat 5 (fld w 9 5)) (BitVec.ofNat 3 (fld w 2 0)))
  else if fld w 31 31 = 0 ∧ fld w 26 16 = 801 ∧ fld w 4 3 = 0 then checked (.gvoteCountMask (BitVec.ofNat 4 (fld w 30 27)) (BitVec.ofNat 5 (fld w 9 5)) (BitVec.ofNat 3 (fld w 2 0)))
  else if fld w 31 31 = 0 ∧ fld w 26 20 = 56 ∧ fld w 16 16 = 0 then checked (.gredSum (BitVec.ofNat 4 (fld w 30 27)) (BitVec.ofNat 3 (fld w 19 17)) (BitVec.ofNat 5 (fld w 9 5)) (BitVec.ofNat 5 (fld w 4 0)))
  else if fld w 31 31 = 0 ∧ fld w 26 20 = 57 ∧ fld w 16 16 = 0 then checked (.gredMin (BitVec.ofNat 4 (fld w 30 27)) (BitVec.ofNat 3 (fld w 19 17)) (BitVec.ofNat 5 (fld w 9 5)) (BitVec.ofNat 5 (fld w 4 0)))
  else if fld w 31 31 = 0 ∧ fld w 26 20 = 58 ∧ fld w 16 16 = 0 then checked (.gredMax (BitVec.ofNat 4 (fld w 30 27)) (BitVec.ofNat 3 (fld w 19 17)) (BitVec.ofNat 5 (fld w 9 5)) (BitVec.ofNat 5 (fld w 4 0)))
  else if fld w 31 31 = 0 ∧ fld w 26 16 = 1024 ∧ fld w 4 0 = 0 then checked (.ginfo (BitVec.ofNat 4 (fld w 30 27)) (BitVec.ofNat 5 (fld w 9 5)))
  else .error .unassigned

/-- Major 0x19, SYNCW (R120, R121). -/
def decMajor19 (w : Nat) : Except DecodeError Instr :=
  if fld w 26 16 = 0 then checked (.swset (BitVec.ofNat 5 (fld w 31 27)) (BitVec.ofNat 5 (fld w 9 5)) (BitVec.ofNat 5 (fld w 4 0)))
  else if fld w 26 16 = 1 then checked (.swwait (BitVec.ofNat 5 (fld w 31 27)) (BitVec.ofNat 5 (fld w 9 5)) (BitVec.ofNat 5 (fld w 4 0)))
  else if fld w 26 16 = 2 ∧ fld w 9 5 = 0 then checked (.swadd (BitVec.ofNat 5 (fld w 31 27)) (BitVec.ofNat 5 (fld w 4 0)))
  else if fld w 31 16 = 3 then checked (.swread (BitVec.ofNat 5 (fld w 9 5)) (BitVec.ofNat 5 (fld w 4 0)))
  else .error .unassigned

/-- Major 0x1A, TRACE (R120, R121). -/
def decMajor1A (w : Nat) : Except DecodeError Instr :=
  if fld w 31 16 = 0 ∧ fld w 9 5 = 0 then checked (.temit (BitVec.ofNat 5 (fld w 4 0)))
  else if fld w 31 29 = 1 ∧ fld w 9 0 = 0 then checked (.tmark (BitVec.ofNat 13 (fld w 28 16)))
  else .error .unassigned

/-- Major 0x1B, SCHED (R120, R121). -/
def decMajor1B (w : Nat) : Except DecodeError Instr :=
  if fld w 26 16 = 0 then checked (.rqpush (BitVec.ofNat 5 (fld w 31 27)) (BitVec.ofNat 5 (fld w 9 5)) (BitVec.ofNat 5 (fld w 4 0)))
  else if fld w 31 16 = 1 ∧ fld w 4 0 = 0 then checked (.rqpop (BitVec.ofNat 5 (fld w 9 5)))
  else if fld w 26 16 = 2 ∧ fld w 9 5 = 0 then checked (.slotgo (BitVec.ofNat 5 (fld w 31 27)) (BitVec.ofNat 5 (fld w 4 0)))
  else if fld w 26 16 = 3 ∧ fld w 9 5 = 0 then checked (.slotstop (BitVec.ofNat 5 (fld w 31 27)) (BitVec.ofNat 5 (fld w 4 0)))
  else if fld w 31 16 = 4 then checked (.migrate (BitVec.ofNat 5 (fld w 9 5)) (BitVec.ofNat 5 (fld w 4 0)))
  else if fld w 26 16 = 5 then checked (.fwdset (BitVec.ofNat 5 (fld w 31 27)) (BitVec.ofNat 5 (fld w 9 5)) (BitVec.ofNat 5 (fld w 4 0)))
  else if fld w 26 16 = 6 ∧ fld w 9 5 = 0 then checked (.timerset (BitVec.ofNat 5 (fld w 31 27)) (BitVec.ofNat 5 (fld w 4 0)))
  else if fld w 31 16 = 7 then checked (.parkwait (BitVec.ofNat 5 (fld w 9 5)) (BitVec.ofNat 5 (fld w 4 0)))
  else .error .unassigned

/-- Major 0x1F, hints (R120, R121). -/
def decMajor1F (w : Nat) : Except DecodeError Instr :=
  if fld w 31 16 = 0 ∧ fld w 9 0 = 0 then checked (.nop)
  else checked (.hint (BitVec.ofNat 16 (fld w 31 16)) (BitVec.ofNat 10 (fld w 9 0)))

/-- A 16-bit instruction (R117). -/
def decode16 (w : Nat) : Except DecodeError Instr :=
  match fld w 14 11 with
  | 1 => if fld w 5 5 = 0 then checked (.cMv (BitVec.ofNat 5 (fld w 10 6)) (BitVec.ofNat 5 (fld w 4 0))) else .error .unassigned
  | 2 => if fld w 5 5 = 0 then checked (.cAdd (BitVec.ofNat 5 (fld w 10 6)) (BitVec.ofNat 5 (fld w 4 0))) else .error .unassigned
  | 3 => checked (.cAddi (BitVec.ofNat 5 (fld w 10 6)) (BitVec.ofNat 6 (fld w 5 0)))
  | 4 => checked (.cLd (BitVec.ofNat 5 (fld w 10 6)) (BitVec.ofNat 6 (fld w 5 0)))
  | 5 => checked (.cSt (BitVec.ofNat 5 (fld w 10 6)) (BitVec.ofNat 6 (fld w 5 0)))
  | 6 => checked (.cBeqz (BitVec.ofNat 5 (fld w 10 6)) (BitVec.ofNat 6 (fld w 5 0)))
  | 7 => checked (.cBnez (BitVec.ofNat 5 (fld w 10 6)) (BitVec.ofNat 6 (fld w 5 0)))
  | 8 => checked (.cJ (BitVec.ofNat 11 (fld w 10 0)))
  | 9 => if fld w 10 10 = 0 ∧ fld w 5 5 = 0 then checked (.cSend (BitVec.ofNat 4 (fld w 9 6)) (BitVec.ofNat 5 (fld w 4 0))) else .error .unassigned
  | 10 => if fld w 5 4 = 0 then checked (.cRecv (BitVec.ofNat 5 (fld w 10 6)) (BitVec.ofNat 4 (fld w 3 0))) else .error .unassigned
  | 11 => checked (.cLdhi (BitVec.ofNat 5 (fld w 10 6)) (BitVec.ofNat 6 (fld w 5 0)))
  | 12 => if fld w 10 0 = 0 then checked (.cNop) else .error .unassigned
  | _ => .error .compactReserved

/-- A 32-bit instruction (R113, R120). -/
def decode32 (w : Nat) : Except DecodeError Instr :=
  match fld w 14 10 with
  | 0 => decMajor00 w
  | 1 => decMajor01 w
  | 2 => decMajor02 w
  | 3 => decMajor03 w
  | 4 => decMajor04 w
  | 5 => decMajor05 w
  | 6 => decMajor06 w
  | 7 => decMajor07 w
  | 8 => decMajor08 w
  | 9 => decMajor09 w
  | 10 => decMajor0A w
  | 11 => decMajor0B w
  | 12 => decMajor0C w
  | 13 => decMajor0D w
  | 14 => decMajor0E w
  | 15 => decMajor0F w
  | 16 => decMajor10 w
  | 17 => decMajor11 w
  | 18 => decMajor12 w
  | 19 => decMajor13 w
  | 20 => decMajor14 w
  | 21 => decMajor15 w
  | 22 => decMajor16 w
  | 23 => decMajor17 w
  | 24 => decMajor18 w
  | 25 => decMajor19 w
  | 26 => decMajor1A w
  | 27 => decMajor1B w
  | 31 => decMajor1F w
  | _ => .error .reservedMajor

/-- The decoder: an instruction and its length in bytes from the halfwords at the program counter (R109). -/
def decode : List (BitVec 16) → Except DecodeError (Instr × Nat)
  | [] => .error .truncated
  | h :: rest =>
    if h.toNat < 0x8000 then
      match decode16 h.toNat with
      | .ok i => .ok (i, 2)
      | .error e => .error e
    else
      match rest with
      | [] => .error .truncated
      | g :: _ =>
        match decode32 (h.toNat + g.toNat * 65536) with
        | .ok i => .ok (i, 4)
        | .error e => .error e

/-- The encoding of an encoded instruction, with its number of bits; none for an event row. -/
def encodeWord : Instr → Option (Nat × Nat)
  | .add t d s => some (32, 0x8000 + t.toNat * 0x8000000 + d.toNat * 0x20 + s.toNat)
  | .sub t d s => some (32, 0x18000 + t.toNat * 0x8000000 + d.toNat * 0x20 + s.toNat)
  | .and t d s => some (32, 0x28000 + t.toNat * 0x8000000 + d.toNat * 0x20 + s.toNat)
  | .or t d s => some (32, 0x38000 + t.toNat * 0x8000000 + d.toNat * 0x20 + s.toNat)
  | .xor t d s => some (32, 0x48000 + t.toNat * 0x8000000 + d.toNat * 0x20 + s.toNat)
  | .andn t d s => some (32, 0x58000 + t.toNat * 0x8000000 + d.toNat * 0x20 + s.toNat)
  | .sll t d s => some (32, 0x68000 + t.toNat * 0x8000000 + d.toNat * 0x20 + s.toNat)
  | .srl t d s => some (32, 0x78000 + t.toNat * 0x8000000 + d.toNat * 0x20 + s.toNat)
  | .sra t d s => some (32, 0x88000 + t.toNat * 0x8000000 + d.toNat * 0x20 + s.toNat)
  | .slt t d s => some (32, 0x98000 + t.toNat * 0x8000000 + d.toNat * 0x20 + s.toNat)
  | .sltu t d s => some (32, 0xa8000 + t.toNat * 0x8000000 + d.toNat * 0x20 + s.toNat)
  | .min t d s => some (32, 0xb8000 + t.toNat * 0x8000000 + d.toNat * 0x20 + s.toNat)
  | .max t d s => some (32, 0xc8000 + t.toNat * 0x8000000 + d.toNat * 0x20 + s.toNat)
  | .minu t d s => some (32, 0xd8000 + t.toNat * 0x8000000 + d.toNat * 0x20 + s.toNat)
  | .maxu t d s => some (32, 0xe8000 + t.toNat * 0x8000000 + d.toNat * 0x20 + s.toNat)
  | .clz d s => some (32, 0xf8000 + d.toNat * 0x20 + s.toNat)
  | .ctz d s => some (32, 0x108000 + d.toNat * 0x20 + s.toNat)
  | .popc d s => some (32, 0x118000 + d.toNat * 0x20 + s.toNat)
  | .rev8 d s => some (32, 0x128000 + d.toNat * 0x20 + s.toNat)
  | .rol t d s => some (32, 0x138000 + t.toNat * 0x8000000 + d.toNat * 0x20 + s.toNat)
  | .rotr t d s => some (32, 0x148000 + t.toNat * 0x8000000 + d.toNat * 0x20 + s.toNat)
  | .sextB d s => some (32, 0x158000 + d.toNat * 0x20 + s.toNat)
  | .sextH d s => some (32, 0x168000 + d.toNat * 0x20 + s.toNat)
  | .sextW d s => some (32, 0x178000 + d.toNat * 0x20 + s.toNat)
  | .addi i d s => some (32, 0x8400 + i.toNat * 0x10000 + d.toNat * 0x20 + s.toNat)
  | .andi i d s => some (32, 0x20008400 + i.toNat * 0x10000 + d.toNat * 0x20 + s.toNat)
  | .ori i d s => some (32, 0x40008400 + i.toNat * 0x10000 + d.toNat * 0x20 + s.toNat)
  | .xori i d s => some (32, 0x60008400 + i.toNat * 0x10000 + d.toNat * 0x20 + s.toNat)
  | .slti i d s => some (32, 0x80008400 + i.toNat * 0x10000 + d.toNat * 0x20 + s.toNat)
  | .sltiu i d s => some (32, 0xa0008400 + i.toNat * 0x10000 + d.toNat * 0x20 + s.toNat)
  | .slli h d s => some (32, 0xc0008400 + h.toNat * 0x10000 + d.toNat * 0x20 + s.toNat)
  | .srli h d s => some (32, 0xc0408400 + h.toNat * 0x10000 + d.toNat * 0x20 + s.toNat)
  | .srai h d s => some (32, 0xc0808400 + h.toNat * 0x10000 + d.toNat * 0x20 + s.toNat)
  | .ldhi i d => some (32, 0x8800 + i.toNat / 0x8000 + i.toNat % 0x8000 * 0x20000 + d.toNat * 0x20)
  | .addpc i d => some (32, 0x18800 + i.toNat / 0x8000 + i.toNat % 0x8000 * 0x20000 + d.toNat * 0x20)
  | .mul t d s => some (32, 0x108c00 + t.toNat * 0x8000000 + d.toNat * 0x20 + s.toNat)
  | .mulh t d s => some (32, 0x178c00 + t.toNat * 0x8000000 + d.toNat * 0x20 + s.toNat)
  | .mulhu t d s => some (32, 0x148c00 + t.toNat * 0x8000000 + d.toNat * 0x20 + s.toNat)
  | .mulhsu t d s => some (32, 0x158c00 + t.toNat * 0x8000000 + d.toNat * 0x20 + s.toNat)
  | .divu t d s => some (32, 0x208c00 + t.toNat * 0x8000000 + d.toNat * 0x20 + s.toNat)
  | .div t d s => some (32, 0x218c00 + t.toNat * 0x8000000 + d.toNat * 0x20 + s.toNat)
  | .remu t d s => some (32, 0x228c00 + t.toNat * 0x8000000 + d.toNat * 0x20 + s.toNat)
  | .rem t d s => some (32, 0x238c00 + t.toNat * 0x8000000 + d.toNat * 0x20 + s.toNat)
  | .beq o s t => some (32, 0x9000 + o.toNat * 0x10000 + s.toNat * 0x20 + t.toNat)
  | .bne o s t => some (32, 0x20009000 + o.toNat * 0x10000 + s.toNat * 0x20 + t.toNat)
  | .blt o s t => some (32, 0x80009000 + o.toNat * 0x10000 + s.toNat * 0x20 + t.toNat)
  | .bge o s t => some (32, 0xa0009000 + o.toNat * 0x10000 + s.toNat * 0x20 + t.toNat)
  | .bltu o s t => some (32, 0xc0009000 + o.toNat * 0x10000 + s.toNat * 0x20 + t.toNat)
  | .bgeu o s t => some (32, 0xe0009000 + o.toNat * 0x10000 + s.toNat * 0x20 + t.toNat)
  | .jal i d => some (32, 0x9400 + i.toNat / 0x10000 + i.toNat % 0x10000 * 0x10000 + d.toNat * 0x20)
  | .jalr i d s => some (32, 0x9800 + i.toNat * 0x10000 + d.toNat * 0x20 + s.toNat)
  | .ldB i d s => some (32, 0x9c00 + i.toNat * 0x10000 + d.toNat * 0x20 + s.toNat)
  | .ldH i d s => some (32, 0x20009c00 + i.toNat * 0x10000 + d.toNat * 0x20 + s.toNat)
  | .ldW i d s => some (32, 0x40009c00 + i.toNat * 0x10000 + d.toNat * 0x20 + s.toNat)
  | .ldD i d s => some (32, 0x60009c00 + i.toNat * 0x10000 + d.toNat * 0x20 + s.toNat)
  | .ldBu i d s => some (32, 0x80009c00 + i.toNat * 0x10000 + d.toNat * 0x20 + s.toNat)
  | .ldHu i d s => some (32, 0xa0009c00 + i.toNat * 0x10000 + d.toNat * 0x20 + s.toNat)
  | .ldWu i d s => some (32, 0xc0009c00 + i.toNat * 0x10000 + d.toNat * 0x20 + s.toNat)
  | .ldAcq i d s => some (32, 0xe0009c00 + i.toNat * 0x10000 + d.toNat * 0x20 + s.toNat)
  | .stB i d s => some (32, 0xa000 + i.toNat * 0x10000 + d.toNat * 0x20 + s.toNat)
  | .stH i d s => some (32, 0x2000a000 + i.toNat * 0x10000 + d.toNat * 0x20 + s.toNat)
  | .stW i d s => some (32, 0x4000a000 + i.toNat * 0x10000 + d.toNat * 0x20 + s.toNat)
  | .stD i d s => some (32, 0x6000a000 + i.toNat * 0x10000 + d.toNat * 0x20 + s.toNat)
  | .stRel i d s => some (32, 0xe000a000 + i.toNat * 0x10000 + d.toNat * 0x20 + s.toNat)
  | .ldf w x d s => some (32, 0xa400 + w.toNat * 0x40000 + x.toNat * 0x20000 + d.toNat * 0x20 + s.toNat)
  | .stf t w s => some (32, 0x100a400 + t.toNat * 0x8000000 + w.toNat * 0x40000 + s.toNat)
  | .amoAdd t w d s => some (32, 0x208a400 + t.toNat * 0x8000000 + w.toNat * 0x40000 + d.toNat * 0x20 + s.toNat)
  | .amoSwap t w d s => some (32, 0x218a400 + t.toNat * 0x8000000 + w.toNat * 0x40000 + d.toNat * 0x20 + s.toNat)
  | .amoCas t w d s => some (32, 0x228a400 + t.toNat * 0x8000000 + w.toNat * 0x40000 + d.toNat * 0x20 + s.toNat)
  | .amoMin t w d s => some (32, 0x238a400 + t.toNat * 0x8000000 + w.toNat * 0x40000 + d.toNat * 0x20 + s.toNat)
  | .amoMax t w d s => some (32, 0x248a400 + t.toNat * 0x8000000 + w.toNat * 0x40000 + d.toNat * 0x20 + s.toNat)
  | .amoMinu t w d s => some (32, 0x258a400 + t.toNat * 0x8000000 + w.toNat * 0x40000 + d.toNat * 0x20 + s.toNat)
  | .amoMaxu t w d s => some (32, 0x268a400 + t.toNat * 0x8000000 + w.toNat * 0x40000 + d.toNat * 0x20 + s.toNat)
  | .amoAnd t w d s => some (32, 0x278a400 + t.toNat * 0x8000000 + w.toNat * 0x40000 + d.toNat * 0x20 + s.toNat)
  | .amoOr t w d s => some (32, 0x288a400 + t.toNat * 0x8000000 + w.toNat * 0x40000 + d.toNat * 0x20 + s.toNat)
  | .amoXor t w d s => some (32, 0x298a400 + t.toNat * 0x8000000 + w.toNat * 0x40000 + d.toNat * 0x20 + s.toNat)
  | .amoFadd t d s => some (32, 0x2a8a400 + t.toNat * 0x8000000 + d.toNat * 0x20 + s.toNat)
  | .rupdAdd t w s => some (32, 0x308a400 + t.toNat * 0x8000000 + w.toNat * 0x40000 + s.toNat)
  | .rupdMin t w s => some (32, 0x338a400 + t.toNat * 0x8000000 + w.toNat * 0x40000 + s.toNat)
  | .rupdMax t w s => some (32, 0x348a400 + t.toNat * 0x8000000 + w.toNat * 0x40000 + s.toNat)
  | .rupdMinu t w s => some (32, 0x358a400 + t.toNat * 0x8000000 + w.toNat * 0x40000 + s.toNat)
  | .rupdMaxu t w s => some (32, 0x368a400 + t.toNat * 0x8000000 + w.toNat * 0x40000 + s.toNat)
  | .rupdAnd t w s => some (32, 0x378a400 + t.toNat * 0x8000000 + w.toNat * 0x40000 + s.toNat)
  | .rupdOr t w s => some (32, 0x388a400 + t.toNat * 0x8000000 + w.toNat * 0x40000 + s.toNat)
  | .rupdXor t w s => some (32, 0x398a400 + t.toNat * 0x8000000 + w.toNat * 0x40000 + s.toNat)
  | .rupdFadd t s => some (32, 0x3a8a400 + t.toNat * 0x8000000 + s.toNat)
  | .oxl d s => some (32, 0xa800 + d.toNat * 0x20 + s.toNat)
  | .oxm d s => some (32, 0x1a800 + d.toNat * 0x20 + s.toNat)
  | .oxr d s => some (32, 0x2a800 + d.toNat * 0x20 + s.toNat)
  | .ctlr c d => some (32, 0xac00 + c.toNat * 0x10000 + d.toNat * 0x20)
  | .ctlw c s => some (32, 0x2000ac00 + c.toNat * 0x10000 + s.toNat)
  | .ctls c d s => some (32, 0x4000ac00 + c.toNat * 0x10000 + d.toNat * 0x20 + s.toNat)
  | .ctlc c d s => some (32, 0x6000ac00 + c.toNat * 0x10000 + d.toNat * 0x20 + s.toNat)
  | .fence p k => some (32, 0x8000ac00 + p.toNat * 0x400000 + k.toNat * 0x40000)
  | .trap n => some (32, 0x8200ac00 + n.toNat * 0x10000)
  | .rett => some (32, 0x8400ac00)
  | .chkerr => some (32, 0x8600ac00)
  | .bkpt => some (32, 0x8800ac00)
  | .setvl d s => some (32, 0xb000 + d.toNat * 0x20 + s.toNat)
  | .setvli i d => some (32, 0x2000b000 + i.toNat * 0x10000 + d.toNat * 0x20)
  | .setvt d s => some (32, 0x4000b000 + d.toNat * 0x20 + s.toNat)
  | .vadd b x y m e d a => some (32, 0xb400 + b.toNat * 0x8000000 + x.toNat * 0x4000000 + y.toNat * 0x2000000 + m.toNat * 0x400000 + e.toNat * 0x200000 + d.toNat * 0x20 + a.toNat)
  | .vsub b x y m e d a => some (32, 0x1b400 + b.toNat * 0x8000000 + x.toNat * 0x4000000 + y.toNat * 0x2000000 + m.toNat * 0x400000 + e.toNat * 0x200000 + d.toNat * 0x20 + a.toNat)
  | .vmul b x y m e d a => some (32, 0x2b400 + b.toNat * 0x8000000 + x.toNat * 0x4000000 + y.toNat * 0x2000000 + m.toNat * 0x400000 + e.toNat * 0x200000 + d.toNat * 0x20 + a.toNat)
  | .vmulh b x y m e d a => some (32, 0x3b400 + b.toNat * 0x8000000 + x.toNat * 0x4000000 + y.toNat * 0x2000000 + m.toNat * 0x400000 + e.toNat * 0x200000 + d.toNat * 0x20 + a.toNat)
  | .vand b x y m e d a => some (32, 0x4b400 + b.toNat * 0x8000000 + x.toNat * 0x4000000 + y.toNat * 0x2000000 + m.toNat * 0x400000 + e.toNat * 0x200000 + d.toNat * 0x20 + a.toNat)
  | .vor b x y m e d a => some (32, 0x5b400 + b.toNat * 0x8000000 + x.toNat * 0x4000000 + y.toNat * 0x2000000 + m.toNat * 0x400000 + e.toNat * 0x200000 + d.toNat * 0x20 + a.toNat)
  | .vxor b x y m e d a => some (32, 0x6b400 + b.toNat * 0x8000000 + x.toNat * 0x4000000 + y.toNat * 0x2000000 + m.toNat * 0x400000 + e.toNat * 0x200000 + d.toNat * 0x20 + a.toNat)
  | .vsll b x y m e d a => some (32, 0x7b400 + b.toNat * 0x8000000 + x.toNat * 0x4000000 + y.toNat * 0x2000000 + m.toNat * 0x400000 + e.toNat * 0x200000 + d.toNat * 0x20 + a.toNat)
  | .vsrl b x y m e d a => some (32, 0x8b400 + b.toNat * 0x8000000 + x.toNat * 0x4000000 + y.toNat * 0x2000000 + m.toNat * 0x400000 + e.toNat * 0x200000 + d.toNat * 0x20 + a.toNat)
  | .vsra b x y m e d a => some (32, 0x9b400 + b.toNat * 0x8000000 + x.toNat * 0x4000000 + y.toNat * 0x2000000 + m.toNat * 0x400000 + e.toNat * 0x200000 + d.toNat * 0x20 + a.toNat)
  | .vmin b x y m e d a => some (32, 0xab400 + b.toNat * 0x8000000 + x.toNat * 0x4000000 + y.toNat * 0x2000000 + m.toNat * 0x400000 + e.toNat * 0x200000 + d.toNat * 0x20 + a.toNat)
  | .vmax b x y m e d a => some (32, 0xbb400 + b.toNat * 0x8000000 + x.toNat * 0x4000000 + y.toNat * 0x2000000 + m.toNat * 0x400000 + e.toNat * 0x200000 + d.toNat * 0x20 + a.toNat)
  | .vminu b x y m e d a => some (32, 0xcb400 + b.toNat * 0x8000000 + x.toNat * 0x4000000 + y.toNat * 0x2000000 + m.toNat * 0x400000 + e.toNat * 0x200000 + d.toNat * 0x20 + a.toNat)
  | .vmaxu b x y m e d a => some (32, 0xdb400 + b.toNat * 0x8000000 + x.toNat * 0x4000000 + y.toNat * 0x2000000 + m.toNat * 0x400000 + e.toNat * 0x200000 + d.toNat * 0x20 + a.toNat)
  | .vabsd b x y m e d a => some (32, 0xeb400 + b.toNat * 0x8000000 + x.toNat * 0x4000000 + y.toNat * 0x2000000 + m.toNat * 0x400000 + e.toNat * 0x200000 + d.toNat * 0x20 + a.toNat)
  | .vsadd b x y m e d a => some (32, 0xfb400 + b.toNat * 0x8000000 + x.toNat * 0x4000000 + y.toNat * 0x2000000 + m.toNat * 0x400000 + e.toNat * 0x200000 + d.toNat * 0x20 + a.toNat)
  | .vssub b x y m e d a => some (32, 0x10b400 + b.toNat * 0x8000000 + x.toNat * 0x4000000 + y.toNat * 0x2000000 + m.toNat * 0x400000 + e.toNat * 0x200000 + d.toNat * 0x20 + a.toNat)
  | .vfadd b x y m e d a => some (32, 0xb800 + b.toNat * 0x8000000 + x.toNat * 0x4000000 + y.toNat * 0x2000000 + m.toNat * 0x400000 + e.toNat * 0x200000 + d.toNat * 0x20 + a.toNat)
  | .vfsub b x y m e d a => some (32, 0x1b800 + b.toNat * 0x8000000 + x.toNat * 0x4000000 + y.toNat * 0x2000000 + m.toNat * 0x400000 + e.toNat * 0x200000 + d.toNat * 0x20 + a.toNat)
  | .vfmul b x y m e d a => some (32, 0x2b800 + b.toNat * 0x8000000 + x.toNat * 0x4000000 + y.toNat * 0x2000000 + m.toNat * 0x400000 + e.toNat * 0x200000 + d.toNat * 0x20 + a.toNat)
  | .vfma b x y m e d a => some (32, 0x3b800 + b.toNat * 0x8000000 + x.toNat * 0x4000000 + y.toNat * 0x2000000 + m.toNat * 0x400000 + e.toNat * 0x200000 + d.toNat * 0x20 + a.toNat)
  | .vfms b x y m e d a => some (32, 0x4b800 + b.toNat * 0x8000000 + x.toNat * 0x4000000 + y.toNat * 0x2000000 + m.toNat * 0x400000 + e.toNat * 0x200000 + d.toNat * 0x20 + a.toNat)
  | .vfnma b x y m e d a => some (32, 0x5b800 + b.toNat * 0x8000000 + x.toNat * 0x4000000 + y.toNat * 0x2000000 + m.toNat * 0x400000 + e.toNat * 0x200000 + d.toNat * 0x20 + a.toNat)
  | .vfdiv b x y m e d a => some (32, 0x6b800 + b.toNat * 0x8000000 + x.toNat * 0x4000000 + y.toNat * 0x2000000 + m.toNat * 0x400000 + e.toNat * 0x200000 + d.toNat * 0x20 + a.toNat)
  | .vfsqrt x m e d a => some (32, 0x7b800 + x.toNat * 0x4000000 + m.toNat * 0x400000 + e.toNat * 0x200000 + d.toNat * 0x20 + a.toNat)
  | .vfmin b x y m e d a => some (32, 0x8b800 + b.toNat * 0x8000000 + x.toNat * 0x4000000 + y.toNat * 0x2000000 + m.toNat * 0x400000 + e.toNat * 0x200000 + d.toNat * 0x20 + a.toNat)
  | .vfmax b x y m e d a => some (32, 0x9b800 + b.toNat * 0x8000000 + x.toNat * 0x4000000 + y.toNat * 0x2000000 + m.toNat * 0x400000 + e.toNat * 0x200000 + d.toNat * 0x20 + a.toNat)
  | .vfabs x m e d a => some (32, 0xab800 + x.toNat * 0x4000000 + m.toNat * 0x400000 + e.toNat * 0x200000 + d.toNat * 0x20 + a.toNat)
  | .vfneg x m e d a => some (32, 0xbb800 + x.toNat * 0x4000000 + m.toNat * 0x400000 + e.toNat * 0x200000 + d.toNat * 0x20 + a.toNat)
  | .vfaddStatic b x y m e r d a => some (32, 0x10b800 + b.toNat * 0x8000000 + x.toNat * 0x4000000 + y.toNat * 0x2000000 + m.toNat * 0x400000 + e.toNat * 0x200000 + r.toNat * 0x10000 + d.toNat * 0x20 + a.toNat)
  | .vfsubStatic b x y m e r d a => some (32, 0x14b800 + b.toNat * 0x8000000 + x.toNat * 0x4000000 + y.toNat * 0x2000000 + m.toNat * 0x400000 + e.toNat * 0x200000 + r.toNat * 0x10000 + d.toNat * 0x20 + a.toNat)
  | .vfmulStatic b x y m e r d a => some (32, 0x18b800 + b.toNat * 0x8000000 + x.toNat * 0x4000000 + y.toNat * 0x2000000 + m.toNat * 0x400000 + e.toNat * 0x200000 + r.toNat * 0x10000 + d.toNat * 0x20 + a.toNat)
  | .vfmaStatic b x y m e r d a => some (32, 0x1cb800 + b.toNat * 0x8000000 + x.toNat * 0x4000000 + y.toNat * 0x2000000 + m.toNat * 0x400000 + e.toNat * 0x200000 + r.toNat * 0x10000 + d.toNat * 0x20 + a.toNat)
  | .vcmpEq b x y m e d a => some (32, 0xbc00 + b.toNat * 0x8000000 + x.toNat * 0x4000000 + y.toNat * 0x2000000 + m.toNat * 0x400000 + e.toNat * 0x200000 + d.toNat * 0x20 + a.toNat)
  | .vcmpNe b x y m e d a => some (32, 0x1bc00 + b.toNat * 0x8000000 + x.toNat * 0x4000000 + y.toNat * 0x2000000 + m.toNat * 0x400000 + e.toNat * 0x200000 + d.toNat * 0x20 + a.toNat)
  | .vcmpLt b x y m e d a => some (32, 0x2bc00 + b.toNat * 0x8000000 + x.toNat * 0x4000000 + y.toNat * 0x2000000 + m.toNat * 0x400000 + e.toNat * 0x200000 + d.toNat * 0x20 + a.toNat)
  | .vcmpLe b x y m e d a => some (32, 0x3bc00 + b.toNat * 0x8000000 + x.toNat * 0x4000000 + y.toNat * 0x2000000 + m.toNat * 0x400000 + e.toNat * 0x200000 + d.toNat * 0x20 + a.toNat)
  | .vcmpGt b x y m e d a => some (32, 0x4bc00 + b.toNat * 0x8000000 + x.toNat * 0x4000000 + y.toNat * 0x2000000 + m.toNat * 0x400000 + e.toNat * 0x200000 + d.toNat * 0x20 + a.toNat)
  | .vcmpGe b x y m e d a => some (32, 0x5bc00 + b.toNat * 0x8000000 + x.toNat * 0x4000000 + y.toNat * 0x2000000 + m.toNat * 0x400000 + e.toNat * 0x200000 + d.toNat * 0x20 + a.toNat)
  | .vcmpLtu b x y m e d a => some (32, 0x6bc00 + b.toNat * 0x8000000 + x.toNat * 0x4000000 + y.toNat * 0x2000000 + m.toNat * 0x400000 + e.toNat * 0x200000 + d.toNat * 0x20 + a.toNat)
  | .vcmpLeu b x y m e d a => some (32, 0x7bc00 + b.toNat * 0x8000000 + x.toNat * 0x4000000 + y.toNat * 0x2000000 + m.toNat * 0x400000 + e.toNat * 0x200000 + d.toNat * 0x20 + a.toNat)
  | .vcmpGtu b x y m e d a => some (32, 0x8bc00 + b.toNat * 0x8000000 + x.toNat * 0x4000000 + y.toNat * 0x2000000 + m.toNat * 0x400000 + e.toNat * 0x200000 + d.toNat * 0x20 + a.toNat)
  | .vcmpGeu b x y m e d a => some (32, 0x9bc00 + b.toNat * 0x8000000 + x.toNat * 0x4000000 + y.toNat * 0x2000000 + m.toNat * 0x400000 + e.toNat * 0x200000 + d.toNat * 0x20 + a.toNat)
  | .vfcmpEq b x y m e d a => some (32, 0xabc00 + b.toNat * 0x8000000 + x.toNat * 0x4000000 + y.toNat * 0x2000000 + m.toNat * 0x400000 + e.toNat * 0x200000 + d.toNat * 0x20 + a.toNat)
  | .vfcmpNe b x y m e d a => some (32, 0xbbc00 + b.toNat * 0x8000000 + x.toNat * 0x4000000 + y.toNat * 0x2000000 + m.toNat * 0x400000 + e.toNat * 0x200000 + d.toNat * 0x20 + a.toNat)
  | .vfcmpLt b x y m e d a => some (32, 0xcbc00 + b.toNat * 0x8000000 + x.toNat * 0x4000000 + y.toNat * 0x2000000 + m.toNat * 0x400000 + e.toNat * 0x200000 + d.toNat * 0x20 + a.toNat)
  | .vfcmpLe b x y m e d a => some (32, 0xdbc00 + b.toNat * 0x8000000 + x.toNat * 0x4000000 + y.toNat * 0x2000000 + m.toNat * 0x400000 + e.toNat * 0x200000 + d.toNat * 0x20 + a.toNat)
  | .vfcmpGt b x y m e d a => some (32, 0xebc00 + b.toNat * 0x8000000 + x.toNat * 0x4000000 + y.toNat * 0x2000000 + m.toNat * 0x400000 + e.toNat * 0x200000 + d.toNat * 0x20 + a.toNat)
  | .vfcmpGe b x y m e d a => some (32, 0xfbc00 + b.toNat * 0x8000000 + x.toNat * 0x4000000 + y.toNat * 0x2000000 + m.toNat * 0x400000 + e.toNat * 0x200000 + d.toNat * 0x20 + a.toNat)
  | .vfcmpUn b x y m e d a => some (32, 0x10bc00 + b.toNat * 0x8000000 + x.toNat * 0x4000000 + y.toNat * 0x2000000 + m.toNat * 0x400000 + e.toNat * 0x200000 + d.toNat * 0x20 + a.toNat)
  | .mand b d a => some (32, 0x11bc00 + b.toNat * 0x8000000 + d.toNat * 0x20 + a.toNat)
  | .mor b d a => some (32, 0x12bc00 + b.toNat * 0x8000000 + d.toNat * 0x20 + a.toNat)
  | .mxor b d a => some (32, 0x13bc00 + b.toNat * 0x8000000 + d.toNat * 0x20 + a.toNat)
  | .mandn b d a => some (32, 0x14bc00 + b.toNat * 0x8000000 + d.toNat * 0x20 + a.toNat)
  | .mnot d a => some (32, 0x15bc00 + d.toNat * 0x20 + a.toNat)
  | .msetn d s => some (32, 0x16bc00 + d.toNat * 0x20 + s.toNat)
  | .mpopc m e d a => some (32, 0x17bc00 + m.toNat * 0x400000 + e.toNat * 0x200000 + d.toNat * 0x20 + a.toNat)
  | .mfirst m e d a => some (32, 0x18bc00 + m.toNat * 0x400000 + e.toNat * 0x200000 + d.toNat * 0x20 + a.toNat)
  | .mmove d a => some (32, 0x19bc00 + d.toNat * 0x20 + a.toNat)
  | .vsel b x y m d a => some (32, 0x20c000 + b.toNat * 0x8000000 + x.toNat * 0x4000000 + y.toNat * 0x2000000 + m.toNat * 0x400000 + d.toNat * 0x20 + a.toNat)
  | .vmv x m e d a => some (32, 0x1c000 + x.toNat * 0x4000000 + m.toNat * 0x400000 + e.toNat * 0x200000 + d.toNat * 0x20 + a.toNat)
  | .vmvx m e d s => some (32, 0x2c000 + m.toNat * 0x400000 + e.toNat * 0x200000 + d.toNat * 0x20 + s.toNat)
  | .vext t x d a => some (32, 0x3c000 + t.toNat * 0x8000000 + x.toNat * 0x4000000 + d.toNat * 0x20 + a.toNat)
  | .vslideup t x m e d a => some (32, 0x4c000 + t.toNat * 0x8000000 + x.toNat * 0x4000000 + m.toNat * 0x400000 + e.toNat * 0x200000 + d.toNat * 0x20 + a.toNat)
  | .vslidedn t x m e d a => some (32, 0x5c000 + t.toNat * 0x8000000 + x.toNat * 0x4000000 + m.toNat * 0x400000 + e.toNat * 0x200000 + d.toNat * 0x20 + a.toNat)
  | .vgath b x y m e d a => some (32, 0x6c000 + b.toNat * 0x8000000 + x.toNat * 0x4000000 + y.toNat * 0x2000000 + m.toNat * 0x400000 + e.toNat * 0x200000 + d.toNat * 0x20 + a.toNat)
  | .vcomp x m e d a => some (32, 0x7c000 + x.toNat * 0x4000000 + m.toNat * 0x400000 + e.toNat * 0x200000 + d.toNat * 0x20 + a.toNat)
  | .vexp x m e d a => some (32, 0x8c000 + x.toNat * 0x4000000 + m.toNat * 0x400000 + e.toNat * 0x200000 + d.toNat * 0x20 + a.toNat)
  | .viota m e d => some (32, 0x9c000 + m.toNat * 0x400000 + e.toNat * 0x200000 + d.toNat * 0x20)
  | .vredsum x m e d a => some (32, 0xac000 + x.toNat * 0x4000000 + m.toNat * 0x400000 + e.toNat * 0x200000 + d.toNat * 0x20 + a.toNat)
  | .vredmin x m e d a => some (32, 0xbc000 + x.toNat * 0x4000000 + m.toNat * 0x400000 + e.toNat * 0x200000 + d.toNat * 0x20 + a.toNat)
  | .vredmax x m e d a => some (32, 0xcc000 + x.toNat * 0x4000000 + m.toNat * 0x400000 + e.toNat * 0x200000 + d.toNat * 0x20 + a.toNat)
  | .vfredsum x m e d a => some (32, 0xdc000 + x.toNat * 0x4000000 + m.toNat * 0x400000 + e.toNat * 0x200000 + d.toNat * 0x20 + a.toNat)
  | .vcvt g x m e d a => some (32, 0xc400 + g.toNat * 0x8000000 + x.toNat * 0x4000000 + m.toNat * 0x400000 + e.toNat * 0x200000 + d.toNat * 0x20 + a.toNat)
  | .vcvtStatic g x m e r d a => some (32, 0x4c400 + g.toNat * 0x8000000 + x.toNat * 0x4000000 + m.toNat * 0x400000 + e.toNat * 0x200000 + r.toNat * 0x10000 + d.toNat * 0x20 + a.toNat)
  | .vbfpxX x d a => some (32, 0x8c400 + x.toNat * 0x4000000 + d.toNat * 0x20 + a.toNat)
  | .vbfpxI x d a => some (32, 0x9c400 + x.toNat * 0x4000000 + d.toNat * 0x20 + a.toNat)
  | .vld o v m e d s => some (32, 0xc800 + o.toNat * 0x4000000 + v.toNat * 0x2000000 + m.toNat * 0x400000 + e.toNat * 0x200000 + d.toNat * 0x20 + s.toNat)
  | .vlds o v m e k d s => some (32, 0x1c800 + o.toNat * 0x4000000 + v.toNat * 0x2000000 + m.toNat * 0x400000 + e.toNat * 0x200000 + k.toNat * 0x40000 + d.toNat * 0x20 + s.toNat)
  | .vldx i o v m e d s => some (32, 0x2c800 + i.toNat * 0x8000000 + o.toNat * 0x4000000 + v.toNat * 0x2000000 + m.toNat * 0x400000 + e.toNat * 0x200000 + d.toNat * 0x20 + s.toNat)
  | .vst o v m e d s => some (32, 0xcc00 + o.toNat * 0x4000000 + v.toNat * 0x2000000 + m.toNat * 0x400000 + e.toNat * 0x200000 + d.toNat * 0x20 + s.toNat)
  | .vsts o v m e k d s => some (32, 0x1cc00 + o.toNat * 0x4000000 + v.toNat * 0x2000000 + m.toNat * 0x400000 + e.toNat * 0x200000 + k.toNat * 0x40000 + d.toNat * 0x20 + s.toNat)
  | .vstx i o v m e d s => some (32, 0x2cc00 + i.toNat * 0x8000000 + o.toNat * 0x4000000 + v.toNat * 0x2000000 + m.toNat * 0x400000 + e.toNat * 0x200000 + d.toNat * 0x20 + s.toNat)
  | .mzero c => some (32, 0xd000 + c.toNat * 0x100000)
  | .minit t c s => some (32, 0x100d000 + t.toNat * 0x8000000 + c.toNat * 0x100000 + s.toNat)
  | .mma t e c a b x s => some (32, 0x200d000 + t.toNat * 0x8000000 + e.toNat * 0x200000 + c.toNat * 0x100000 + a.toNat * 0x80000 + b.toNat * 0x40000 + x.toNat * 0x20000 + s.toNat)
  | .mmab t e c s => some (32, 0x300d000 + t.toNat * 0x8000000 + e.toNat * 0x200000 + c.toNat * 0x100000 + s.toNat)
  | .mrowsum c d => some (32, 0x400d000 + c.toNat * 0x100000 + d.toNat * 0x20)
  | .mdrainReg c d s => some (32, 0x500d000 + c.toNat * 0x100000 + d.toNat * 0x20 + s.toNat)
  | .mdrainSpad c s => some (32, 0x501d000 + c.toNat * 0x100000 + s.toNat)
  | .mdrainqReg t e c d => some (32, 0x600d000 + t.toNat * 0x8000000 + e.toNat * 0x200000 + c.toNat * 0x100000 + d.toNat * 0x20)
  | .mdrainqSpad t e c s => some (32, 0x601d000 + t.toNat * 0x8000000 + e.toNat * 0x200000 + c.toNat * 0x100000 + s.toNat)
  | .cpy y d s => some (32, 0xd400 + y.toNat * 0x200000 + d.toNat * 0x20 + s.toNat)
  | .cpyrAdd y d s => some (32, 0x100d400 + y.toNat * 0x200000 + d.toNat * 0x20 + s.toNat)
  | .cpyrFadd y d s => some (32, 0x102d400 + y.toNat * 0x200000 + d.toNat * 0x20 + s.toNat)
  | .cpyrBfadd y d s => some (32, 0x104d400 + y.toNat * 0x200000 + d.toNat * 0x20 + s.toNat)
  | .cpyrMin y d s => some (32, 0x106d400 + y.toNat * 0x200000 + d.toNat * 0x20 + s.toNat)
  | .cpyrMax y d s => some (32, 0x108d400 + y.toNat * 0x200000 + d.toNat * 0x20 + s.toNat)
  | .cpyrFmin y d s => some (32, 0x10ad400 + y.toNat * 0x200000 + d.toNat * 0x20 + s.toNat)
  | .cpyrFmax y d s => some (32, 0x10cd400 + y.toNat * 0x200000 + d.toNat * 0x20 + s.toNat)
  | .cpyf t y d => some (32, 0x200d400 + t.toNat * 0x8000000 + y.toNat * 0x200000 + d.toNat * 0x20)
  | .cpyMc h y d s => some (32, 0x300d400 + h.toNat * 0x8000000 + y.toNat * 0x200000 + d.toNat * 0x20 + s.toNat)
  | .send p s => some (32, 0xd800 + p.toNat * 0x8000000 + s.toNat)
  | .recv p d => some (32, 0x1d800 + p.toNat * 0x8000000 + d.toNat * 0x20)
  | .vsend p s => some (32, 0x2d800 + p.toNat * 0x8000000 + s.toNat)
  | .vrecv p d => some (32, 0x3d800 + p.toNat * 0x8000000 + d.toNat * 0x20)
  | .sende p => some (32, 0x4d800 + p.toNat * 0x8000000)
  | .recve p d s => some (32, 0x5d800 + p.toNat * 0x8000000 + d.toNat * 0x20 + s.toNat)
  | .portq p d => some (32, 0x6d800 + p.toNat * 0x8000000 + d.toNat * 0x20)
  | .errand d s => some (32, 0xdc00 + d.toNat * 0x20 + s.toNat)
  | .errwait d s => some (32, 0x1dc00 + d.toNat * 0x20 + s.toNat)
  | .reply s => some (32, 0x10dc00 + s.toNat)
  | .fins t d s => some (32, 0x11dc00 + t.toNat * 0x8000000 + d.toNat * 0x20 + s.toNat)
  | .gnew h c d s => some (32, 0xe000 + h.toNat * 0x8000000 + c.toNat * 0x100000 + d.toNat * 0x20 + s.toNat)
  | .gjoin h d s => some (32, 0x80e000 + h.toNat * 0x8000000 + d.toNat * 0x20 + s.toNat)
  | .gleave h d => some (32, 0x100e000 + h.toNat * 0x8000000 + d.toNat * 0x20)
  | .garr h s => some (32, 0x180e000 + h.toNat * 0x8000000 + s.toNat)
  | .garrMask h k => some (32, 0x181e000 + h.toNat * 0x8000000 + k.toNat)
  | .gbar h d => some (32, 0x200e000 + h.toNat * 0x8000000 + d.toNat * 0x20)
  | .gwait h d s => some (32, 0x280e000 + h.toNat * 0x8000000 + d.toNat * 0x20 + s.toNat)
  | .gvoteAll h d s => some (32, 0x300e000 + h.toNat * 0x8000000 + d.toNat * 0x20 + s.toNat)
  | .gvoteAny h d s => some (32, 0x310e000 + h.toNat * 0x8000000 + d.toNat * 0x20 + s.toNat)
  | .gvoteCount h d s => some (32, 0x320e000 + h.toNat * 0x8000000 + d.toNat * 0x20 + s.toNat)
  | .gvoteAllMask h d k => some (32, 0x301e000 + h.toNat * 0x8000000 + d.toNat * 0x20 + k.toNat)
  | .gvoteAnyMask h d k => some (32, 0x311e000 + h.toNat * 0x8000000 + d.toNat * 0x20 + k.toNat)
  | .gvoteCountMask h d k => some (32, 0x321e000 + h.toNat * 0x8000000 + d.toNat * 0x20 + k.toNat)
  | .gredSum h y d s => some (32, 0x380e000 + h.toNat * 0x8000000 + y.toNat * 0x20000 + d.toNat * 0x20 + s.toNat)
  | .gredMin h y d s => some (32, 0x390e000 + h.toNat * 0x8000000 + y.toNat * 0x20000 + d.toNat * 0x20 + s.toNat)
  | .gredMax h y d s => some (32, 0x3a0e000 + h.toNat * 0x8000000 + y.toNat * 0x20000 + d.toNat * 0x20 + s.toNat)
  | .ginfo h d => some (32, 0x400e000 + h.toNat * 0x8000000 + d.toNat * 0x20)
  | .swset t d s => some (32, 0xe400 + t.toNat * 0x8000000 + d.toNat * 0x20 + s.toNat)
  | .swwait t d s => some (32, 0x1e400 + t.toNat * 0x8000000 + d.toNat * 0x20 + s.toNat)
  | .swadd t s => some (32, 0x2e400 + t.toNat * 0x8000000 + s.toNat)
  | .swread d s => some (32, 0x3e400 + d.toNat * 0x20 + s.toNat)
  | .temit s => some (32, 0xe800 + s.toNat)
  | .tmark i => some (32, 0x2000e800 + i.toNat * 0x10000)
  | .rqpush t d s => some (32, 0xec00 + t.toNat * 0x8000000 + d.toNat * 0x20 + s.toNat)
  | .rqpop d => some (32, 0x1ec00 + d.toNat * 0x20)
  | .slotgo t s => some (32, 0x2ec00 + t.toNat * 0x8000000 + s.toNat)
  | .slotstop t s => some (32, 0x3ec00 + t.toNat * 0x8000000 + s.toNat)
  | .migrate d s => some (32, 0x4ec00 + d.toNat * 0x20 + s.toNat)
  | .fwdset t d s => some (32, 0x5ec00 + t.toNat * 0x8000000 + d.toNat * 0x20 + s.toNat)
  | .timerset t s => some (32, 0x6ec00 + t.toNat * 0x8000000 + s.toNat)
  | .parkwait d s => some (32, 0x7ec00 + d.toNat * 0x20 + s.toNat)
  | .hint i j => some (32, 0xfc00 + i.toNat * 0x10000 + j.toNat)
  | .nop => some (32, 0xfc00)
  | .cMv d s => some (16, 0x800 + d.toNat * 0x40 + s.toNat)
  | .cAdd d s => some (16, 0x1000 + d.toNat * 0x40 + s.toNat)
  | .cAddi d i => some (16, 0x1800 + d.toNat * 0x40 + i.toNat)
  | .cLd d i => some (16, 0x2000 + d.toNat * 0x40 + i.toNat)
  | .cSt d i => some (16, 0x2800 + d.toNat * 0x40 + i.toNat)
  | .cBeqz d o => some (16, 0x3000 + d.toNat * 0x40 + o.toNat)
  | .cBnez d o => some (16, 0x3800 + d.toNat * 0x40 + o.toNat)
  | .cJ o => some (16, 0x4000 + o.toNat)
  | .cSend p s => some (16, 0x4800 + p.toNat * 0x40 + s.toNat)
  | .cRecv d p => some (16, 0x5000 + d.toNat * 0x40 + p.toNat)
  | .cLdhi d i => some (16, 0x5800 + d.toNat * 0x40 + i.toNat)
  | .cNop => some (16, 0x6000)
  | .vtWrite _ _ _ => none
  | .vlWrite _ _ _ => none
  | .xclassWrite _ _ _ => none
  | .xmWrite _ _ _ => none
  | .fmaskWrite _ _ _ => none
  | .statusWrite _ _ _ => none
  | .mslotWrite _ _ _ => none
  | .bfmtWrite _ _ _ => none
  | .perfselWrite _ _ _ => none
  | .probeDelayWrite _ _ => none
  | .decodeDeadlineWrite _ _ => none
  | .crateWrite _ _ _ => none
  | .injectDropFragment _ _ => none
  | .injectHoldFragment _ _ _ => none
  | .injectCheckerMismatch _ => none
  | .injectDoubleMismatch _ => none
  | .injectPoisonGranule _ => none
  | .injectHoldRelease _ _ => none
  | .controlRegisterWrite _ _ _ _ => none
  | .slotImageWrite _ _ _ _ => none
  | .watchdogPass _ _ => none
  | .timerExpiry _ _ => none
  | .parkDeadlineExpiry _ _ => none
  | .watchdogEvent _ => none
  | .migrateEvent _ => none
  | .timerEvent _ => none
  | .wakeEvent _ => none
  | .unitEnd => none
  | .launch => none
  | .abort => none
  | .captureStart => none
  | .captureStop => none
  | .manageCreate => none
  | .manageDestroy => none
  | .manageSetfield => none
  | .manageMap => none
  | .manageUnmap => none
  | .manageRebind => none
  | .manageRead => none
  | .manageBbclear => none
  | .manageHalt => none
  | .manageResume => none
  | .assistAnswerTranslation => none
  | .assistAnswerGrowth => none
  | .assistAnswerReel => none
  | .assistAnswerLink => none
  | .assistAnswerDecode => none
  | .assistAnswerMigration => none
  | .attest => none
  | .returnChannelRoom => none
  | .fragmentArrival _ => none
  | .heldFragmentNack _ _ => none
  | .decodeDeadlineExpiry _ _ => none
  | .filterEntryExpiry _ _ => none
  | .shadowTimerExpiry _ _ => none
  | .done _ _ => none
  | .release _ _ => none
  | .nack _ _ => none
  | .tokens _ _ => none
  | .credit _ _ => none
  | .ended _ _ => none
  | .copy _ _ => none
  | .placed _ _ => none
  | .errandFrameExecution _ => none
  | .replyMessage _ _ => none
  | .homeAccess _ _ => none
  | .rupdApply _ _ => none
  | .farReply _ _ => none
  | .serverRead _ _ => none
  | .serverWrite _ _ => none
  | .serverZero _ _ => none
  | .xlate _ _ => none
  | .probeLaunch _ _ => none
  | .probe _ _ => none
  | .grow _ _ => none
  | .spillClaimReply _ _ => none
  | .reelCreate _ _ => none
  | .reelJoin _ _ => none
  | .reelLeave _ _ => none
  | .reelArrive _ _ => none
  | .reelWait _ _ => none
  | .reelInfo _ _ => none
  | .reelStatus _ _ => none
  | .reelResult _ _ => none
  | .reelDepart _ _ => none
  | .reelMoved _ _ => none
  | .reelGang _ _ => none
  | .reelExpand _ _ => none
  | .forwardingExpiry _ => none
  | .pageMigration _ _ _ _ => none
  | .migrationCopy _ => none
  | .migrationComplete _ => none
  | .decodeTableUpdate _ => none
  | .linkStepDown _ _ _ => none
  | .linkStepUp _ => none
  | .traceDrain _ => none
  | .gapRecord _ => none
  | .throttleStepUp _ _ => none
  | .throttleStepDown _ _ => none
  | .overcurrentThrottle => none
  | .thermalTrip _ _ => none
  | .powerOnReset => none
  | .warmReset => none
  | .coreRailReset => none
  | .boot => none
  | .scbaseWrite _ => none
  | .rcbaseWrite _ => none
  | .bboxRead => none
  | .illegal _ => none
  | .voltaOrder _ _ => none
  | .routerFragment _ _ => none
  | .linkFlitRetry _ _ => none
  | .retrainComplete _ => none
  | .spillRead _ _ => none
  | .tsWrap _ => none

/-- The halfwords of an encoded instruction, first halfword first (R109); none for an event row. -/
def encode (i : Instr) : List (BitVec 16) :=
  match encodeWord i with
  | none => []
  | some (n, w) =>
    if n = 16 then [BitVec.ofNat 16 w] else [BitVec.ofNat 16 w, BitVec.ofNat 16 (w / 65536)]

/-- An event row: a step of the part that no encoding names. -/
def Instr.isEvent (i : Instr) : Bool := (encodeWord i).isNone

/-- What EVAL holds where an instruction's own encoding is reported: the 32-bit word, or the halfword zero-extended
(R123). -/
def encWord (i : Instr) : Nat :=
  match encodeWord i with
  | none => 0
  | some (_, w) => w

/-- The length of an instruction in bytes; an event row has none. -/
def Instr.length (i : Instr) : Nat :=
  match encodeWord i with
  | none => 0
  | some (n, _) => n / 8

/-- The instruction the decoder reads from the bits `w` of a row of the opcode table. -/
def decodeTableWord (nbits w : Nat) : Option Instr :=
  let v := w % 2 ^ nbits
  match decode [BitVec.ofNat 16 v, BitVec.ofNat 16 (v / 65536)] with
  | .ok (i, _) => some i
  | .error _ => none

end

end Sys2Proof
end

