-- ==== Sys2Proof/Machine/Bits.lean ====
section
/-!
DEFINITION. Bit fields, sign extension, byte order and sorted maps: the helpers every other file of the machine uses.
-/
namespace Sys2Proof.Machine

/-- SignExtend(v, n) of 02_number_formats.md R100: the low `n` bits of `v` read as two's complement. -/
def signExtend (v n : Nat) : Int :=
  if n = 0 then 0
  else if v % 2 ^ n < 2 ^ (n - 1) then (v % 2 ^ n : Nat) else (v % 2 ^ n : Nat) - (2 ^ n : Nat)

/-- The low `n` bits of an unbounded integer. -/
def wrapInt (i : Int) (n : Nat) : Nat := (i % (2 ^ n : Nat)).toNat

/-- An unbounded integer's low 64 bits (00_scope.md R10). -/
def word (i : Int) : Word := BitVec.ofInt 64 i

/-- SignExtend(v, n) as a 64-bit value. -/
def sextWord (v n : Nat) : Word := word (signExtend v n)

/-- Field [hi:lo] of a bit vector, as a number. -/
def bits {w : Nat} (x : BitVec w) (hi lo : Nat) : Nat := x.toNat / 2 ^ lo % 2 ^ (hi + 1 - lo)

/-- Bit `i` of a bit vector. -/
def bit {w : Nat} (x : BitVec w) (i : Nat) : Bool := x.getLsbD i

/-- A bit vector with field [hi:lo] replaced by the low bits of `v`. -/
def setBits {w : Nat} (x : BitVec w) (hi lo v : Nat) : BitVec w :=
  let n := 2 ^ (hi + 1 - lo)
  BitVec.ofNat w (x.toNat - x.toNat / 2 ^ lo % n * 2 ^ lo + v % n * 2 ^ lo)

/-- A bit vector with bit `i` set to `b`. -/
def setBit {w : Nat} (x : BitVec w) (i : Nat) (b : Bool) : BitVec w :=
  if b then x ||| BitVec.ofNat w (2 ^ i) else x &&& ~~~ BitVec.ofNat w (2 ^ i)

/-- 1 for true. -/
def b2n (b : Bool) : Nat := if b then 1 else 0

/-- 1 for true, as a word. -/
def b2w (b : Bool) : Word := if b then 1 else 0

/-- The `n` bytes of `v`, byte 0 first (00_scope.md R8). -/
def toBytes : Nat → Nat → List Byte
  | 0, _ => []
  | n + 1, v => BitVec.ofNat 8 v :: toBytes n (v / 256)

/-- The number whose bytes are listed, byte 0 first. -/
def ofBytes : List Byte → Nat
  | [] => 0
  | b :: r => b.toNat + 256 * ofBytes r

/-- The little-endian words of a byte list, 8 bytes each, the last padded with zeros. -/
def toWords : List Byte → List Word
  | [] => []
  | [b0] => [BitVec.ofNat 64 (ofBytes [b0])]
  | [b0, b1] => [BitVec.ofNat 64 (ofBytes [b0, b1])]
  | [b0, b1, b2] => [BitVec.ofNat 64 (ofBytes [b0, b1, b2])]
  | [b0, b1, b2, b3] => [BitVec.ofNat 64 (ofBytes [b0, b1, b2, b3])]
  | [b0, b1, b2, b3, b4] => [BitVec.ofNat 64 (ofBytes [b0, b1, b2, b3, b4])]
  | [b0, b1, b2, b3, b4, b5] => [BitVec.ofNat 64 (ofBytes [b0, b1, b2, b3, b4, b5])]
  | [b0, b1, b2, b3, b4, b5, b6] => [BitVec.ofNat 64 (ofBytes [b0, b1, b2, b3, b4, b5, b6])]
  | b0 :: b1 :: b2 :: b3 :: b4 :: b5 :: b6 :: b7 :: r =>
    BitVec.ofNat 64 (ofBytes [b0, b1, b2, b3, b4, b5, b6, b7]) :: toWords r

/-- The bytes of words, little-endian. -/
def ofWords (l : List Word) : List Byte := l.flatMap fun w => toBytes 8 w.toNat

/-- Word `i` of a list, 0 beyond its end. -/
def wordAt (l : List Word) (i : Nat) : Word := l.getD i 0

/-- ceil(a / b). -/
def ceilDiv (a b : Nat) : Nat := if b = 0 then 0 else (a + b - 1) / b

/-- The number of 1 bits below position `n` of a mask. -/
def countOnes : Nat → Nat → Nat
  | 0, _ => 0
  | n + 1, m => countOnes n (m / 2) + m % 2

/-- The number of 1 bits of a mask below `n`, skipping quickly over an empty rest. -/
def popCount (n m : Nat) : Nat := countOnes n m

/-! ### Maps as sorted lists of key and value -/

/-- The value at a key, or `d` where none is listed. -/
def mapGet {α : Type} (d : α) : List (Nat × α) → Nat → α
  | [], _ => d
  | (k, a) :: r, n => if k = n then a else mapGet d r n

/-- The value at a key, if one is listed. -/
def mapFind {α : Type} : List (Nat × α) → Nat → Option α
  | [], _ => none
  | (k, a) :: r, n => if k = n then some a else mapFind r n

/-- The map with a key's value replaced, keys rising. -/
def mapSet {α : Type} : List (Nat × α) → Nat → α → List (Nat × α)
  | [], n, b => [(n, b)]
  | (k, a) :: r, n, b =>
    if n < k then (n, b) :: (k, a) :: r
    else if n = k then (n, b) :: r
    else (k, a) :: mapSet r n b

/-- The map without a key. -/
def mapErase {α : Type} (l : List (Nat × α)) (n : Nat) : List (Nat × α) := l.filter fun p => p.1 != n

/-- The least key of `lo .. lo + n - 1` that a map does not list. -/
def freeKey {α : Type} (l : List (Nat × α)) : Nat → Nat → Option Nat
  | _, 0 => none
  | lo, n + 1 => if (mapFind l lo).isNone then some lo else freeKey l (lo + 1) n

/-- A list with its `i`-th entry replaced. -/
def listSet {α : Type} : List α → Nat → α → List α
  | [], _, _ => []
  | _ :: r, 0, b => b :: r
  | a :: r, n + 1, b => a :: listSet r n b

/-- A list without its `i`-th entry. -/
def listErase {α : Type} : List α → Nat → List α
  | [], _ => []
  | _ :: r, 0 => r
  | a :: r, n + 1 => a :: listErase r n

/-- The first index whose entry satisfies `p`. -/
def findIdx {α : Type} (p : α → Bool) (l : List α) : Option Nat :=
  (l.zipIdx.find? fun x => p x.1).map (·.2)

/-- A number put into a rising list without repeats. -/
def setInsert : List Nat → Nat → List Nat
  | [], n => [n]
  | k :: r, n => if n < k then n :: k :: r else if n = k then k :: r else k :: setInsert r n

/-! ### Memory -/

/-- One byte; an unlisted address reads 0 (DESIGN CHOICE: notes/assumptions/2.md). -/
def Mem.read : Memory → Nat → Byte
  | [], _ => 0
  | (k, b) :: r, a => if k = a then b else Mem.read r a

/-- Insertion of a listed byte at its place. -/
def Mem.insert : Memory → Nat → Byte → Memory
  | [], a, b => [(a, b)]
  | (k, c) :: r, a, b =>
    if a < k then (a, b) :: (k, c) :: r
    else if a = k then (a, b) :: r
    else (k, c) :: Mem.insert r a b

/-- One byte written; writing what an unlisted address reads as removes the entry. -/
def Mem.write (m : Memory) (a : Nat) (b : Byte) : Memory :=
  if b = 0 then m.filter (fun c => c.1 != a) else Mem.insert m a b

/-- The `n` bytes from `a`. -/
def Mem.readBytes (m : Memory) (a : Nat) : Nat → List Byte
  | 0 => []
  | n + 1 => Mem.read m a :: Mem.readBytes m (a + 1) n

/-- Bytes written from `a` upwards. -/
def Mem.writeBytes : Memory → Nat → List Byte → Memory
  | m, _, [] => m
  | m, a, b :: r => Mem.writeBytes (Mem.write m a b) (a + 1) r

/-- The `n` bytes from `a` as a little-endian number (00_scope.md R8). -/
def Mem.load (m : Memory) (a n : Nat) : Nat := ofBytes (Mem.readBytes m a n)

/-- The low `8n` bits of `v` written to the `n` bytes from `a`, little-endian. -/
def Mem.store (m : Memory) (a n v : Nat) : Memory := Mem.writeBytes m a (toBytes n v)

/-- The `n` bytes from `a` set to zero. -/
def Mem.zero (m : Memory) (a n : Nat) : Memory := m.filter fun c => decide (c.1 < a) || decide (a + n ≤ c.1)

/-- The canonical form: addresses strictly rising, no byte equal to what an unlisted address reads as. -/
def Mem.wf : Memory → Bool
  | [] => true
  | [(_, b)] => b != 0
  | (a, b) :: (c, d) :: r => b != 0 && decide (a < c) && Mem.wf ((c, d) :: r)

end Sys2Proof.Machine
end

