-- ==== Sys2Proof/Config.lean ====
section
/-!
DEFINITION. What is fixed for the machine, and the free values: opaque constants that no proof can see into, one for
each value the manual leaves open while the machine goes on (DESIGN CHOICE: notes/assumptions/4.md).
-/
namespace Sys2Proof.Config

/-- Time is counted in units of 1/126 ns, so that a tile cycle at every throttle step and a tick of the 1 GHz
reference are whole numbers of units (20_device.md R494, R497). -/
def tickUnits : Nat := 126

/-- Units of one tile cycle at throttle steps 0 to 3: 2.1, 1.8, 1.4 and 1.05 GHz (20_device.md R494). -/
def cycleUnits : Nat → Nat
  | 0 => 60
  | 1 => 70
  | 2 => 90
  | _ => 120

/-- Ticks a forwarding entry lives, and ticks a page stays SWITCHED (13_system_tables.md R442, R453). -/
def forwardTicks : Nat := 2 ^ 24

/-- The SHA3-512 digest (13_system_tables.md R450, 20_device.md R499, R502): named by the manual, not given. -/
opaque sha3 : List Byte → BitVec 512

/-- Whether a decode-table image carries a good ML-DSA-87 signature (13_system_tables.md R450); where the signature
stands in the image is not given. -/
opaque imageSigned : List Byte → Bool

/-- Whether a decode-table image's own check bits are good at a tile (13_system_tables.md R450). -/
opaque imageSound : List Byte → Bool

/-- The revision a decode-table image carries (13_system_tables.md R449). -/
opaque imageRevision : List Byte → BitVec 32

/-- Whether a loaded decode table holds a good entry for an encoding: the image's contents are private
(03_encoding.md R128, 13_system_tables.md R449). -/
opaque imageHolds : List Byte → Nat → Bool

/-- The ML-DSA-87 signature with the package identity key over a digest (20_device.md R503). -/
opaque sign : BitVec 512 → List Byte

/-- The signed firmware image in the SPI boot flash (20_device.md R499). -/
opaque firmware : List Byte

/-- Whether the boot flash's image verifies against the fused key (20_device.md R499 step 1). -/
opaque firmwareSigned : Bool

/-- Whether every tile's copy of the firmware image has the expected digest (20_device.md R499 step 4). -/
opaque firmwareDelivered : Bool

/-- Whether the Sorcel link trains (20_device.md R499 step 6). -/
opaque linksTrain : Bool

/-- Whether fabric port `n` is trained at the end of bring-up (20_device.md R491). -/
opaque portTrained : Nat → Bool

/-- The decode-table image carried in the signed firmware (13_system_tables.md R450). -/
opaque decodeImage : List Byte

/-- The fuse record of a die (20_device.md R499 step 5). -/
opaque fuseRecord : Nat → List Byte

/-- A chain bit the rewriter writes at load, by the chain policy of the decode-table image: of an instruction word with
its chain bits clear, the bit for vs1 (false) or vs2 (true) (03_encoding.md R139); they change no value (R118). -/
opaque chainPolicy : List Byte → Nat → Bool → Bool

/-- The margin threshold firmware sets in a link's control image (11_fragments_and_errands.md R398). -/
opaque marginThreshold : Nat → Nat

/-- Lanes of a link, each with its margin byte (14_counters_and_records.md R466). -/
opaque linkLanes : Nat

/-- The handler address the firmware's default supervisor gives a process (07_control_registers.md R233). -/
opaque defaultHandler : Word

/-- What the pipelines, the interlock, the bank ports and soft errors of a tile add to a performance counter by a time, by
time, tile and counter: timing the manual leaves open (14_counters_and_records.md R463). -/
opaque pipeCount : Nat → Nat → Nat → Word

/-- A fresh value the manual leaves open, taken by the counter `State.free`. -/
opaque freeWord : Nat → Word

end Sys2Proof.Config
end

