-- ==== Sys2Proof/Machine/State.lean ====
section
/-!
DEFINITION. The state of the machine as plain data: everything the spec gives it, listed in INVENTORY.md under
"State". Fields that are the model's own (not the spec's) say so.
-/
namespace Sys2Proof.Machine

/-- A step can stop with a fault. -/
inductive Fault where
  /-- The core rail is down after a thermal trip (20_device.md R495): nothing on it steps until a reset. Raised by
  every row but the resets and the rows of the management interface (R501). Safe. -/
  | coreRailCut
  deriving DecidableEq, Repr

/-- A step can be refused. -/
inductive Refusal where
  /-- An instruction of the opcode table that has no meaning yet; raised by its arm of exec alone. Safe. -/
  | notModelled (mnemonic : String)
  deriving DecidableEq, Repr

/-! ### Slots -/

/-- Where a slot stands (01_machine.md R23, R26; 07_control_registers.md R243, R252). -/
inductive RunState where
  | empty | running
  /-- To be stopped once what it has issued completes (R252). -/
  | stopping
  /-- To be halted at the next instruction boundary (R243). -/
  | halting
  | stopped | halted
  deriving DecidableEq, Repr

/-- What a slot is blocked on (01_machine.md R26; 10_channels.md R345, R346). -/
inductive WaitKind where
  /-- Receives: by endpoint-table index, the tokens each receive end must hold. -/
  | recv (ends : List (Nat × Nat))
  /-- A send on the send end at the index that needs so many credits; the receives a windowed instruction also waits
  for. -/
  | send (e need : Nat) (ends : List (Nat × Nat))
  /-- A reel wait through a handle: home station, entry, phase. -/
  | reel (station entry phase : Nat)
  /-- The sync word at this local offset to reach this generation (14_counters_and_records.md R458). -/
  | syncWord (off gen : Nat)
  /-- A far reply, a server reply or a translation. -/
  | far
  /-- The answer of a reel station to GNEW, GJOIN or GINFO (12_reels.md R411, R426; 14_counters_and_records.md R463). -/
  | station
  /-- Any other wait at issue. -/
  | issue
  deriving DecidableEq, Repr

/-- A probe launched from a wait: its ID, the copies of it still on their way, and whether a returned copy has been acted on
(10_channels.md R346, R347). -/
structure ProbeOut where
  id : BitVec 32
  live : Nat
  acted : Bool
  deriving DecidableEq, Repr

/-- A wait of a resident process, and its probes (10_channels.md R345). -/
structure Wait where
  kind : WaitKind
  /-- Time in units at which the wait began. -/
  since : Nat
  /-- Time in units at which the next probe is launched, for a wait that launches probes; none while one is on its way. -/
  probeAt : Option Nat
  /-- Probes launched from it. -/
  probes : List ProbeOut
  deriving DecidableEq, Repr

/-- The translation of one far page of a copy's destination (19_program_remote_copy.md R487). -/
structure PageAns where
  /-- The elements [lo, hi) of the strip whose first bytes lie on the page. -/
  lo : Nat
  hi : Nat
  /-- First element with a byte on the page: of a block that begins on the page before, or `lo`. -/
  first : Nat
  /-- First far address of those elements' bytes. -/
  addr : Nat
  /-- TAG of the request; none once answered. -/
  tag : Option Nat
  status : Nat
  /-- The data token of R487. -/
  token : Word
  deriving DecidableEq, Repr

/-- An element of a partial fault: index, cause, EVAL (07_control_registers.md R246). -/
structure ElemFault where
  elem : Nat
  cause : BitVec 8
  eval : Word
  deriving DecidableEq, Repr

/-- The format of the element data of one side (08_memories.md R263): format code, block length, exponent region, and
whether it is a typed bank's. -/
structure MemFmt where
  fmt : Nat
  blk : Nat
  exr : Bool
  typed : Bool
  deriving DecidableEq, Repr

/-- What a copy works on once its checks have passed, the formats as read at issue (08_memories.md R264, R299). -/
structure CopyStrip where
  n : Nat
  act : Nat
  sa : Word
  da : Word
  fs : MemFmt
  fd : MemFmt
  sync : Option Nat
  fill : Option Nat
  deriving DecidableEq, Repr

/-- A copy that has begun and awaits a page of its source, translations, a member set or acceptance (08_memories.md R298). -/
structure CopyProg where
  strip : CopyStrip
  /-- Whether a missing page of its source is being asked for (01_machine.md R56 bit 0). -/
  asked : Bool
  /-- Whether its translations or its member set have been asked for, where it needs them. -/
  begun : Bool
  /-- Translations asked for, in ascending address order. -/
  pages : List PageAns
  /-- Member tiles a CPY.MC strip goes to; none until the station has answered (R297). -/
  members : Option (List Nat)
  /-- Whether the COPY messages have been sent. -/
  sent : Bool
  /-- Messages awaiting DONE: SEQ and the elements carried, first and last. -/
  await : List (Nat × Nat × Nat)
  /-- Elements refused or lost at their destination, first and last, and the cause. -/
  refused : List (Nat × Nat × BitVec 8)
  faults : List ElemFault
  /-- Far pages of the source the host has refused to install, by address div 2^16. -/
  denied : List Nat
  deriving DecidableEq, Repr

/-- An indexed access under way (08_memories.md R271, R287): the elements still to perform, in ascending order; the TAG of the
far request of the first of them, and its answer: status, value, poison; the values loaded; and the faults met. -/
structure ElemProg where
  fmt : MemFmt
  todo : List Nat
  tag : Option Nat
  ans : Option (Nat × Word × Bool)
  vals : List (Nat × Nat × Bool)
  faults : List ElemFault
  deriving DecidableEq, Repr

/-- What a slot has asked for and not yet consumed: the instruction at its PC finishes when the answer is there. -/
inductive Pend where
  | none
  /-- A far request with this TAG awaits its reply (08_memories.md R277). -/
  | far (tag : Nat)
  /-- The reply: status of R356, value, poison. -/
  | farDone (status : Nat) (val : Word) (poison : Bool)
  /-- A reel request awaits its answer (12_reels.md R434): the answer's operation code, and the model's key that tells
  answers apart. -/
  | reel (op key : Nat)
  /-- The station's answer, as the words of its payload. -/
  | reelDone (op : Nat) (ans : List Word)
  | copy (c : CopyProg)
  /-- An indexed vector access under way. -/
  | elems (p : ElemProg)
  /-- A volta whose target the host chooses (01_machine.md R56 bit 5): TAG asked, answer. -/
  | volta (tag : Nat) (ans : Option Nat)
  /-- An update of the sync word it waits on has woken the SWWAIT (14_counters_and_records.md R456). -/
  | woken
  /-- The instruction has begun and waits: SLOTSTOP and MIGRATE for the slots they have told to stop, ERRWAIT for a REPLY
  (07_control_registers.md R252; 11_fragments_and_errands.md R388). -/
  | begun
  deriving DecidableEq, Repr

/-- A completion position (07_control_registers.md R249, R507), and the REPLY's instruction index and cause code, which
the position's image does not show (11_fragments_and_errands.md R364, R389). -/
structure Completion where
  valid : Bool
  tag : BitVec 16
  status : BitVec 8
  val : Word
  idx : BitVec 8 := 0xFF
  why : BitVec 8 := 0
  deriving DecidableEq, Repr

/-- What an access that is still to be performed elsewhere may touch (09_memory_ordering.md R307): the bytes [lo, hi) of one
memory, 0 the package DRAM, 1 host memory and 2 + t that of tile t, none where the translation is not known; the end it
reaches its place through; and whether the page is SO (R312). -/
structure Reach where
  mem : Option Nat
  lo : Nat
  hi : Nat
  via : Option Ep
  so : Bool
  deriving DecidableEq, Repr

/-- An errand sent and without its REPLY (11_fragments_and_errands.md R388). -/
structure ErrOut where
  tag : BitVec 16
  wait : Bool
  reach : Reach
  deriving DecidableEq, Repr

/-- One barrel slot: the scalar part of its context (07_control_registers.md R249) and its run state. -/
structure Slot where
  run : RunState
  g : Vector Word 32
  e : Vector Word 8
  /-- PC as a local address, as the slot image shows it (R249): 0xD0000 plus an even 16-bit offset (03_encoding.md
  R110). -/
  pc : Word
  status : Word
  cause : Word
  epc : Word
  eval : Word
  tvec : Word
  scratch : Word
  cir : Word
  wdog : Word
  wdlim : Word
  prio : BitVec 2
  pid : BitVec 16
  netid : BitVec 32
  tenant : BitVec 10
  ports : Vector Word 16
  handles : Vector Word 16
  /-- Next errand tag (R388). -/
  errTag : BitVec 16
  /-- Uncleared errand record (R249). -/
  errRec : Word
  comps : Vector Completion 16
  errOut : List ErrOut
  wait : Option Wait
  pend : Pend
  /-- RUPDs sent and not yet applied or discarded: TAG, and what each may touch (08_memories.md R278). -/
  rupds : List (Nat × Reach)
  /-- TAG counter of the implicit request channel (08_memories.md R271). -/
  farTag : Nat
  /-- The watchdog has passed and neither WDOG nor WDLIM has been written since (R247). -/
  wdFired : Bool
  /-- ID of the last probe that passed through (10_channels.md R347). -/
  lastProbe : Option (BitVec 32)
  deriving DecidableEq, Repr

/-- The long-vector context of slot 0 or 1 (05_vector_registers.md R170, 06_matrix_accumulators.md R204). -/
structure VecCtx where
  v : Vector (BitVec 8192) 32
  /-- Exponent side arrays. -/
  x : Vector (BitVec 4096) 32
  /-- Poison bits, one per 1,024-bit element group. -/
  pois : Vector (BitVec 8) 32
  m : Vector (BitVec 4096) 8
  vl : BitVec 13
  vt : BitVec 32
  xclass : BitVec 3
  xm : BitVec 4096
  fmask : BitVec 4096
  /-- Accumulators: cell (r, c) at bits [32(32r + c) + 31 : 32(32r + c)]. -/
  acc : Vector (BitVec 32768) 2
  rs : Vector (BitVec 1024) 2
  accPois : BitVec 2
  deriving DecidableEq, Repr

/-! ### The fabric part of a tile or station (11_fragments_and_errands.md) -/

/-- The stream part of a message's identity (R363). The header's bits alone do not tell streams of different networks
apart, so the model carries the stream whole beside the header (DEDUCED: notes/assumptions/9.md). -/
inductive Stream where
  | none
  /-- A channel of a network. -/
  | chan (netid id : Nat)
  /-- Requests of a slot's implicit server channel (08_memories.md R271), and the replies to them, by the tile and slot they
  answer. -/
  | implicitReq
  | implicitRep (tile slot : Nat)
  /-- Spill claims, writes and reads of a channel, and their replies (16_program_split_rejoin.md R480). -/
  | spill (netid id : Nat)
  deriving DecidableEq, Repr

/-- A message's header: the fields of R362 that all its fragments share. -/
structure MsgHdr where
  attempt : Nat
  dst : Ep
  src : Ep
  cls : Nat
  slot : Nat
  tnt : Nat
  seq : Nat
  arg : BitVec 48
  /-- Payload length in bytes. -/
  len : Nat
  /-- Parity fragments. -/
  m : Nat
  stream : Stream
  /-- PID and network of the process on whose account it was sent, which the bindings at its ends record
  (10_channels.md R357); 0 for none. Beside the header, as the stream. -/
  pid : Nat
  netid : Nat
  /-- Of a COPY: the issuer's VT, which types an untyped destination (08_memories.md R263), and which of the message's
  elements are active. Of a CREDIT: in `act`, the credits that growth added. Of a REEL request: the handle it was made
  through. Of an acknowledgement: the `uid` of the message it is about. Beside the header, as the stream. -/
  vt : Nat := 0
  act : Nat := 0
  /-- Of a COPY: the first element of the strip that it carries, and the end of the scratchpad page it is for, as an offset of the
  owner tile; 0 for no page. Beside the header. -/
  lo : Nat := 0
  lim : Nat := 0
  /-- Slot at the destination a message of a station is for: the header's SLOT is 0 (R362). Beside the header. -/
  aslot : Nat := 0
  /-- The end that forwards another's message: it keeps the message in its send shadow and takes the acknowledgements
  (R394). Beside the header. -/
  via : Option Ep := none
  /-- Model's own: which message this is, of all the machine has sent. -/
  uid : Nat := 0
  deriving DecidableEq, Repr

/-- A fragment on the wire: header, index, 32 payload bytes, forwarding entries crossed (R362, R453). -/
structure Frag where
  hdr : MsgHdr
  fidx : Nat
  data : List Byte
  hops : Nat
  /-- Link checks it has failed on the link it crosses, and that link (R398). -/
  retries : Nat
  link : Nat := 0
  deriving DecidableEq, Repr

/-- A message decoded and not yet delivered by class. -/
structure Msg where
  hdr : MsgHdr
  payload : List Byte
  deriving DecidableEq, Repr

/-- A decode buffer (R372). -/
structure DecBuf where
  hdr : MsgHdr
  /-- Fragments present: index and bytes. -/
  frags : List (Nat × List Byte)
  /-- The message is a COPY placed directly as its fragments arrive (R379). -/
  direct : Bool
  /-- Data fragments already placed directly at an earlier tile (R393). -/
  placed : List Nat
  nacks : Nat
  /-- Time in units at which the deadline expires. -/
  deadline : Nat
  deriving DecidableEq, Repr

/-- Status a completion-filter entry keeps (R373). -/
inductive FiltStatus where
  | accepted | refused (reason : Nat) | lost
  deriving DecidableEq, Repr

/-- A completion-filter entry (R373). -/
structure FiltEnt where
  hdr : MsgHdr
  status : FiltStatus
  attempt : Nat
  since : Nat
  deriving DecidableEq, Repr

/-- What a source must know of a message to deliver its loss or refusal (R374, R377, R392). -/
structure Shadow where
  msg : Msg
  attempt : Nat
  resends : Nat
  /-- Time in units at which the timer expires; none when stopped. -/
  timer : Option Nat
  done : Bool
  /-- Credits of a TOKENS message not yet returned. -/
  credits : Nat
  /-- A loss has been delivered; the entry stays for a replay (R392). -/
  lost : Bool
  /-- Not sent yet, for 32,768 of its slot and class await acknowledgement (R363), and whether INJECT may act on it. -/
  unsent : Option Bool := none
  deriving DecidableEq, Repr

/-- A fragment held at the fabric input, since when, and NACKs sent for it (R372, R41). -/
structure HeldFrag where
  frag : Frag
  since : Nat
  nacks : Nat
  deriving DecidableEq, Repr

/-- A message that has been delivered and released: a fragment of it that arrives later opens a buffer that delivers nothing
(R391; 19_program_remote_copy.md R489). Kept up to a time, as long as a filter entry would be. -/
structure Tail where
  uid : Nat
  till : Nat
  deriving DecidableEq, Repr

/-- The fragment layer of one tile or station. -/
structure Fabric where
  /-- LOST LATE RECON NACKS RETX LOSS PROBEDROP FWD HELD DISCARD (14_counters_and_records.md R465). -/
  ctrs : Vector Word 10
  bufs : List DecBuf
  held : List HeldFrag
  filter : List FiltEnt
  tails : List Tail
  shadow : List Shadow
  /-- SEQ counter of each slot and class (R363). -/
  seqs : List ((Nat × Nat) × Nat)
  /-- Decoded messages in the order of arrival (R390). -/
  inbox : List Msg
  /-- Errand frames the executor has rejected (R383). -/
  rejects : Word
  /-- Fragments INJECT KIND 2 holds back, with the time they are sent (07_control_registers.md R234). -/
  injHeld : List (Frag × Nat)
  deriving DecidableEq, Repr

/-- An entry of an executor's queue (R390). -/
inductive ExecEntry where
  | frame (m : Msg)
  /-- One message of CPYR element combinations. -/
  | combine (m : Msg)
  /-- An AMO or RUPD for a scratchpad page, and the station that asks. -/
  | far (m : Msg)
  deriving DecidableEq, Repr

/-! ### Channels (10_channels.md) -/

inductive SendState where
  | open | closed | gone
  deriving DecidableEq, Repr

inductive RecvState where
  | open | ended | broken
  deriving DecidableEq, Repr

/-- A send end (R329, R332). -/
structure SendEnd where
  netid : Nat
  chan : Nat
  pid : Nat
  port : Nat
  /-- Slot whose number its messages carry. -/
  slot : Nat
  /-- Place of the consumer. -/
  peer : Ep
  state : SendState
  credits : Nat
  /-- Credits received so far, cumulative (R365). -/
  cumul : Nat
  nextSeq : Nat
  /-- The consumer-ended notice has arrived (R340). -/
  noticed : Bool
  /-- Declared capacity. -/
  cap : Nat
  /-- Current capacity, as the credits that have arrived show it. -/
  room : Nat
  deriving DecidableEq, Repr

/-- A receive end (R329-R332, R350-R352, R480). Tokens on the tile lie in the channel area of scalar data memory at
`base + 8 * (seq mod cap)`; `held` says which are present, and their poison bits. -/
structure RecvEnd where
  netid : Nat
  chan : Nat
  pid : Nat
  port : Nat
  slot : Nat
  peer : Ep
  state : RecvState
  nextSeq : Nat
  base : Nat
  /-- Declared capacity. -/
  decl : Nat
  /-- Current capacity. -/
  cap : Nat
  held : List (Nat × Bool)
  /-- End record: sequence number, broken. -/
  endRec : Option (Nat × Bool)
  /-- Trap-on-end bit. -/
  toe : Bool
  /-- Tokens received and returned as credits, and credits added by growth, cumulative. -/
  returned : Nat
  /-- The part of them that growth added. -/
  grown : Nat
  /-- The consumer has ended: everything is discarded (R340). -/
  dead : Bool
  /-- Extensions in claim order, offset from SPILLBASE and slots (R480). -/
  exts : List (Nat × Nat)
  /-- Extensions joined to the ring so far, and the ring position written next. -/
  joined : Nat
  wpos : Nat
  /-- Tokens in the spill ring in the order written: sequence number, offset from SPILLBASE, poison. -/
  spilled : List (Nat × Nat × Bool)
  /-- Tokens that await their turn, or a free slot, to be spilled. -/
  early : List (Nat × Word × Bool)
  /-- Tokens read back while the channel area has no free slot, for an instruction that needs them at once. -/
  ahead : List (Nat × Word × Bool)
  /-- A spill read is on its way. -/
  reading : Bool
  /-- Claims on their way, each by the capacity it doubles. -/
  claims : List Nat
  deriving DecidableEq, Repr

/-- An entry of a tile's endpoint table. -/
inductive EndPt where
  | send (e : SendEnd)
  | recv (e : RecvEnd)
  deriving DecidableEq, Repr

/-- A memory server's pair of channel ends at an edge station (R354-R359). -/
structure ServerPair where
  tnt : Nat
  netid : Nat
  /-- PID of the process that holds the request channel's send end (R357). -/
  pid : Nat
  /-- Even ID of the request channel. -/
  chan : Nat
  reqPeer : Ep
  repPeer : Ep
  reqCap : Nat
  /-- Request tokens present: sequence number, value, poison. -/
  toks : List (Nat × Word × Bool)
  /-- The tokens of the request at the head that the server has taken from the channel before the rest of it has arrived. -/
  got : List (Word × Bool)
  nextIn : Nat
  returned : Nat
  /-- Replies waiting for credits, each by the tokens of it not yet sent. -/
  out : List (List (Word × Bool))
  nextOut : Nat
  credits : Nat
  cumul : Nat
  /-- The pair has ended on a malformed request (R358); its broken end token has gone out. -/
  ended : Bool
  endSent : Bool
  /-- The reply channel's consumer has ended: replies are discarded (R340, 01_machine.md R43). -/
  repGone : Bool
  /-- The host is being asked for a missing page; pages it has refused, by address div 2^16 (01_machine.md R56). -/
  asking : Bool
  denied : List Nat
  deriving DecidableEq, Repr

/-! ### Trace (14_counters_and_records.md) -/

/-- An open strip of a vector slot: VL granted, the CYCLE of its opening, and the cycles its pipes and its waits have taken since
(R474). -/
structure Strip where
  vl : Nat
  opened : Nat
  arith : Nat := 0
  mem : Nat := 0
  matrix : Nat := 0
  blocked : Nat := 0
  deriving DecidableEq, Repr

/-- The trace state of a tile (R467-R475). -/
structure Trace where
  base : Word
  size : Word
  head : Word
  dropped : Word
  /-- Units of 16 bytes in the FIFO, oldest first. -/
  fifo : List (BitVec 128)
  /-- Units entered since the window opened, for 64-byte boundaries. -/
  entered : Nat
  /-- Records dropped and not yet accounted for by a GAP. -/
  gap : Nat
  /-- CAPSTART and CAPSTOP records, and the TIME that follows a GAP, held until room returns. -/
  heldCaps : List (BitVec 128)
  /-- Records written in the window. -/
  written : Nat
  strips : Vector (Option Strip) 8
  /-- The 1,024-cycle period being counted, and trace bytes written in it, per network (01_machine.md R40). -/
  period : Nat
  periodBytes : List (Nat × Nat)
  /-- Network and partition whose window is open. -/
  netid : Nat
  tnt : Nat
  /-- The value of TS [39:0] when a TIME was last written for a wrap (R471). -/
  lastWrap : Nat
  /-- The host is being asked for a missing page of the ring; pages it has refused, by address div 2^16 (01_machine.md R56). -/
  asking : Bool
  denied : List Nat
  deriving DecidableEq, Repr

/-! ### Tiles and stations -/

/-- A record on a tile's watch list (07_control_registers.md R251). -/
structure WatchRec where
  addr : Nat
  pid : Nat
  wait : Nat
  port : Nat
  deadline : Nat
  /-- ID of the last probe that passed through (10_channels.md R347). -/
  lastProbe : Option (BitVec 32)
  deriving DecidableEq, Repr

/-- The forwarding entry of a vacated tile (13_system_tables.md R453). -/
structure Forward where
  target : Nat
  tnt : Nat
  expiry : Nat
  deriving DecidableEq, Repr

/-- The decode table's status at a tile (13_system_tables.md R449, R450). -/
structure DecodeTable where
  revision : BitVec 32
  digest : Word
  /-- The image loaded; empty before a load, when every assigned encoding has its entry. -/
  image : List Byte
  failed : Bool
  deriving DecidableEq, Repr

/-- One tile. -/
structure Tile where
  slots : Vector Slot 8
  vecs : Vector VecCtx 2
  /-- Scratchpad, scalar data memory and code memory by local offset 0 to 0xD_FFFF (08_memories.md R258). -/
  mem : Memory
  /-- Start bits of the code halfwords (03_encoding.md R111). -/
  start : BitVec 32768
  /-- Poison bits of the 32-byte granules of scratchpad and scalar data memory (08_memories.md R265). -/
  poison : BitVec 26624
  /-- Uncorrectable errors present and not yet found, by granule, code memory included: an input (R265, R266). -/
  errs : BitVec 28672
  bfmt : Vector Word 16
  mslot : Vector (BitVec 2) 16
  perfsel : Vector Word 8
  perfcnt : Vector Word 8
  /-- Writes of PERFSEL.n (n) and PERFCNT.n (8 + n) that take effect from the next cycle (14_counters_and_records.md
  R464). -/
  perfNew : List (Nat × Word)
  trctl : BitVec 4
  probeDelay : BitVec 32
  decDeadline : BitVec 16
  retryLimit : BitVec 2
  inject : Word
  /-- CRATE.C, CRATE.D, CRATE.X, CRATE.P. -/
  crate : Vector (BitVec 3) 4
  lfsr : BitVec 32
  tileId : BitVec 32
  ready : Vector (List Word) 4
  watch : List WatchRec
  /-- Deadline of each slot's timer; none when disarmed (07_control_registers.md R248). -/
  timers : Vector (Option Nat) 8
  /-- EVAL the pending WAKE will carry (07_control_registers.md R241). -/
  wakeEval : Word
  /-- Target the pending MIGRATE will carry. -/
  voltaTarget : Nat
  supSlot : Fin 8
  /-- The supervisor is the firmware's default one (15_program_int8_product.md R478). -/
  defSup : Bool
  /-- Strict rotation (01_machine.md R27, R29). -/
  strict : Bool
  lastIssue : Fin 8
  /-- CYCLE of the last issue: at most one slot issues in a cycle (01_machine.md R26). -/
  issuedAt : Option Nat
  ends : List (Nat × EndPt)
  execQ : List ExecEntry
  violCount : Word
  viol : Vector (Word × Word) 16
  decTable : DecodeTable
  forward : Option Forward
  /-- A volta has left the tile and nothing has been placed on it since (R453, 07_control_registers.md R252). -/
  vacated : Bool
  /-- Networks that a volta has taken away from the tile (R453). -/
  left : List Nat
  trace : Trace
  probeCtr : BitVec 16
  fab : Fabric
  deriving DecidableEq, Repr

/-- One edge station (01_machine.md R15). -/
structure EdgeSt where
  fab : Fabric
  execQ : List ExecEntry
  /-- Errand frames whose page the host has given, or has moved, and which wait for room in the executor's queue
  (01_machine.md R56; 10_channels.md R324). -/
  resumed : List Msg
  pairs : List ServerPair
  deriving DecidableEq, Repr

/-- A reel entry (12_reels.md R405). PKIND and EPKIND: 0 plain, 1 to 3 the votes, 4 + 3 * op + type the reductions,
63 MIXED. -/
structure ReelEntry where
  tnt : BitVec 10
  netid : BitVec 32
  name : BitVec 32
  scope : BitVec 2
  keep : Bool
  phase : BitVec 32
  counted : Nat
  arrived : Nat
  early : Nat
  departed : BitVec 32
  pkind : Nat
  yes : Nat
  votes : Nat
  eyes : Nat
  evotes : Nat
  epkind : Nat
  lastRes : Word
  lastDep : BitVec 32
  lastMix : Bool
  gang : Bool
  deriving DecidableEq, Repr

inductive MemberState where
  | pending | counted | leaving
  deriving DecidableEq, Repr

/-- A member slot (12_reels.md R406); `first` is the phase the member was first counted in, for a repeated request
(R411). -/
structure Member where
  entry : Nat
  pid : BitVec 16
  tile : Nat
  slot : Nat
  rank : Nat
  weight : Nat
  state : MemberState
  arr : Nat
  early : Nat
  val : Word
  hasVal : Bool
  vnext : Bool
  ekind : Nat
  ey : Nat
  /-- Votes given early, taken out again when a pending member leaves (R413). -/
  en : Nat
  first : BitVec 32
  /-- Its request was a GNEW: a repeated request is one of the same kind (R411). -/
  made : Bool
  deriving DecidableEq, Repr

/-- A request a reel station has not answered yet (12_reels.md R418, R421). -/
structure ReelWaiter where
  entry : Nat
  pid : Nat
  tile : Nat
  slot : Nat
  rank : Nat
  phase : BitVec 32
  /-- The operation code of the request: 0x04 an arrival with WAIT, 0x05 a wait. -/
  op : Nat
  deriving DecidableEq, Repr

/-- One reel station (12_reels.md R404). -/
structure ReelSt where
  fab : Fabric
  entries : List (Nat × ReelEntry)
  members : List (Nat × Member)
  waiters : List ReelWaiter
  /-- CREATE and JOIN requests that await the host (R416): TAG asked and the message. -/
  asked : List (Nat × Msg)
  deriving DecidableEq, Repr

/-! ### The network manager (01_machine.md, 13_system_tables.md) -/

/-- A region control block's fields; none is inherit (13_system_tables.md R443). -/
structure Rcb where
  tiles : Option Nat
  reelent : Option Nat
  vslots : Option Nat
  tracebw : Option Nat
  dram : Option Nat
  spill : Option Nat
  dshare : Option Nat
  prio : Option Nat
  fdom : Option Nat
  issue : Option Nat
  gang : Option Nat
  assist : Option (BitVec 6)
  deriving DecidableEq, Repr

/-- A mapping the manager has written: PID, far page address, page level, DRAM bytes charged (01_machine.md R505). -/
structure Mapping where
  pid : Nat
  va : Nat
  level : Nat
  charge : Nat
  deriving DecidableEq, Repr

/-- A partition (01_machine.md R45; 13_system_tables.md R445). -/
structure Partition where
  tnt : Nat
  /-- Rectangle in 4-tile blocks: x, y, width, height. -/
  rx : Nat
  ry : Nat
  rw : Nat
  rh : Nat
  rcb : Rcb
  ptdir : Nat
  /-- DRAM pages the manager holds for the partition, address and bytes: directory, tables, spill pages. -/
  owned : List (Nat × Nat)
  maps : List Mapping
  deriving DecidableEq, Repr

/-- A channel of a network (03_encoding.md R138); an index of 0xFFFF is the memory server. -/
structure ChanRec where
  id : Nat
  prod : Nat
  pport : Nat
  cons : Nat
  cport : Nat
  toe : Bool
  cap : Nat
  deriving DecidableEq, Repr

/-- A network (01_machine.md R22). -/
structure Network where
  netid : Nat
  tnt : Nat
  rcb : Rcb
  /-- TAG of its LAUNCH (R71). -/
  tag : BitVec 32
  pidBase : Nat
  nproc : Nat
  chans : List ChanRec
  /-- Far virtual address and size of the spill region (10_channels.md R351). -/
  spillBase : Nat
  spillSize : Nat
  /-- DRAM of the spill region: 64 KiB pages. -/
  spillPages : List Nat
  /-- PID, CIR, tile, slot and CYCLE of the lowest PID ended with PSN = 1 (07_control_registers.md R244). -/
  poisoned : Option (Nat × Word × Nat × Nat × Word)
  deriving DecidableEq, Repr

/-- A process the manager has placed (01_machine.md R23, R506). -/
structure Proc where
  netid : Nat
  tnt : Nat
  idx : Nat
  pid : Nat
  tile : Nat
  slot : Nat
  vector : Bool
  sup : Bool
  rcb : Rcb
  /-- Where its code and its data end at its tile, as local addresses. -/
  codeEnd : Nat
  dataEnd : Nat
  deriving DecidableEq, Repr

/-- An end the manager has still to act on (01_machine.md R42, R43): the process concerned, none for an end that belongs
to its network alone; cause, EVAL, and where it was raised. `fault` is false for an end without a fault
(15_program_int8_product.md R478); `unit` is the fault domain read as the fault was delivered (13_system_tables.md R444):
0 the process, 1 its network, 2 its partition. -/
structure EndReq where
  tile : Nat
  slot : Option (Fin 8)
  netid : Nat
  pid : Option Nat
  cause : BitVec 8
  eval : Word
  fault : Bool
  cycle : Word
  unit : Nat
  deriving DecidableEq, Repr

/-- What an outstanding ASSIST_REQUEST waits with (01_machine.md R55, R72). -/
inductive AssistFor where
  /-- A translation miss: the station and the request that waits (function 0). -/
  | translation (st : Ep) (m : Msg) (va pid access : Nat)
  /-- The same for an element of an indexed access or a copy's source at a slot. -/
  | element (tile : Nat) (slot : Fin 8) (va pid : Nat)
  /-- The same for a request of a memory server's pair at a station. -/
  | server (station netid chan va pid : Nat)
  /-- The same for a line of a tile's trace ring (13_system_tables.md R454). -/
  | drain (tile va : Nat)
  /-- Growth: origin tile and slot, the probe's words, BEST, BESTCAP and its write edges (function 1). -/
  | growth (tile : Nat) (slot : Fin 8) (best cap lowest netid : Nat) (edges : List (Nat × Nat))
  /-- A reel request at a station (function 2). -/
  | reel (station : Nat)
  | link (link : Nat)
  /-- A decode-table update for the tiles of a LAUNCH (function 4). -/
  | decode
  /-- A volta's target (function 5). -/
  | migration (tile : Nat) (slot : Fin 8)
  deriving DecidableEq, Repr

/-- An outstanding ASSIST_REQUEST. -/
structure Assist where
  tag : BitVec 32
  func : Nat
  tnt : Nat
  what : AssistFor
  deriving DecidableEq, Repr

/-- A page migration (09_memory_ordering.md R321; 13_system_tables.md R442). -/
inductive MigState where
  | frozen | switched
  deriving DecidableEq, Repr

structure Migration where
  tnt : Nat
  pid : Nat
  va : Nat
  level : Nat
  /-- Physical address of the new page, and the new home die. -/
  newPa : Nat
  newHome : Nat
  state : MigState
  /-- Requests the old home has queued, in arrival order. -/
  queue : List Msg
  /-- TIME in ticks at which the page was switched. -/
  since : Nat
  deriving DecidableEq, Repr

/-- The network manager. -/
structure Manager where
  pkg : Rcb
  parts : List Partition
  nets : List Network
  procs : List Proc
  ends : List EndReq
  /-- Messages of the supervisor channel handled (10_channels.md R360), and ASSIST_ANSWERs handled ahead of them. -/
  taken : Nat
  ahead : List Nat
  /-- Host addresses of the two channels' host ends, read from SCBASE and RCBASE at boot (20_device.md R499). -/
  scAt : Word
  rcAt : Word
  /-- The message at the head waits for an ASSIST_ANSWER (01_machine.md R60): the answer once it is there. -/
  waiting : Bool
  /-- That message's bytes, read once (10_channels.md R361). -/
  reading : Option (List Byte)
  decodeAns : Option (List Byte)
  /-- Messages written to the return channel, and those held for want of room (R361). -/
  sent : Nat
  out : List (List Byte)
  /-- How many of the held messages are still to be written up to the ACK of the message at the head, which is handled with it
  (01_machine.md R60); 0 while none is in hand so. -/
  acking : Nat
  assists : List Assist
  nextTag : BitVec 32
  nextNet : Nat
  migs : List Migration
  deriving DecidableEq, Repr

/-! ### The package -/

/-- A cluster's clock and sensor (20_device.md R494). -/
structure Cluster where
  step : Nat
  /-- Tile cycles counted up to `base`, a time in units. -/
  cycles : Nat
  base : Nat
  /-- Time in units since when the reading has been below 90 degrees; none when it is not. -/
  coolSince : Option Nat
  deriving DecidableEq, Repr

/-- A link block (14_counters_and_records.md R466) and the flits a retraining link holds (R398). -/
structure Link where
  step : BitVec 2
  downs : Word
  ups : Word
  retries : Word
  margins : List (Nat × BitVec 8)
  /-- Time in units since when every margin has been clean. -/
  cleanSince : Option Nat
  /-- Time in units at which retraining ends; none when the link is trained. -/
  retrain : Option Nat
  heldFlits : List Frag
  /-- The host's answer to the last step down was none that R56 allows: the link goes up again as in hardware mode. -/
  auto : Bool
  deriving DecidableEq, Repr

/-- A black-box ring (14_counters_and_records.md R476): entries written, and the last 256, oldest first, four 8-byte
words each. -/
structure BBox where
  count : Word
  entries : List (Vector Word 4)
  deriving DecidableEq, Repr

/-- Management interface, boot and attestation (20_device.md R501, R502). -/
structure Device where
  bootStatus : Word
  scbase : Word
  rcbase : Word
  /-- Next 8-byte word of the rings a BBOX read returns (model: dies in turn), and the last value returned. -/
  bboxPos : Nat
  bboxOut : Word
  attReg : BitVec 512
  attLog : List (Nat × BitVec 512)
  railUp : Bool
  /-- The signal to the companion processor that a thermal trip has cut the core rail (R495). -/
  tripSignal : Bool
  deriving DecidableEq, Repr

/-- Which slot an encoded instruction is executed for (the model's own field). -/
structure Cur where
  tile : Nat
  slot : Fin 8
  deriving DecidableEq, Repr

/-- What a step does (the model's own field). -/
inductive Turn where
  /-- The named slot issues its next instruction; time advances by `dt` units first. -/
  | issue (dt : Nat) (tile : Nat) (slot : Fin 8)
  /-- The named event happens. -/
  | event (dt : Nat) (i : Instr)
  deriving DecidableEq, Repr

/-- The machine. -/
structure State where
  /-- Model's own: the slot exec of an encoded instruction acts for. -/
  cur : Cur
  /-- Model's own: what the next steps do; when empty, the default schedule of Step.lean. -/
  agenda : List Turn
  /-- Model's own: the first tile the default schedule has not turned to in the present cycle. -/
  scan : Nat
  /-- Time since package reset in units of 1/126 tick; TIME is units / 126 (14_counters_and_records.md R461). -/
  units : Nat
  /-- Model's own: counter of free values taken. -/
  free : Nat
  /-- Model's own: messages sent so far. -/
  sentMsgs : Nat
  /-- Fused tiles, as 128 * y + x (01_machine.md R17). -/
  fused : List Nat
  /-- Tiles by logical number; an unlisted one is `Tile.reset`. -/
  tiles : List (Nat × Tile)
  edges : List (Nat × EdgeSt)
  reels : List (Nat × ReelSt)
  /-- Package DRAM by physical address (13_system_tables.md R438). -/
  dram : Memory
  /-- Poisoned granules of DRAM, and uncorrectable errors not yet found, in rising order (08_memories.md R270). -/
  dramPoison : List Nat
  dramErrs : List Nat
  host : Memory
  wire : List Frag
  clusters : Vector Cluster 32
  links : List (Nat × Link)
  /-- Fabric ports that did not train at boot (20_device.md R491). -/
  portsDown : List Nat
  bbox : Vector BBox 8
  mgr : Manager
  dev : Device
  deriving DecidableEq, Repr

/-! ### The machine after reset -/

def Completion.reset : Completion := { valid := false, tag := 0, status := 0, val := 0 }

/-- A slot's context at tile reset (04_scalar_registers.md R141; 07_control_registers.md R233). The PC at reset is not
stated: code offset 0 (DESIGN CHOICE: notes/assumptions/1.md). -/
def Slot.reset : Slot where
  run := .empty
  g := Vector.replicate 32 0
  e := Vector.replicate 8 0
  pc := 0xD0000
  status := 0
  cause := 0
  epc := 0
  eval := 0
  tvec := 0
  scratch := 0
  cir := 0
  wdog := 0
  wdlim := BitVec.allOnes 64
  prio := 0
  pid := 0
  netid := 0
  tenant := 0
  ports := Vector.replicate 16 0
  handles := Vector.replicate 16 0
  errTag := 0
  errRec := 0
  comps := Vector.replicate 16 Completion.reset
  errOut := []
  wait := none
  pend := .none
  rupds := []
  farTag := 0
  wdFired := false
  lastProbe := none

/-- The long-vector context at tile reset (05_vector_registers.md R170, 06_matrix_accumulators.md R204). -/
def VecCtx.reset : VecCtx where
  v := Vector.replicate 32 0
  x := Vector.replicate 32 0
  pois := Vector.replicate 32 0
  m := Vector.replicate 8 0
  vl := 0
  vt := 0x0A
  xclass := 0
  xm := 0
  fmask := BitVec.allOnes 4096
  acc := Vector.replicate 2 0
  rs := Vector.replicate 2 0
  accPois := 0

def Fabric.reset : Fabric where
  ctrs := Vector.replicate 10 0
  bufs := []
  held := []
  filter := []
  tails := []
  shadow := []
  seqs := []
  inbox := []
  rejects := 0
  injHeld := []

def Trace.reset : Trace where
  base := 0
  size := 0
  head := 0
  dropped := 0
  fifo := []
  entered := 0
  gap := 0
  heldCaps := []
  written := 0
  strips := Vector.replicate 8 none
  period := 0
  periodBytes := []
  netid := 0
  tnt := 0
  lastWrap := 0
  asking := false
  denied := []

/-- A tile at reset: the reset column of 07_control_registers.md R233 and the inventories of the chapters. -/
def Tile.reset : Tile where
  slots := Vector.replicate 8 Slot.reset
  vecs := Vector.replicate 2 VecCtx.reset
  mem := []
  start := 0
  poison := 0
  errs := 0
  bfmt := Vector.replicate 16 0
  mslot := Vector.ofFn fun n => if n.val % 2 = 0 then 0 else 1
  perfsel := Vector.replicate 8 0
  perfcnt := Vector.replicate 8 0
  perfNew := []
  trctl := 0
  probeDelay := 4096
  decDeadline := 2048
  retryLimit := 3
  inject := 0
  crate := #v[1, 1, 2, 3]
  lfsr := 1
  tileId := 0
  ready := Vector.replicate 4 []
  watch := []
  timers := Vector.replicate 8 none
  wakeEval := 0
  voltaTarget := 0
  supSlot := 7
  defSup := false
  strict := false
  lastIssue := 7
  issuedAt := none
  ends := []
  execQ := []
  violCount := 0
  viol := Vector.replicate 16 (0, 0)
  decTable := { revision := 0, digest := 0, image := [], failed := false }
  forward := none
  vacated := false
  left := []
  trace := Trace.reset
  probeCtr := 0
  fab := Fabric.reset

def EdgeSt.reset : EdgeSt := { fab := Fabric.reset, execQ := [], resumed := [], pairs := [] }

def ReelSt.reset : ReelSt := { fab := Fabric.reset, entries := [], members := [], waiters := [], asked := [] }

/-- The package region's block: it holds a value in every field (01_machine.md R38). The values are firmware's; the
model gives the whole package, hardware mode, PROCESS domain, free issue (DESIGN CHOICE: notes/assumptions/11.md). -/
def Rcb.package : Rcb where
  tiles := some 8192
  reelent := some 8192
  vslots := some 131072
  tracebw := some 65536
  dram := some (768 * 2 ^ 30)
  spill := some (768 * 2 ^ 30)
  dshare := some 32
  prio := some 0
  fdom := some 0
  issue := some 0
  gang := some 0
  assist := some 0

def Manager.reset : Manager where
  pkg := Rcb.package
  parts := []
  nets := []
  procs := []
  ends := []
  taken := 0
  ahead := []
  scAt := 0
  rcAt := 0
  waiting := false
  reading := none
  decodeAns := none
  sent := 0
  out := []
  acking := 0
  assists := []
  nextTag := 1
  nextNet := 1
  migs := []

def Cluster.reset : Cluster := { step := 0, cycles := 0, base := 0, coolSince := none }

def Link.reset : Link where
  step := 0
  downs := 0
  ups := 0
  retries := 0
  margins := []
  cleanSince := none
  retrain := none
  heldFlits := []
  auto := false

/-- Management interface at power-on: BOOT_STATUS is IN_RESET (20_device.md R501, R502). -/
def Device.reset : Device where
  bootStatus := 0
  scbase := 0
  rcbase := 0
  bboxPos := 0
  bboxOut := 0
  attReg := 0
  attLog := []
  railUp := true
  tripSignal := false

/-- The machine after a power-on reset, before boot (20_device.md R498, R499). -/
def State.reset : State where
  cur := { tile := 0, slot := 0 }
  agenda := []
  scan := 0
  units := 0
  free := 0
  sentMsgs := 0
  fused := []
  tiles := []
  edges := []
  reels := []
  dram := []
  dramPoison := []
  dramErrs := []
  host := []
  wire := []
  clusters := Vector.replicate 32 Cluster.reset
  links := []
  portsDown := []
  bbox := Vector.replicate 8 { count := 0, entries := [] }
  mgr := Manager.reset
  dev := Device.reset

end Sys2Proof.Machine
end

