-- ==== Sys2Proof/Machine/Ops.lean ====
section
/-!
DEFINITION. The named operations over the state: tiles, slots, registers, time, the black box; taking a trap and
returning from one (07_control_registers.md R238, R242); and how an instruction's body ends.
-/
namespace Sys2Proof.Machine

/-! ### Causes (07_control_registers.md R240) -/

def cILLEGAL : BitVec 8 := 0x01
def cBOUNDARY : BitVec 8 := 0x02
def cPRIVILEGE : BitVec 8 := 0x03
def cMISALIGN : BitVec 8 := 0x04
def cADDRESS_FORM : BitVec 8 := 0x05
def cCLUSTER_VIOLATION : BitVec 8 := 0x06
def cFAR_NOT_PRESENT : BitVec 8 := 0x07
def cFAR_PROTECT : BitVec 8 := 0x08
def cREMOTE_VIOLATION : BitVec 8 := 0x09
def cSDC : BitVec 8 := 0x0A
def cPOISON : BitVec 8 := 0x0B
def cWATCHDOG : BitVec 8 := 0x0C
def cTIMER : BitVec 8 := 0x0D
def cBREAK : BitVec 8 := 0x0E
def cDEBUG_HALT : BitVec 8 := 0x0F
def cCHANNEL_BROKEN : BitVec 8 := 0x10
def cDEADLOCK : BitVec 8 := 0x11
def cSPILL_EXHAUSTED : BitVec 8 := 0x12
def cFRAGMENT_LOSS : BitVec 8 := 0x13
def cGROUP_FAULT : BitVec 8 := 0x14
def cENGINE_FAULT : BitVec 8 := 0x15
def cWAKE : BitVec 8 := 0x16
def cMIGRATE : BitVec 8 := 0x17
def cSYSCALL : BitVec 8 := 0x18
def cDECODE_TABLE : BitVec 8 := 0x19
def cERRAND_REJECT : BitVec 8 := 0x1A

/-! ### Tiles, slots and stations -/

def State.tile (s : State) (t : Nat) : Tile := mapGet Tile.reset s.tiles t

def State.setTile (s : State) (t : Nat) (x : Tile) : State := { s with tiles := mapSet s.tiles t x }

def State.modTile (s : State) (t : Nat) (f : Tile → Tile) : State := s.setTile t (f (s.tile t))

def State.slot (s : State) (t : Nat) (k : Fin 8) : Slot := (s.tile t).slots[k]

def Tile.modSlot (x : Tile) (k : Fin 8) (f : Slot → Slot) : Tile := { x with slots := x.slots.set k (f x.slots[k]) }

def State.modSlot (s : State) (t : Nat) (k : Fin 8) (f : Slot → Slot) : State := s.modTile t fun x => x.modSlot k f

/-- The tile and the slot the instruction is executed for. -/
def State.myTile (s : State) : Tile := s.tile s.cur.tile
def State.me (s : State) : Slot := s.slot s.cur.tile s.cur.slot
def State.updTile (s : State) (f : Tile → Tile) : State := s.modTile s.cur.tile f
def State.updMe (s : State) (f : Slot → Slot) : State := s.modSlot s.cur.tile s.cur.slot f

/-- A vector slot's index among the long-vector contexts; slots 2 to 7 have none (01_machine.md R24). -/
def vecIdx (k : Fin 8) : Fin 2 := if k.val = 1 then 1 else 0

def State.vec (s : State) : VecCtx := s.myTile.vecs[vecIdx s.cur.slot]

def Tile.modVec (x : Tile) (k : Fin 8) (f : VecCtx → VecCtx) : Tile :=
  { x with vecs := x.vecs.set (vecIdx k) (f x.vecs[vecIdx k]) }

def State.updVec (s : State) (f : VecCtx → VecCtx) : State := s.updTile fun x => x.modVec s.cur.slot f

def State.edge (s : State) (n : Nat) : EdgeSt := mapGet EdgeSt.reset s.edges n
def State.modEdge (s : State) (n : Nat) (f : EdgeSt → EdgeSt) : State :=
  { s with edges := mapSet s.edges n (f (s.edge n)) }

def State.reelSt (s : State) (n : Nat) : ReelSt := mapGet ReelSt.reset s.reels n
def State.modReel (s : State) (n : Nat) (f : ReelSt → ReelSt) : State :=
  { s with reels := mapSet s.reels n (f (s.reelSt n)) }

def State.link (s : State) (n : Nat) : Link := mapGet Link.reset s.links n
def State.modLink (s : State) (n : Nat) (f : Link → Link) : State :=
  { s with links := mapSet s.links n (f (s.link n)) }

def State.modMgr (s : State) (f : Manager → Manager) : State := { s with mgr := f s.mgr }

/-- A value the manual leaves open, and the state with the counter advanced (DESIGN CHOICE: notes/assumptions/4.md). -/
def State.fresh (s : State) : Word × State := (Config.freeWord s.free, { s with free := s.free + 1 })

/-! ### Performance counters (14_counters_and_records.md R462-R464) -/

/-- `n` events of a code counted in every counter that selects it; `k` is the slot of a slot event. -/
def Tile.perf (x : Tile) (ev : Nat) (k : Option (Fin 8)) (n : Nat) : Tile :=
  { x with perfcnt := Vector.ofFn fun i =>
      let q := x.perfsel[i]
      let on := match k with
        | none => true
        | some j => bit q (16 + j.val)
      if bit q 24 && bits q 15 0 == ev && on then x.perfcnt[i] + BitVec.ofNat 64 n else x.perfcnt[i] }

/-- Cycles added to the open strip of a slot (14_counters_and_records.md R474). -/
def Tile.stripAdd (x : Tile) (k : Fin 8) (f : Strip → Strip) : Tile :=
  match x.trace.strips[k] with
  | some p => { x with trace := { x.trace with strips := x.trace.strips.set k (some (f p)) } }
  | none => x

/-! ### Scalar registers (04_scalar_registers.md R141) -/

/-- g register `n`; g0 reads 0. -/
def Slot.getG (x : Slot) (n : BitVec 5) : Word := if n = 0 then 0 else x.g[n.toFin]

/-- g register `n` written; a write to g0 is discarded. -/
def Slot.setG (x : Slot) (n : BitVec 5) (v : Word) : Slot := if n = 0 then x else { x with g := x.g.set n.toFin v }

def Slot.getE (x : Slot) (n : BitVec 3) : Word := x.e[n.toFin]
def Slot.setE (x : Slot) (n : BitVec 3) (v : Word) : Slot := { x with e := x.e.set n.toFin v }

def State.g (s : State) (n : BitVec 5) : Word := s.me.getG n
def State.setG (s : State) (n : BitVec 5) (v : Word) : State := s.updMe fun x => x.setG n v
def State.e (s : State) (n : BitVec 3) : Word := s.me.getE n

/-- The PC a stored address gives: its 16-bit offset with bit 0 zero, as a local address (03_encoding.md R110). The address
past code memory, where a sequential fetch raises BOUNDARY (R111), is kept (DEDUCED: notes/assumptions/46.md). -/
def pcOf (q : Word) : Word := if q = 0xE0000 then q else 0xD0000 + (q &&& 0xFFFE)

/-- The PC moved past an instruction of `len` bytes. -/
def State.adv (s : State) (len : Nat) : State := s.updMe fun x => { x with pc := x.pc + BitVec.ofNat 64 len }

/-- PC[15:0] of the current instruction (03_encoding.md R110). -/
def State.pcOff (s : State) : Nat := bits s.me.pc 15 0

/-! ### STATUS (07_control_registers.md R234) -/

def Slot.pw (x : Slot) : Bool := bit x.status 0
def Slot.ie (x : Slot) : Bool := bit x.status 1
def Slot.td (x : Slot) : Bool := bit x.status 2
def Slot.prv (x : Slot) : Nat := bits x.status 5 4

/-! ### Time (14_counters_and_records.md R461, 20_device.md R494) -/

/-- TIME in ticks of the reference. -/
def State.time (s : State) : Nat := s.units / Config.tickUnits

/-- Cycles of a cluster's tile clock so far. -/
def State.clusterCycles (s : State) (c : Fin 32) : Nat :=
  let k := s.clusters[c]
  k.cycles + (s.units - k.base) / Config.cycleUnits k.step

/-! ### Coordinates (01_machine.md R12, 20_device.md R500) -/

/-- Whether a physical tile is fused off. -/
def State.isFused (s : State) (x y : Nat) : Bool := s.fused.contains (128 * y + x)

/-- Die and die-local coordinates of a physical tile. -/
def dieOf (x y : Nat) : Nat := x / 32 + 4 * (y / 32)

/-- The `r`-th position of a die in the ranking of R500. -/
def rankPos (d r : Nat) : Nat × Nat :=
  (32 * (d % 4) + (r % 32 + 16 * (d % 2)) % 32, 32 * (d / 4) + r / 32)

/-- The ranks of a die's fused tiles, rising. -/
def fusedRanks (fused : List Nat) (d : Nat) : List Nat :=
  fused.foldl (fun l p =>
    let x := p % 128
    let y := p / 128
    if dieOf x y = d then setInsert l ((y % 32) * 32 + (x % 32 + 32 - 16 * (d % 2)) % 32) else l) []

/-- The position in the ranking that the `n`-th active tile takes: every fused position up to it is passed over. -/
def skipFused (l : List Nat) (n : Nat) : Nat := l.foldl (fun r f => if f ≤ r then r + 1 else r) n

/-- Physical coordinates of logical tile `n`; none where the number names no tile (R500). -/
def State.coord (s : State) (n : Nat) : Option (Nat × Nat) :=
  let d := n / 1024
  let fr := fusedRanks s.fused d
  if d < 8 ∧ n % 1024 + fr.length < 1024 then some (rankPos d (skipFused fr (n % 1024))) else none

/-- Logical number of a physical tile; none where it is fused off. -/
def State.logical (s : State) (x y : Nat) : Option Nat :=
  let d := dieOf x y
  let r := (y % 32) * 32 + (x % 32 + 32 - 16 * (d % 2)) % 32
  if s.isFused x y ∨ ¬ (x < 128 ∧ y < 64) then none
  else some (1024 * d + r - ((fusedRanks s.fused d).filter (· < r)).length)

/-- Cluster number die * 4 + cluster of a physical tile (R12). -/
def clusterAt (x y : Nat) : Nat := dieOf x y * 4 + x % 32 / 16 + 2 * (y % 32 / 16)

/-- Cluster of a logical tile; a number that names no tile falls in its die's first cluster. -/
def State.clusterOf (s : State) (n : Nat) : Fin 32 :=
  match s.coord n with
  | some (x, y) => Fin.ofNat 32 (clusterAt x y)
  | none => Fin.ofNat 32 (n / 1024 * 4)

/-- CYCLE of a tile (R461). -/
def State.cycle (s : State) (t : Nat) : Nat := s.clusterCycles (s.clusterOf t)

/-- Units of one cycle of a tile now. -/
def State.cycleLen (s : State) (t : Nat) : Nat := Config.cycleUnits (s.clusters[s.clusterOf t]).step

/-- The active tiles of the package in ascending logical number. -/
def State.activeTiles (s : State) : List Nat := (List.range 8192).filter fun n => (s.coord n).isSome

/-- The package manager tile: the boot tile (0, 31) (20_device.md R492). -/
def State.managerTile (s : State) : Nat := (s.logical 0 31).getD 992

/-! ### Partitions (01_machine.md R45) -/

/-- Whether a rectangle in 4-tile blocks holds a physical tile. -/
def Partition.holds (p : Partition) (x y : Nat) : Bool :=
  decide (4 * p.rx ≤ x ∧ x < 4 * (p.rx + p.rw) ∧ 4 * p.ry ≤ y ∧ y < 4 * (p.ry + p.rh))

/-- The partition that holds a tile. -/
def State.partOf (s : State) (t : Nat) : Option Partition :=
  match s.coord t with
  | none => none
  | some (x, y) => s.mgr.parts.find? fun p => p.holds x y

/-- The partition a tenant names. -/
def State.part (s : State) (tnt : Nat) : Option Partition := s.mgr.parts.find? fun p => p.tnt == tnt

/-- The network of a NETID. -/
def State.net (s : State) (n : Nat) : Option Network := s.mgr.nets.find? fun x => x.netid == n

/-- The active tiles of a partition in ascending logical number (13_system_tables.md R448). -/
def State.partTiles (s : State) (p : Partition) : List Nat :=
  s.activeTiles.filter fun n => match s.coord n with
    | some (x, y) => p.holds x y
    | none => false

/-! ### The black box (14_counters_and_records.md R476) -/

/-- Die of a fabric end. -/
def State.dieOfEp (s : State) : Ep → Fin 8
  | ⟨.tile, n⟩ => match s.coord n with
    | some (x, y) => Fin.ofNat 8 (dieOf x y)
    | none => Fin.ofNat 8 (n / 1024)
  | ⟨.edge, n⟩ => Fin.ofNat 8 (n / 32)
  | ⟨.reel, n⟩ => Fin.ofNat 8 (n / 4)
  | ⟨.port, _⟩ => 0

/-- An entry written whole to the ring of the die of its source. -/
def State.blackBox (s : State) (src : Ep) (kind tnt : Nat) (d0 d1 : Word) : State :=
  let d := s.dieOfEp src
  let source := match src.kind with
    | .tile => src.num
    | _ => src.num + 0x8000
  let w1 : Word := BitVec.ofNat 64 (kind + source * 2 ^ 16 + tnt * 2 ^ 32)
  let r := s.bbox[d]
  let es := r.entries ++ [#v[BitVec.ofNat 64 s.time, w1, d0, d1]]
  { s with bbox := s.bbox.set d { count := r.count + 1, entries := es.drop (es.length - 256) } }

/-- The process the manager has placed in a slot (07_control_registers.md R506). -/
def State.procAt (s : State) (t : Nat) (k : Nat) : Option Proc := s.mgr.procs.find? fun p => p.tile == t && p.slot == k

/-! ### A field's effective value (01_machine.md R37-R39; 13_system_tables.md R444) -/

/-- A field's effective value at a partition (R38). -/
def State.effPart (s : State) (f : Rcb → Option Nat) (tnt : Nat) : Nat :=
  match (s.part tnt).bind fun p => f p.rcb with
  | some v => v
  | none => (f s.mgr.pkg).getD 0

/-- A field's effective value at a network. -/
def State.effNet (s : State) (f : Rcb → Option Nat) (netid : Nat) : Nat :=
  match s.net netid with
  | some n => match f n.rcb with
    | some v => v
    | none => s.effPart f n.tnt
  | none => (f s.mgr.pkg).getD 0

/-- A field's effective value at a process. -/
def State.effProc (s : State) (f : Rcb → Option Nat) (p : Proc) : Nat :=
  match f p.rcb with
  | some v => v
  | none => s.effNet f p.netid

/-! ### Terminal faults (01_machine.md R42; 07_control_registers.md R238, R506) -/

/-- An end of the process placed in a slot, for the manager to act on. A fault reads FDOM here, as it is delivered
(13_system_tables.md R444). -/
def State.pushEnd (s : State) (t : Nat) (k : Fin 8) (c : BitVec 8) (v : Word) (fault : Bool) : State :=
  match s.procAt t k with
  | some p =>
    let r : EndReq := { tile := t, slot := some k, netid := p.netid, pid := some p.pid, cause := c, eval := v, fault := fault,
                        cycle := BitVec.ofNat 64 (s.cycle t), unit := if fault then s.effProc (·.fdom) p else 0 }
    s.modMgr fun m => { m with ends := m.ends ++ [r] }
  | none => s

/-- A slot that runs no further: at once, or, with a copy whose elements have been sent, once that copy has retired
(08_memories.md R298). -/
def Slot.cease (x : Slot) : Slot :=
  match x.pend with
  | .copy c => if c.sent then { x with run := .stopping } else { x with run := .stopped, wait := none, pend := .none }
  | _ => { x with run := .stopped, wait := none, pend := .none }

/-- A terminal fault raised in a slot: the placed process is to end (UNIT_END), the slot runs no further, and the tile
writes a black-box entry. -/
def State.terminal (s : State) (t : Nat) (k : Fin 8) (c : BitVec 8) (v : Word) : State :=
  let s1 := (s.blackBox ⟨.tile, t⟩ 0x01 (s.slot t k).tenant.toNat (c.setWidth 64) v).pushEnd t k c v true
  s1.modSlot t k Slot.cease

/-- A terminal fault that no slot raises: DEADLOCK and SPILL_EXHAUSTED of a network, with no process, or a loss on the
account of one of its processes (R42). A domain of PROCESS is read as NETWORK for a fault attributed to the network. -/
def State.terminalNet (s : State) (e : Ep) (netid : Nat) (pid : Option Nat) (c : BitVec 8) (v : Word) : State :=
  match s.net netid with
  | some n =>
    let here := e.kind == .tile
    let unit := match s.mgr.procs.find? fun p => p.netid == netid && some p.pid == pid with
      | some p => s.effProc (·.fdom) p
      | none => if pid = none then max 1 (s.effNet (·.fdom) netid) else s.effNet (·.fdom) netid
    let r : EndReq := { tile := if here then e.num else 0xFFFF, slot := none, netid := netid, pid := pid, cause := c,
                        eval := v, fault := true, cycle := if here then BitVec.ofNat 64 (s.cycle e.num) else 0,
                        unit := unit }
    (s.blackBox e 0x01 n.tnt (c.setWidth 64) v).modMgr fun m => { m with ends := m.ends ++ [r] }
  | none => s

/-- DoubleFault(c, v) (R238): the slot's process ends; in the supervisor slot, every process placed on the tile. -/
def State.doubleFault (s : State) (t : Nat) (k : Fin 8) (c : BitVec 8) (v : Word) : State :=
  if k = (s.tile t).supSlot then
    let others := (s.mgr.procs.filter fun p => p.tile == t && p.slot != k.val).map fun p => Fin.ofNat 8 p.slot
    (others.foldl (fun s' j => s'.terminal t j c v) s).terminal t k c v
  else s.terminal t k c v

/-! ### Fetch and target checks (03_encoding.md R111, 04_scalar_registers.md R164) -/

/-- The start bit of the halfword at a local address of code memory. -/
def Tile.startBit (x : Tile) (a : Nat) : Bool := x.start.getLsbD ((a - 0xD0000) / 2)

/-- The halfword at a local address. -/
def Tile.half (x : Tile) (a : Nat) : BitVec 16 := BitVec.ofNat 16 (Mem.load x.mem a 2)

/-- The checks of R111 at an address, in the order of R164; the cause and EVAL of the first that fails. -/
def Tile.checkTarget (x : Tile) (a : Word) : Option (BitVec 8 × Word) :=
  let n := a.toNat
  if n % 2 = 1 then some (cMISALIGN, a)
  else if n < 0xD0000 ∨ 0xDFFFF < n then some (cBOUNDARY, a)
  else if x.startBit n = false then some (cBOUNDARY, a)
  else if (x.half n).getLsbD 15 = true then
    if n = 0xDFFFE then some (cBOUNDARY, a)
    else if x.startBit (n + 2) = true then some (cBOUNDARY, a + 2)
    else none
  else none

/-! ### Traps (07_control_registers.md R238, R242) -/

/-- STATUS at trap entry: SAVED := STATUS[8:0]; PW, IE := 0; TD := 1; PRV := max(PRV, S). -/
def trapStatus (st : Word) : Word :=
  let saved := setBits st 24 16 (bits st 8 0)
  setBits (setBits saved 2 0 4) 5 4 (max (bits st 5 4) 1)

/-- A trap of slot `k` of tile `t` with cause `c`, EVAL `v` and return address `a` (R238). The handler of the firmware's
default supervisor is its own: its address is not checked. -/
def State.takeTrap (s : State) (t : Nat) (k : Fin 8) (c : BitVec 8) (v a : Word) : State :=
  let x := s.slot t k
  if x.td then (s.modSlot t k fun x => { x with wait := none, pend := .none }).doubleFault t k c v
  else
    let s1 := s.modSlot t k fun x =>
      { x with status := trapStatus x.status, cause := c.setWidth 64, eval := v, epc := a, wait := none, pend := .none }
    if ((s.tile t).checkTarget x.tvec).isSome && !((s.tile t).defSup && k != (s.tile t).supSlot) then
      s1.doubleFault t k c v
    else s1.modSlot t k fun x => { x with pc := x.tvec }

/-- The firmware's default supervisor ends the process of a slot that traps on its tile: without a fault on SYSCALL 0,
as a terminal fault otherwise (15_program_int8_product.md R478). -/
def State.defaultSupervisor (s : State) (t : Nat) (k : Fin 8) (c : BitVec 8) (v : Word) : State :=
  if (s.tile t).defSup ∧ k ≠ (s.tile t).supSlot ∧ ((s.slot t k).run = .running ∨ (s.slot t k).run = .halting) then
    if c = cSYSCALL ∧ v = 0 then
      (s.pushEnd t k c v false).modSlot t k fun x => { x with run := .stopped }
    else s.terminal t k c v
  else s

/-- STATUS after a return: STATUS[8:0] := SAVED (R242). -/
def returnStatus (st : Word) : Word := setBits st 8 0 (bits st 24 16)

/-- The return from a trap of the current slot once CheckTarget(EPC) has passed (R242). -/
def State.returnFromTrap (s : State) : State :=
  s.updMe fun x => { x with status := returnStatus x.status, pc := x.epc }

/-- Trap(c, v) of the current instruction, with return address `a`. -/
def State.trapAt (s : State) (c : BitVec 8) (v a : Word) : State :=
  (s.takeTrap s.cur.tile s.cur.slot c v a).defaultSupervisor s.cur.tile s.cur.slot c v

/-! ### How an instruction's body ends -/

/-- What ends a body before its effect (00_scope.md R10). -/
inductive Stop where
  /-- Trap(cause, value), EPC at the instruction, no effect. -/
  | trap (c : BitVec 8) (v : Word)
  /-- The same with an effect its entry keeps: a partial fault, the state of a channel end. -/
  | trapIn (s : State) (c : BitVec 8) (v : Word)
  /-- The instruction waits and has no effect yet. -/
  | wait (k : WaitKind)
  /-- It waits, having asked for something. -/
  | waitIn (s : State) (k : WaitKind)
  /-- SDC: no handler runs (R42). The state keeps what the error's finder changed. -/
  | sdc (s : State) (v : Word)

/-- An instruction's body. -/
abbrev Body := State → Except Stop State

/-- Launch delay of a wait, in units of DELAY; none for a wait that launches no probes (10_channels.md R345). -/
def WaitKind.delay : WaitKind → Option Nat
  | .send _ _ _ => some 1
  | .recv _ => some 4
  | .reel _ _ _ => some 4
  | _ => none

/-- Whether two waits are one and the same wait: on the same channel or reel (10_channels.md R347). -/
def WaitKind.same (a b : WaitKind) : Bool :=
  match a, b with
  | .send e _ _, .send f _ _ => e == f
  | .recv l, .recv m => l.any fun x => m.any fun y => y.1 == x.1
  | _, _ => a == b

/-- A wait begun, or continued where the slot already waits. -/
def State.block (s : State) (k : WaitKind) : State :=
  let t := s.cur.tile
  let next := k.delay.map fun d => s.units + d * (s.tile t).probeDelay.toNat * s.cycleLen t
  let new : Wait := { kind := k, since := s.units, probeAt := next, probes := [] }
  s.updMe fun x => { x with wait := some (match x.wait with
    | some w => if w.kind.same k then { w with kind := k } else new
    | none => new) }

/-- Whether a slot that is to stop has nothing outstanding (R252; 08_memories.md R298; 11_fragments_and_errands.md R388):
no far access unanswered, no indexed access begun, no copy begun, no RUPD unapplied, no errand without its REPLY. -/
def Slot.quiet (x : Slot) : Bool :=
  (match x.pend with
    | .far _ => false
    | .farDone _ _ _ => false
    | .elems _ => false
    | .copy c => !c.sent
    | _ => true) && x.rupds.isEmpty && x.errOut.isEmpty

/-- Whether every earlier write of the current slot's process is performed for every observer: none of its RUPDs and errand
frames is outstanding. A release waits for it (09_memory_ordering.md R307, R314, R316). -/
def State.released (s : State) : Bool := s.me.rupds.isEmpty && s.me.errOut.isEmpty

/-- Whether a slot stands at an instruction boundary: the instruction at its PC has not issued, or it only waits on a channel
or a reel, or for what it has asked before its first access, and can begin again (R241; 08_memories.md R298). -/
def Slot.between (x : Slot) : Bool :=
  match x.pend with
  | .none => true
  | .far _ => false
  | .farDone _ _ _ => false
  | .reel _ _ => true
  | .reelDone _ _ => true
  | .copy c => !c.sent
  | .elems _ => false
  | .volta _ _ => false
  | .woken => true
  | .begun => false

/-- Whether the instruction at a slot's PC has issued, so that what is left of it takes no further issue cycle
(01_machine.md R26). -/
def Slot.hasIssued (x : Slot) : Bool :=
  match x.pend with
  | .none => false
  | .woken => false
  | _ => true

/-- DEBUG_HALT of a slot at the boundary before its next instruction: CAUSE, EPC and EVAL recorded, STATUS unchanged
(R243). -/
def Slot.debugHalt (x : Slot) : Slot :=
  { x with run := .halted, cause := cDEBUG_HALT.setWidth 64, epc := x.pc, eval := 0, wait := none, pend := .none }

/-- A slot that is to stop, stopped once nothing of it is outstanding; what it had only begun to wait for runs again. One that is
to halt, halted at its boundary. -/
def Slot.tidyStop (x : Slot) : Slot :=
  match x.run with
  | .stopping => if x.quiet then { x with run := .stopped, wait := none, pend := .none } else x
  | .halting => if x.between then x.debugHalt else x
  | _ => x

/-- SDC found by a slot's instruction, which is over with it. -/
def State.endSdc (s : State) (t : Nat) (k : Fin 8) (v : Word) : State :=
  (s.modSlot t k fun x => { x with wait := none, pend := .none }).terminal t k cSDC v

/-- The state after a body, the slot not yet tidied. -/
def State.settleBody (s : State) : Except Stop State → State
  | .ok s' => s'.updMe fun x => { x with wait := none }
  | .error (.trap c v) => s.trapAt c v s.me.pc
  | .error (.trapIn s' c v) => s'.trapAt c v s.me.pc
  | .error (.wait k) => s.block k
  | .error (.waitIn s' k) => s'.block k
  | .error (.sdc s' v) => s'.endSdc s.cur.tile s.cur.slot v

/-- The state after a body. -/
def State.settle (s : State) (r : Except Stop State) : State := (s.settleBody r).updMe Slot.tidyStop

/-- What executing an instruction gives. -/
abbrev Res := Host.Outcome State Fault Refusal

/-- An instruction executed for the current slot; nothing runs while the core rail is down (20_device.md R495). -/
def runBody (s : State) (b : Body) : Host.Outcome State Fault Refusal :=
  if s.dev.railUp then .next (s.settle (b s)) else .fault .coreRailCut

/-- An event; one that is not enabled in the state changes nothing (DESIGN CHOICE: notes/assumptions/3.md). -/
def runEvent (s : State) (f : State → State) : Host.Outcome State Fault Refusal :=
  if s.dev.railUp then .next (f s) else .fault .coreRailCut

/-- A body that needs a vector slot: ILLEGAL with EVAL the encoding in slots 2 to 7 (01_machine.md R24). -/
def needVec (enc : Nat) (b : Body) : Body := fun s =>
  if 2 ≤ s.cur.slot.val then .error (.trap cILLEGAL (BitVec.ofNat 64 enc)) else b s

/-! ### Encodings, for EVAL (03_encoding.md R113) -/

/-- A V-format instruction's word. -/
def vEnc (b : BitVec 5) (x y : BitVec 1) (m : BitVec 3) (e : BitVec 1) (funct maj : Nat) (d a : BitVec 5) : Nat :=
  b.toNat * 2 ^ 27 + x.toNat * 2 ^ 26 + y.toNat * 2 ^ 25 + m.toNat * 2 ^ 22 + e.toNat * 2 ^ 21 + funct * 2 ^ 16 + 2 ^ 15
    + maj * 2 ^ 10 + d.toNat * 2 ^ 5 + a.toNat

/-- An I-format instruction's word. -/
def iEnc (funct : Nat) (imm : BitVec 13) (maj : Nat) (d a : BitVec 5) : Nat :=
  funct * 2 ^ 29 + imm.toNat * 2 ^ 16 + 2 ^ 15 + maj * 2 ^ 10 + d.toNat * 2 ^ 5 + a.toNat

/-- An R-format instruction's word. -/
def rEnc (t : BitVec 5) (funct maj : Nat) (d a : BitVec 5) : Nat :=
  t.toNat * 2 ^ 27 + funct * 2 ^ 16 + 2 ^ 15 + maj * 2 ^ 10 + d.toNat * 2 ^ 5 + a.toNat

/-- A body that needs privilege `lvl` (07_control_registers.md R231). -/
def needPrv (enc lvl : Nat) (b : Body) : Body := fun s =>
  if s.me.prv < lvl then .error (.trap cPRIVILEGE (BitVec.ofNat 64 enc)) else b s

end Sys2Proof.Machine
end

