-- ==== Sys2Proof/Machine/Fabric.lean ====
section
/-!
DEFINITION. Messages and fragments (11_fragments_and_errands.md): the header, the code, sending with the send shadow
and INJECT, resending, and the acknowledgements DONE, RELEASE and NACK.
-/
namespace Sys2Proof.Machine

/-! ### The code (02_number_formats.md R106-R108; R369, R370) -/

/-- GFMul(a, b), `n` bits of `b` still to go. -/
def gfMulGo : Nat → Nat → Nat → Nat
  | 0, _, _ => 0
  | n + 1, a, b =>
    let a2 := if 2 * a ≥ 0x100 then (2 * a) ^^^ 0x11D else 2 * a
    (if b % 2 = 1 then a else 0) ^^^ gfMulGo n a2 (b / 2)

/-- GFMul (R106). -/
def gfMul (a b : Nat) : Nat := gfMulGo 8 a b

/-- a to the power 2^n - 2, by squaring. -/
def gfInvGo : Nat → Nat → Nat
  | 0, _ => 1
  | n + 1, a => gfMul (gfMul a a) (gfInvGo n (gfMul a a))

/-- GFInv (R106): a^254. -/
def gfInv (a : Nat) : Nat := gfInvGo 7 a

/-- C[j][i] = GFInv((16 + j) XOR i) (R107). -/
def codeCoef (j i : Nat) : Nat := gfInv ((16 + j) ^^^ i)

/-- Data fragment `i` of a payload: bytes 32i to 32i + 31, zeros past its end (R366). -/
def dataFrag (payload : List Byte) (i : Nat) : List Byte :=
  let d := (payload.drop (32 * i)).take 32
  d ++ List.replicate (32 - d.length) 0

/-- A multiple of a row of bytes. -/
def gfScale (c : Nat) (l : List Byte) : List Byte := l.map fun b => BitVec.ofNat 8 (gfMul c b.toNat)

/-- The sum of two rows. -/
def gfAdd (a b : List Byte) : List Byte := List.zipWith (· ^^^ ·) a b

/-- Parity row `j` over the data fragments (R369). -/
def parityRow (j : Nat) (ds : List (List Byte)) : List Byte :=
  ds.zipIdx.foldl (fun p d => gfAdd p (gfScale (codeCoef j d.2) d.1)) (List.replicate 32 0)

/-- The solution of equations over GF(2^8), each its coefficients and its right side, by elimination. -/
def gfSolve : Nat → List (List Nat × List Byte) → List (List Byte)
  | 0, _ => []
  | n + 1, rows =>
    match rows.find? (fun r => r.1.headD 0 != 0) with
    | none => []
    | some p =>
      let iv := gfInv (p.1.headD 0)
      let pc := (p.1.drop 1).map (gfMul iv)
      let pr := gfScale iv p.2
      let rest := (rows.filter (fun r => r != p)).map fun r =>
        let c := r.1.headD 0
        (List.zipWith (fun x y => x ^^^ gfMul c y) (r.1.drop 1) pc, gfAdd r.2 (gfScale c pr))
      let xs := gfSolve n rest
      (List.zip pc xs).foldl (fun acc cx => gfAdd acc (gfScale cx.1 cx.2)) pr :: xs

/-- The data fragments of a message of `k`, rebuilt from the fragments present (R370): present data fragments as they
are, the missing ones solved from the lowest parity rows present. -/
def rebuild (k : Nat) (frags : List (Nat × List Byte)) : List (List Byte) :=
  let missing := (List.range k).filter fun i => (mapFind frags i).isNone
  let rows := ((List.range 4).filterMap fun j => (mapFind frags (16 + j)).map fun b => (j, b)).take missing.length
  let eqs := rows.map fun jb =>
    (missing.map fun i => codeCoef jb.1 i,
     (List.range k).foldl (fun acc i => match mapFind frags i with
       | some d => gfAdd acc (gfScale (codeCoef jb.1 i) d)
       | none => acc) jb.2)
  let sol := gfSolve missing.length eqs
  (List.range k).map fun i => match mapFind frags i with
    | some d => d
    | none => match findIdx (· == i) missing with
      | some p => sol.getD p []
      | none => []

/-! ### The header (R362-R365) -/

def clsTOKENS : Nat := 0
def clsCOPY : Nat := 1
def clsERRAND : Nat := 2
def clsREPLY : Nat := 3
def clsREEL : Nat := 4
def clsCONTROL : Nat := 5
def clsNACK : Nat := 6

def kindCode : EpKind → Nat
  | .tile => 0
  | .edge => 1
  | .reel => 2
  | .port => 3

def kindOf : Nat → EpKind
  | 0 => .tile
  | 1 => .edge
  | 2 => .reel
  | _ => .port

/-- Data fragments of a payload of `n` bytes (R366). -/
def dataCount (n : Nat) : Nat := (n + 31) / 32

/-- The 16 header bytes of a fragment (R362). A message replayed after a loss (R392) may be sent more than four times: ATTEMPT
stays at 3 (DESIGN CHOICE: notes/assumptions/57.md). -/
def headerBytes (h : MsgHdr) (fidx : Nat) : List Byte :=
  toBytes 4 (min h.attempt 3 * 2 ^ 30 + kindCode h.dst.kind * 2 ^ 28 + h.dst.num % 8192 * 2 ^ 15
    + kindCode h.src.kind * 2 ^ 13 + h.src.num % 8192)
  ++ toBytes 2 (h.cls * 2 ^ 13 + h.slot * 2 ^ 10 + h.tnt % 1024)
  ++ toBytes 2 h.seq
  ++ toBytes 6 h.arg.toNat
  ++ toBytes 2 ((h.len - 1) * 2 ^ 7 + (h.m - 1) * 2 ^ 5 + fidx)

/-- The sequence number of the first token of a TOKENS message (R364). -/
def tokSeq (h : MsgHdr) : Nat := bits h.arg 39 24 * 65536 + h.seq

/-- Class TOKENS: 32-bit number of the first token; otherwise SEQ (R363). -/
def seqKey (h : MsgHdr) : Nat := if h.cls = clsTOKENS then tokSeq h else h.seq

/-- Whether two headers have one identity (R363). -/
def sameIdent (a b : MsgHdr) : Bool :=
  a.src == b.src && a.slot == b.slot && a.cls == b.cls && a.stream == b.stream && seqKey a == seqKey b

/-- DONE, RELEASE and NACK are not acknowledged and never enter a filter (R365). -/
def isAck (h : MsgHdr) : Bool :=
  h.cls == clsNACK || (h.cls == clsCONTROL && (bits h.arg 7 0 == 0x02 || bits h.arg 7 0 == 0x03))

/-! ### Ends -/

/-- The fragment layer of an end; a port's is not held. -/
def State.fab (s : State) (e : Ep) : Fabric :=
  match e.kind with
  | .tile => (s.tile e.num).fab
  | .edge => (s.edge e.num).fab
  | .reel => (s.reelSt e.num).fab
  | .port => Fabric.reset

def State.modFab (s : State) (e : Ep) (f : Fabric → Fabric) : State :=
  match e.kind with
  | .tile => s.modTile e.num fun x => { x with fab := f x.fab }
  | .edge => s.modEdge e.num fun x => { x with fab := f x.fab }
  | .reel => s.modReel e.num fun x => { x with fab := f x.fab }
  | .port => s

/-- A fabric counter of R465, by its index. -/
def State.count (s : State) (e : Ep) (c : Fin 10) (n : Nat) : State :=
  s.modFab e fun f => { f with ctrs := f.ctrs.set c (f.ctrs[c] + BitVec.ofNat 64 n) }

def ctrLOST : Fin 10 := 0
def ctrLATE : Fin 10 := 1
def ctrRECON : Fin 10 := 2
def ctrNACKS : Fin 10 := 3
def ctrRETX : Fin 10 := 4
def ctrLOSS : Fin 10 := 5
def ctrPROBEDROP : Fin 10 := 6
def ctrFWD : Fin 10 := 7
def ctrHELD : Fin 10 := 8
def ctrDISCARD : Fin 10 := 9

/-- The tile whose CRATE, DECODE_DEADLINE and RETRY_LIMIT an end uses: its own, or the package manager tile's (R367;
DESIGN CHOICE: notes/assumptions/12.md). -/
def State.regTile (s : State) (e : Ep) : Nat := if e.kind = .tile then e.num else s.managerTile

/-- DECODE_DEADLINE of an end, in units of time. -/
def State.deadline (s : State) (e : Ep) : Nat :=
  let t := s.regTile e
  (s.tile t).decDeadline.toNat * s.cycleLen t

/-- RETRY_LIMIT of an end. -/
def State.retryLimit (s : State) (e : Ep) : Nat := (s.tile (s.regTile e)).retryLimit.toNat

/-- Physical position of an end: a tile's, or that of the router its station attaches to (01_machine.md R15, R16). -/
def State.posOf (s : State) : Ep → Option (Nat × Nat)
  | ⟨.tile, n⟩ => s.coord n
  | ⟨.edge, n⟩ => some (32 * (n / 32 % 4) + n % 32, if n / 32 < 4 then 0 else 63)
  | ⟨.reel, n⟩ => some (32 * (n / 4 % 4) + 16 * (n % 2) + 8, 32 * (n / 16) + 16 * (n % 4 / 2) + 8)
  | ⟨.port, _⟩ => none

/-- Route class of R367: 0 cluster, 1 die, 2 cross-die, 3 cross-package. -/
def State.routeClass (s : State) (a b : Ep) : Fin 4 :=
  if (a.kind = .port ∧ a.num < 4) ∨ (b.kind = .port ∧ b.num < 4) then 3
  else match s.posOf a, s.posOf b with
    | some (x, y), some (u, v) =>
      if a.kind = .tile ∧ b.kind = .tile ∧ clusterAt x y = clusterAt u v then 0
      else if dieOf x y = dieOf u v then 1
      else 2
    | _, _ => 2

/-- Parity fragments of a message from `a` to `b` (R367). -/
def State.parityCount (s : State) (a b : Ep) : Nat := ((s.tile (s.regTile a)).crate[s.routeClass a b]).toNat

/-- The next SEQ of a slot and class of an end (R363). -/
def State.takeSeq (s : State) (e : Ep) (slot cls : Nat) : Nat × State :=
  let l := (s.fab e).seqs
  let n := match l.find? fun p => p.1 == (slot, cls) with
    | some p => p.2
    | none => 0
  (n, s.modFab e fun f =>
    { f with seqs := ((slot, cls), n + 1) :: f.seqs.filter fun p => p.1 != (slot, cls) })

/-! ### Sending (R366, R371, R374) -/

/-- The fragments of a sending: the named data fragments, then the named parity rows (R371). -/
def mkFrags (h : MsgHdr) (payload : List Byte) (data rows : List Nat) : List Frag :=
  let k := dataCount h.len
  let ds := (List.range k).map (dataFrag payload)
  data.map (fun i => { hdr := h, fidx := i, data := ds.getD i [], hops := 0, retries := 0, link := 0 })
  ++ rows.map fun j => { hdr := h, fidx := 16 + j, data := parityRow j ds, hops := 0, retries := 0, link := 0 }

/-- Whether INJECT KIND 1 and 2 may act on a message (19_program_remote_copy.md R488): COPY, ERRAND, REEL, and tokens
of a channel bound to a port; `own` marks what the tile sends on its own or the manager's account. -/
def countedMsg (h : MsgHdr) (own : Bool) : Bool :=
  !own && (h.cls == clsCOPY || h.cls == clsERRAND || h.cls == clsREEL ||
    (h.cls == clsTOKENS && match h.stream with
      | .chan _ _ => true
      | _ => false))

/-- First sendings put on the wire, with what an armed INJECT does to them (07_control_registers.md R234). -/
def State.launchFrags (s : State) (h : MsgHdr) (own : Bool) (fs : List Frag) : State :=
  if h.src.kind = .tile ∧ countedMsg h own then
    let q := (s.tile h.src.num).inject
    let kind := bits q 3 0
    if kind = 1 ∨ kind = 2 then
      let fi := bits q 15 8
      let hit := fs.filter fun f => f.fidx == fi
      let s1 := s.modTile h.src.num fun x => { x with inject := 0 }
      let s2 := { s1 with wire := s1.wire ++ fs.filter fun (f : Frag) => f.fidx != fi }
      if kind = 1 then s2.count h.src ctrLOST hit.length
      else
        let due := s.units + bits q 31 16 * s.cycleLen h.src.num
        s2.modFab h.src fun f => { f with injHeld := f.injHeld ++ hit.map fun x => (x, due) }
    else { s with wire := s.wire ++ fs }
  else { s with wire := s.wire ++ fs }

/-- Credits a message uses: one for each data token of a channel (10_channels.md R329). -/
def creditsOf (h : MsgHdr) (payload : List Byte) : Nat :=
  match h.stream with
  | .chan _ _ => if h.cls = clsTOKENS ∧ bits h.arg 42 41 = 0 then payload.length / 8 else 0
  | _ => 0

/-- The end that sends a message: its source, or the end that forwards it (R394). -/
def MsgHdr.sender (h : MsgHdr) : Ep := h.via.getD h.src

/-- A message's first sending put on the wire: its data fragments, then its parity rows (R371). -/
def State.firstSend (s : State) (h : MsgHdr) (payload : List Byte) (own : Bool) : State :=
  s.launchFrags h own (mkFrags h payload (List.range (dataCount h.len)) (List.range h.m))

/-- Messages of a source slot and class that await acknowledgement in a shadow (R363, R374). -/
def Fabric.awaiting (f : Fabric) (src : Ep) (slot cls : Nat) : Nat :=
  (f.shadow.filter fun x => x.msg.hdr.src == src && x.msg.hdr.slot == slot && x.msg.hdr.cls == cls && !x.done && !x.lost &&
    x.unsent.isNone).length

/-- A message sent for the first time: its fragments go out and, unless it is an acknowledgement, the send shadow keeps
it with a running timer (R374). While 32,768 messages of its slot and class await acknowledgement it stands in the shadow
unsent, its timer stopped (R363). `h.m`, `h.len` and `h.uid` are set here. -/
def State.sendMsg (s : State) (h : MsgHdr) (payload : List Byte) (own : Bool) : State :=
  let h1 := { h with m := s.parityCount h.sender h.dst, len := payload.length, uid := s.sentMsgs }
  let s0 := { s with sentMsgs := s.sentMsgs + 1 }
  if isAck h1 then s0.firstSend h1 payload own
  else
    let sh : Shadow :=
      { msg := { hdr := h1, payload := payload }, attempt := 0, resends := 0, timer := none, done := false,
        credits := creditsOf h1 payload, lost := false }
    if 32768 ≤ (s.fab h.sender).awaiting h.src h.slot h.cls then
      s0.modFab h.sender fun f => { f with shadow := f.shadow ++ [{ sh with unsent := some own }] }
    else
      (s0.firstSend h1 payload own).modFab h.sender fun f =>
        { f with shadow := f.shadow ++ [{ sh with timer := some (s.units + 4 * s.deadline h.sender) }] }

/-- The oldest unsent message of a slot and class at an end sent, where R363 allows it now. -/
def State.sendNext (s : State) (e src : Ep) (slot cls : Nat) : State :=
  let f := s.fab e
  match findIdx (fun x : Shadow => x.msg.hdr.src == src && x.msg.hdr.slot == slot && x.msg.hdr.cls == cls && x.unsent.isSome)
      f.shadow with
  | some i =>
    match f.shadow[i]? with
    | some x =>
      if f.awaiting src slot cls < 32768 then
        (s.firstSend x.msg.hdr x.msg.payload (x.unsent.getD true)).modFab e fun g =>
          { g with shadow := listSet g.shadow i { x with unsent := none, timer := some (s.units + 4 * s.deadline e) } }
      else s
    | none => s
  | none => s

/-- The header's SLOT of a message a source sends on a slot's account: 0 for a station or port (R362). -/
def srcSlot (src : Ep) (slot : Nat) : Nat := if src.kind = .tile then slot else 0

/-- A message of a class that numbers its messages by the slot's counter; `slot` is the slot it is from, or for. -/
def State.sendCls (s : State) (src dst : Ep) (slot cls tnt : Nat) (stream : Stream) (arg : BitVec 48)
    (payload : List Byte) (own : Bool) (pid netid : Nat) (act : Nat := 0) : State :=
  let k := srcSlot src slot
  let r := s.takeSeq src k cls
  let h : MsgHdr := { attempt := 0, dst := dst, src := src, cls := cls, slot := k, tnt := tnt, seq := r.1 % 65536,
                      arg := arg, len := 0, m := 0, stream := stream, pid := pid, netid := netid, act := act, aslot := slot }
  r.2.sendMsg h payload own

/-- A TOKENS message with the number of its first token (R363, R364): END in `e` (0 data, 1 plain end, 2 broken end). -/
def State.sendTok (s : State) (src dst : Ep) (slot tnt : Nat) (stream : Stream) (chan n e : Nat) (psn : Bool)
    (payload : List Byte) (own : Bool) (pid netid : Nat) : State :=
  let h : MsgHdr := { attempt := 0, dst := dst, src := src, cls := clsTOKENS, slot := srcSlot src slot, tnt := tnt,
                      seq := n % 65536,
                      arg := BitVec.ofNat 48 (chan + n / 65536 % 65536 * 2 ^ 24 + b2n psn * 2 ^ 40 + e * 2 ^ 41),
                      len := 0, m := 0, stream := stream, pid := pid, netid := netid, aslot := slot }
  s.sendMsg h payload own

/-- Tokens of a stream that is no process's channel, numbered by the source's own count for `key`. -/
def State.sendStream (s : State) (src dst : Ep) (slot tnt : Nat) (stream : Stream) (key : Nat × Nat) (payload : List Byte)
    (psn : Bool) (pid netid : Nat) : State :=
  let l := (s.fab src).seqs
  let n := match l.find? fun p => p.1 == key with
    | some p => p.2
    | none => 0
  let s1 := s.modFab src fun f => { f with seqs := (key, n + payload.length / 8) :: f.seqs.filter fun p => p.1 != key }
  s1.sendTok src dst slot tnt stream slot n 0 psn payload true pid netid

/-- The edge station at the foot of a tile's column (01_machine.md R15). -/
def State.footOf (s : State) (t : Nat) : Ep :=
  match s.coord t with
  | some (x, y) => ⟨.edge, 32 * dieOf x y + x % 32⟩
  | none => ⟨.edge, t / 1024 * 32⟩

/-- A request of a slot on its implicit request channel (08_memories.md R271), as 64-bit words in the form of
10_channels.md R355; `psn` marks data of a poisoned element. -/
def State.sendFar (s : State) (t : Nat) (k : Fin 8) (words : List Word) (psn : Bool) : State :=
  let x := s.slot t k
  s.sendStream ⟨.tile, t⟩ (s.footOf t) k.val x.tenant.toNat .implicitReq (k.val, 100) (ofWords words) psn
    x.pid.toNat x.netid.toNat

/-- A message sent on by an end with its source, number and identity (R394; 09_memory_ordering.md R321). -/
def State.forwardMsg (s : State) (here dst : Ep) (m : Msg) : State :=
  s.sendMsg { m.hdr with dst := dst, via := some here, attempt := 0 } m.payload true

/-- A CONTROL message: subkind in ARG [7:0], its own field in ARG [47:8] (R365). -/
def State.sendControl (s : State) (src dst : Ep) (slot tnt sub field : Nat) (stream : Stream) (payload : List Byte)
    (pid netid : Nat) : State :=
  s.sendCls src dst slot clsCONTROL tnt stream (BitVec.ofNat 48 (sub + field * 256)) payload true pid netid

/-- An acknowledgement about a message, to an end: the 16 header bytes as last received (R365). -/
def State.ackTo (s : State) (here dst : Ep) (h : MsgHdr) (fidx : Nat) (cls : Nat) (arg : BitVec 48) : State :=
  let r := s.takeSeq here 0 cls
  let a : MsgHdr := { attempt := 0, dst := dst, src := here, cls := cls, slot := 0, tnt := h.tnt, seq := r.1 % 65536,
                      arg := arg, len := 0, m := 0, stream := h.stream, pid := h.pid, netid := h.netid, act := h.uid }
  r.2.sendMsg a (headerBytes h fidx) true

/-- An acknowledgement to the end that sent the message. -/
def State.sendAck (s : State) (here : Ep) (h : MsgHdr) (fidx : Nat) (cls : Nat) (arg : BitVec 48) : State :=
  s.ackTo here h.sender h fidx cls arg

/-- DONE with a status and a refusal reason (R365), which the filter entry keeps (R373). Status 2 reports a message filed as lost (DEDUCED: notes/assumptions/13.md). -/
def State.sendDone (s : State) (here : Ep) (h : MsgHdr) (status reason : Nat) : State :=
  let st : FiltStatus := if status = 0 then .accepted else if status = 1 then .refused reason else .lost
  let s1 := s.modFab here fun f => { f with filter := f.filter.map fun e => if sameIdent e.hdr h then { e with status := st } else e }
  s1.sendAck here h 0 clsCONTROL (BitVec.ofNat 48 (0x02 + status * 256 + reason * 65536))

/-- RELEASE to the end `h.dst` that has acknowledged a message (R374). -/
def State.sendRelease (s : State) (here : Ep) (h : MsgHdr) : State := s.ackTo here h.dst h 0 clsCONTROL 0x03

/-- NACK (R364). -/
def State.sendNack (s : State) (here : Ep) (h : MsgHdr) (fidx map : Nat) (redirect held : Bool) (target : Nat) : State :=
  (s.sendAck here h fidx clsNACK
    (BitVec.ofNat 48 (map % 2 ^ 20 + b2n redirect * 2 ^ 20 + b2n held * 2 ^ 21 + target % 8192 * 2 ^ 22))).count here ctrNACKS 1

/-- The acknowledged message's fields read from an acknowledgement's payload: slot, class, SEQ or token number, attempt,
with the stream and the number of the message that the model carries beside the header. -/
def ackOf (m : Msg) : MsgHdr :=
  let w0 := ofBytes (m.payload.take 4)
  let w1 := ofBytes ((m.payload.drop 4).take 2)
  let w2 := ofBytes ((m.payload.drop 6).take 2)
  let w3 := ofBytes ((m.payload.drop 8).take 6)
  { attempt := w0 / 2 ^ 30, dst := { kind := kindOf (w0 / 2 ^ 28 % 4), num := w0 / 2 ^ 15 % 8192 },
    src := { kind := kindOf (w0 / 2 ^ 13 % 4), num := w0 % 8192 },
    cls := w1 / 2 ^ 13, slot := w1 / 2 ^ 10 % 8, tnt := w1 % 1024, seq := w2, arg := BitVec.ofNat 48 w3,
    len := ofBytes ((m.payload.drop 14).take 2) / 2 ^ 7 + 1, m := ofBytes ((m.payload.drop 14).take 2) / 2 ^ 5 % 4 + 1,
    stream := m.hdr.stream, pid := m.hdr.pid, netid := m.hdr.netid, uid := m.hdr.act }

/-! ### Resending (R376) -/

/-- A resend of a shadow entry's message, with the named data fragments and parity rows. -/
def State.resend (s : State) (e : Ep) (i : Nat) (x : Shadow) (attempt : Nat) (counts : Bool) (data rows : List Nat) : State :=
  let h := { x.msg.hdr with attempt := attempt }
  let fs := mkFrags h x.msg.payload data rows
  let x1 := { x with msg := { x.msg with hdr := h }, attempt := attempt,
                     resends := if counts then x.resends + 1 else x.resends,
                     timer := some (s.units + 4 * s.deadline e) }
  let s1 := s.modFab e fun f => { f with shadow := listSet f.shadow i x1 }
  ({ s1 with wire := s1.wire ++ fs }).count e ctrRETX fs.length

/-- The shadow entry of an identity. -/
def Fabric.findShadow (f : Fabric) (h : MsgHdr) : Option Nat := findIdx (fun x : Shadow => sameIdent x.msg.hdr h) f.shadow

/-- Where a tile's fabric state is now: a vacated tile's has moved to its forwarding target (13_system_tables.md R453). -/
def State.movedTo (s : State) : Nat → Ep → Ep
  | 0, e => e
  | n + 1, e =>
    if e.kind = .tile ∧ (s.tile e.num).vacated = true then
      match (s.tile e.num).forward with
      | some f => s.movedTo n ⟨.tile, f.target⟩
      | none => e
    else e

/-- The messages of a source's slot and class to one end that were sent before this one and are not delivered there
yet: an executor holds a completed message until they have arrived (R390). -/
def State.earlierPending (s : State) (here : Ep) (h : MsgHdr) : Bool :=
  let fs := s.fab (s.movedTo 8 h.sender)
  let fd := s.fab here
  let before := fs.shadow.takeWhile fun x => !sameIdent x.msg.hdr h
  before.any fun x =>
    x.msg.hdr.src == h.src && x.msg.hdr.slot == h.slot && x.msg.hdr.cls == h.cls && x.msg.hdr.dst == h.dst && !x.done && !x.lost &&
    ((fd.filter.all fun e => !sameIdent e.hdr x.msg.hdr) || fd.inbox.any fun m => sameIdent m.hdr x.msg.hdr)

end Sys2Proof.Machine
end

