-- ==== Sys2Proof/Machine/Clock.lean ====
section
/-!
DEFINITION. Time going by: the watchdogs (07_control_registers.md R247), the performance counters that count cycles
(14_counters_and_records.md R463, R464), and the HELD counters (R465).
-/
namespace Sys2Proof.Machine

/-- Whether a slot's watchdog counts (R247): it holds a resident process that is not halted. -/
def Slot.wdogCounts (x : Slot) : Bool :=
  match x.run with
  | .running => true
  | .stopping => true
  | .halting => true
  | .stopped => true
  | .empty => false
  | .halted => false

/-- `n` ticks of a slot's watchdog. -/
def Slot.tickWdog (x : Slot) (n : Nat) : Slot :=
  if x.wdogCounts then { x with wdog := x.wdog + BitVec.ofNat 64 n } else x

/-- The event code that counts the cycles of a wait (R463); none for a wait no code counts. -/
def WaitKind.perfCode : WaitKind → Option Nat
  | .recv _ => some 0x0004
  | .send _ _ _ => some 0x0004
  | .reel _ _ _ => some 0x0005
  | .syncWord _ _ => some 0x0006
  | .far => some 0x0007
  | .station => some 0x0005
  | .issue => none

/-- Whether a slot is not ready: it waits, or it does not run (01_machine.md R26). -/
def Slot.notReady (x : Slot) : Bool := x.wait.isSome || decide (x.run ≠ .running)

/-- `n` cycles of a slot that is not ready counted: in its open strip, and by the event of what it waits for (R463, R474). -/
def Tile.perfWait (x : Tile) (k : Fin 8) (n : Nat) : Tile :=
  let y := if x.slots[k].notReady then x.stripAdd k fun p => { p with blocked := p.blocked + n } else x
  match x.slots[k].wait.bind fun w => w.kind.perfCode with
  | some c => y.perf c (some k) n
  | none => y

/-- `n` cycles in which a fragment is held at the fabric input. -/
def Fabric.tickHeld (f : Fabric) (n : Nat) : Fabric :=
  if f.held.isEmpty then f else { f with ctrs := f.ctrs.set 8 (f.ctrs[8] + BitVec.ofNat 64 n) }

/-- `n` cycles counted by the performance counters. A cycle in which a slot issues is taken out of code 0x0003 again by
the issue. -/
def Tile.perfCycles (x : Tile) (n : Nat) : Tile :=
  (List.finRange 8).foldl (fun y k => y.perfWait k n) ((x.perf 0x0001 none n).perf 0x0003 none n)

/-- The writes of PERFSEL and PERFCNT that take effect as a cycle begins (R464). -/
def Tile.takePerf (x : Tile) : Tile :=
  x.perfNew.foldl (fun y (p : Nat × Word) =>
    if p.1 < 8 then { y with perfsel := y.perfsel.set (Fin.ofNat 8 p.1) p.2 }
    else { y with perfcnt := y.perfcnt.set (Fin.ofNat 8 p.1) p.2 }) { x with perfNew := [] }

/-- `ticks` of the reference and `n` cycles at a tile: the cycle that ends first is counted under the registers as they
stood in it. -/
def Tile.advance (x : Tile) (ticks n : Nat) : Tile :=
  let x1 : Tile := { x with slots := x.slots.map fun k => k.tickWdog ticks, fab := x.fab.tickHeld n }
  if n = 0 then x1 else ((x1.perfCycles 1).takePerf).perfCycles (n - 1)

/-- Event codes that only the pipelines, the interlock, the bank ports and soft errors show: interlock stalls, idle array
cycles, corrected errors, port conflicts (R463). -/
def pipeEvent (c : Nat) : Bool := c == 0x0008 || c == 0x0009 || c == 0x000C || c == 0x000E || c == 0x000F

/-- Counters that select such an event: how much they count by a time is a free value (DEDUCED: notes/assumptions/35.md). -/
def Tile.perfPipes (x : Tile) (now t : Nat) : Tile :=
  { x with perfcnt := Vector.ofFn fun i =>
      let q := x.perfsel[i]
      let c := bits q 15 0
      if bit q 24 && pipeEvent c && (decide (0x000C ≤ c) || bits q 23 16 != 0) then
        x.perfcnt[i] + Config.pipeCount now t i.val
      else x.perfcnt[i] }

/-- Cycles of a tile between two states of the clock. -/
def State.cyclesSince (s s0 : State) (t : Nat) : Nat := s.cycle t - s0.cycle t

/-- `dt` units of time go by. -/
def State.advance (s : State) (dt : Nat) : State :=
  if dt = 0 then s
  else
    let s1 : State := { s with units := s.units + dt }
    let ticks := s1.time - s.time
    let held := fun (e : Ep) (f : Fabric) => f.tickHeld (s1.cyclesSince s (s1.regTile e))
    { s1 with
      tiles := s1.tiles.map fun (p : Nat × Tile) => (p.1, (p.2.advance ticks (s1.cyclesSince s p.1)).perfPipes s1.units p.1)
      edges := s1.edges.map fun (p : Nat × EdgeSt) => (p.1, { p.2 with fab := held ⟨.edge, p.1⟩ p.2.fab })
      reels := s1.reels.map fun (p : Nat × ReelSt) => (p.1, { p.2 with fab := held ⟨.reel, p.1⟩ p.2.fab }) }

end Sys2Proof.Machine
end

