-- ==== Sys2Proof/Machine/Handles.lean ====
section
/-!
DEFINITION. Reel handles and reel messages (12_reels.md R403, R407, R434), and gang notices (R432).
-/
namespace Sys2Proof.Machine

/-- A handle's fields (R407). -/
structure Handle where
  v : Bool
  scope : Nat
  station : Nat
  entry : Nat
  rank : Nat
  weight : Nat
  arrived : Nat
  w : Bool
  phase : Nat
  deriving DecidableEq, Repr

def Handle.ofWord (x : Word) : Handle where
  v := bit x 63
  scope := bits x 62 61
  station := bits x 60 56
  entry := bits x 55 48
  rank := bits x 47 38
  weight := bits x 37 22
  arrived := bits x 21 6
  w := bit x 5
  phase := bits x 4 0

def Handle.toWord (h : Handle) : Word :=
  BitVec.ofNat 64 (b2n h.v * 2 ^ 63 + h.scope % 4 * 2 ^ 61 + h.station % 32 * 2 ^ 56 + h.entry % 256 * 2 ^ 48
    + h.rank % 1024 * 2 ^ 38 + h.weight % 65536 * 2 ^ 22 + h.arrived % 65536 * 2 ^ 6 + b2n h.w * 2 ^ 5 + h.phase % 32)

/-- Operation codes of R434. -/
def rCREATE : Nat := 0x01
def rJOIN : Nat := 0x02
def rLEAVE : Nat := 0x03
def rARRIVE : Nat := 0x04
def rWAIT : Nat := 0x05
def rINFO : Nat := 0x06
def rSTATUS : Nat := 0x07
def rRESULT : Nat := 0x08
def rDEPART : Nat := 0x09
def rMOVED : Nat := 0x0A
def rGANG : Nat := 0x0B
def rEXPAND : Nat := 0x0C

/-- A reel message: ARG holds OP, ENTRY and RANK; the payload's words (R434); `through` is the word of the handle it is made through. -/
def State.sendReel (s : State) (src dst : Ep) (slot tnt op entry rank : Nat) (words : List Word) (own : Bool)
    (pid netid : Nat) (through : Word := 0) : State :=
  s.sendCls src dst slot clsREEL tnt .none (BitVec.ofNat 48 (op + entry % 256 * 2 ^ 8 + rank % 1024 * 2 ^ 16))
    (ofWords words) own pid netid through.toNat

/-- A reel message of a slot on its own account. -/
def State.slotReel (s : State) (t : Nat) (k : Fin 8) (h : Handle) (op : Nat) (words : List Word) (own : Bool) : State :=
  let x := s.slot t k
  s.sendReel ⟨.tile, t⟩ ⟨.reel, h.station⟩ k.val x.tenant.toNat op h.entry h.rank words own x.pid.toNat x.netid.toNat
    h.toWord

/-- The bound handles of a slot. -/
def Slot.bound (x : Slot) : List Handle := (x.handles.toList.map Handle.ofWord).filter (·.v)

/-- A notice to the home of each bound handle of a slot. -/
def State.noticeHomes (s : State) (t : Nat) (k : Fin 8) (op : Nat) (words : List Word) : State :=
  (s.slot t k).bound.foldl (fun s' h => s'.slotReel t k h op words true) s

end Sys2Proof.Machine
end

