-- ==== Sys2Proof/Machine/Fp.lean ====
section
/-!
DEFINITION. Number formats and exact arithmetic (02_number_formats.md): format codes, binary floating point with the
exception classes of R89, block floating point, conversions, and the canonical tree.

A result is its bits and the set of classes it raises, as a number with bit c for class c.
-/
namespace Sys2Proof.Machine

/-! ### Format codes (R74, R75) -/

def fINT8 : Nat := 0
def fUINT8 : Nat := 1
def fINT16 : Nat := 2
def fINT32 : Nat := 3
def fINT64 : Nat := 4
def fFP16 : Nat := 8
def fBF16 : Nat := 9
def fFP32 : Nat := 10

/-- The codes R74 assigns. -/
def fmtKnown (c : Nat) : Bool :=
  decide (c ≤ 4) || (decide (8 ≤ c) && decide (c ≤ 10)) || (decide (0x12 ≤ c) && decide (c ≤ 0x18))

def isBfp (c : Nat) : Bool := decide (0x12 ≤ c) && decide (c ≤ 0x18)
def isFp (c : Nat) : Bool := decide (8 ≤ c) && decide (c ≤ 10)
def isInt (c : Nat) : Bool := decide (c ≤ 4)

/-- Element width of a format. -/
def fmtWidth (c : Nat) : Nat :=
  if c = 2 ∨ c = 8 ∨ c = 9 then 16
  else if c = 3 ∨ c = 10 then 32
  else if c = 4 then 64
  else if isBfp c then c - 0x10
  else 8

/-- Block length of a block-length code (R75). -/
def blockLen (bl : Nat) : Nat := 8 * 2 ^ (bl % 4)

/-! ### Classes (R89) -/

def xINVALID : Nat := 1
def xDIVZERO : Nat := 2
def xOVERFLOW : Nat := 4
def xUNDERFLOW : Nat := 8
def xINEXACT : Nat := 16
def xSATURATE : Nat := 32

/-- Bits of a result and the classes raised. -/
abbrev FpRes := Nat × Nat

/-- A clamp raises integer saturate and inexact (R92). -/
def xCLAMP : Nat := 48

/-! ### Binary formats (R78, R79) -/

/-- Fraction width. -/
def fracW (f : Nat) : Nat := if f = fFP16 then 10 else if f = fBF16 then 7 else 23

/-- Exponent width. -/
def expW (f : Nat) : Nat := if f = fFP16 then 5 else 8

def fpBias (f : Nat) : Nat := 2 ^ (expW f - 1) - 1

/-- The all-ones exponent. -/
def expMax (f : Nat) : Nat := 2 ^ expW f - 1

/-- Bits of infinity without a sign. -/
def fpInf (f : Nat) : Nat := expMax f * 2 ^ fracW f

def signBit (f : Nat) : Nat := 2 ^ (fracW f + expW f)

/-- A floating-point operand: a NaN, an infinity, or (-1)^neg * mant * 2^exp. -/
inductive FVal where
  | nan (signalling : Bool)
  | inf (neg : Bool)
  | num (neg : Bool) (mant : Nat) (exp : Int)
  deriving DecidableEq, Repr

def fpDecode (f b : Nat) : FVal :=
  let F := fracW f
  let frac := b % 2 ^ F
  let e := b / 2 ^ F % 2 ^ expW f
  let neg := b / signBit f % 2 = 1
  if e = expMax f then
    if frac = 0 then .inf neg else .nan (frac / 2 ^ (F - 1) = 0)
  else if e = 0 then .num neg frac (1 - fpBias f - F)
  else .num neg (frac + 2 ^ F) (e - fpBias f - F)

def isNan (f b : Nat) : Bool :=
  match fpDecode f b with
  | .nan _ => true
  | _ => false

def isSnan (f b : Nat) : Bool :=
  match fpDecode f b with
  | .nan sg => sg
  | _ => false

/-- A NaN with its quiet bit set (R87). -/
def quiet (f b : Nat) : Nat := if b / 2 ^ (fracW f - 1) % 2 = 1 then b else b + 2 ^ (fracW f - 1)

/-- The canonical quiet NaN; in FP32 with an origin payload (R85). -/
def canonNan (f origin : Nat) : Nat :=
  if f = fFP16 then 0x7E00 else if f = fBF16 then 0x7FC0 else 0x7FC00000 + origin % 2 ^ 22

/-- The origin payload: lane field, vector slot, PC[15:1] (R85, R86). -/
def originOf (i slot pc : Nat) : Nat := i % 64 * 2 ^ 16 + slot % 2 * 2 ^ 15 + pc / 2 % 2 ^ 15

/-! ### Rounding (R80, R82, R83) -/

/-- Whether a magnitude `m` with a remainder `rem` below one unit of `2^shift`, and something non-zero below that when
`sticky`, rounds up in a mode. -/
def roundsUp (mode : Nat) (neg : Bool) (m rem shift : Nat) (sticky : Bool) : Bool :=
  let inexact := rem != 0 || sticky
  match mode with
  | 0 =>
    let half := 2 ^ shift / 2
    if shift = 0 then false else decide (half < rem) || (rem == half && (sticky || m % 2 == 1))
  | 1 => false
  | 2 => neg && inexact
  | _ => !neg && inexact

/-- A magnitude mant * 2^exp brought to a multiple of 2^q: the multiple below, the remainder, the shift. -/
def quantize (mant : Nat) (exp q : Int) : Nat × Nat × Nat :=
  if q ≤ exp then (mant * 2 ^ (exp - q).toNat, 0, 0)
  else
    let sh := (q - exp).toNat
    (mant / 2 ^ sh, mant % 2 ^ sh, sh)

/-- The exact non-zero value (-1)^neg * mant * 2^exp, with something below it when `sticky`, rounded (R82, R83, R91). -/
def roundFp (f mode : Nat) (neg : Bool) (mant : Nat) (exp : Int) (sticky : Bool) : FpRes :=
  let sgn := if neg then signBit f else 0
  if mant = 0 then (sgn, 0)
  else
    let F := fracW f
    let e : Int := Nat.log2 mant + exp
    let emin : Int := 1 - fpBias f
    let qmin : Int := emin - F
    let q := if e - F < qmin then qmin else e - F
    let (m, rem, sh) := quantize mant exp q
    let inexact := rem != 0 || sticky
    let m' := if roundsUp mode neg m rem sh sticky then m + 1 else m
    let r := (q - qmin).toNat * 2 ^ F + m'
    if fpInf f ≤ r then
      let toInf := mode = 0 || (mode = 2 && neg) || (mode = 3 && !neg)
      (sgn + (if toInf then fpInf f else fpInf f - 1), xOVERFLOW + xINEXACT)
    else
      let tiny :=
        if emin ≤ e then false
        else if e < emin - 1 then true
        else
          let (u, urem, ush) := quantize mant exp (e - F)
          let u' := if roundsUp mode neg u urem ush sticky then u + 1 else u
          decide (u' < 2 ^ (F + 1))
      (sgn + r, (if inexact then xINEXACT else 0) + (if tiny && inexact then xUNDERFLOW else 0))

/-- Sign of an exact zero sum (R84). -/
def zeroSign (mode : Nat) (na nb : Bool) : Bool := if na == nb then na else mode == 2

/-- The exact sum of two values, rounded. -/
def addNum (f mode : Nat) (na : Bool) (ma : Nat) (ea : Int) (nb : Bool) (mb : Nat) (eb : Int) : FpRes :=
  let e := if ea ≤ eb then ea else eb
  let a : Int := (ma * 2 ^ (ea - e).toNat : Nat)
  let b : Int := (mb * 2 ^ (eb - e).toNat : Nat)
  let sum := (if na then -a else a) + (if nb then -b else b)
  if sum = 0 then
    let sg := if ma = 0 ∧ mb = 0 then zeroSign mode na nb else mode == 2
    (if sg then signBit f else 0, 0)
  else roundFp f mode (decide (sum < 0)) sum.natAbs e false

/-- The first NaN of a list of operands, quieted, and invalid when any is signalling (R87, R91); none without a NaN. -/
def firstNan (f : Nat) (ops : List Nat) : Option FpRes :=
  match ops.find? (isNan f) with
  | some b => some (quiet f b, if ops.any (isSnan f) then xINVALID else 0)
  | none => none

/-! ### Operations (05_vector_registers.md R189, R190) -/

/-- `a + b`, or `a - b` when `sub`. -/
def fpAdd (f mode origin : Nat) (sub : Bool) (a b : Nat) : FpRes :=
  match firstNan f [a, b] with
  | some r => r
  | none =>
    match fpDecode f a, fpDecode f b with
    | .inf na, .inf nb => if na = (nb != sub) then (a, 0) else (canonNan f origin, xINVALID)
    | .inf _, _ => (a, 0)
    | _, .inf nb => ((if nb != sub then signBit f else 0) + fpInf f, 0)
    | .num na ma ea, .num nb mb eb => addNum f mode na ma ea (nb != sub) mb eb
    | _, _ => (canonNan f origin, 0)

def fpMul (f mode origin a b : Nat) : FpRes :=
  match firstNan f [a, b] with
  | some r => r
  | none =>
    match fpDecode f a, fpDecode f b with
    | .num na ma ea, .num nb mb eb => roundFp f mode (na != nb) (ma * mb) (ea + eb) false
    | .inf na, .inf nb => ((if na != nb then signBit f else 0) + fpInf f, 0)
    | .inf na, .num nb mb _ =>
      if mb = 0 then (canonNan f origin, xINVALID) else ((if na != nb then signBit f else 0) + fpInf f, 0)
    | .num na ma _, .inf nb =>
      if ma = 0 then (canonNan f origin, xINVALID) else ((if na != nb then signBit f else 0) + fpInf f, 0)
    | _, _ => (canonNan f origin, 0)

/-- The product of two operands: none when it is 0 times infinity; otherwise an infinity or an exact value. -/
def fpProduct (f a b : Nat) : Option FVal :=
  match fpDecode f a, fpDecode f b with
  | .num na ma ea, .num nb mb eb => some (.num (na != nb) (ma * mb) (ea + eb))
  | .inf na, .inf nb => some (.inf (na != nb))
  | .inf na, .num nb mb _ => if mb = 0 then none else some (.inf (na != nb))
  | .num na ma _, .inf nb => if ma = 0 then none else some (.inf (na != nb))
  | _, _ => some (.nan false)

/-- `±(a * b) ± c`, rounded once (R103, R190). -/
def fpFma (f mode origin : Nat) (negProd negC : Bool) (a b c : Nat) : FpRes :=
  let prod := fpProduct f a b
  match firstNan f [a, b, c] with
  | some r => (r.1, if prod = none then xINVALID else r.2)
  | none =>
    match prod, fpDecode f c with
    | none, _ => (canonNan f origin, xINVALID)
    | some (.inf np), .inf nc =>
      if (np != negProd) = (nc != negC) then ((if np != negProd then signBit f else 0) + fpInf f, 0)
      else (canonNan f origin, xINVALID)
    | some (.inf np), _ => ((if np != negProd then signBit f else 0) + fpInf f, 0)
    | _, .inf nc => ((if nc != negC then signBit f else 0) + fpInf f, 0)
    | some (.num np mp ep), .num nc mc ec => addNum f mode (np != negProd) mp ep (nc != negC) mc ec
    | _, _ => (canonNan f origin, 0)

def fpDiv (f mode origin a b : Nat) : FpRes :=
  match firstNan f [a, b] with
  | some r => r
  | none =>
    match fpDecode f a, fpDecode f b with
    | .inf _, .inf _ => (canonNan f origin, xINVALID)
    | .inf na, .num nb _ _ => ((if na != nb then signBit f else 0) + fpInf f, 0)
    | .num na _ _, .inf nb => (if na != nb then signBit f else 0, 0)
    | .num na ma ea, .num nb mb eb =>
      if mb = 0 then
        if ma = 0 then (canonNan f origin, xINVALID)
        else ((if na != nb then signBit f else 0) + fpInf f, xDIVZERO)
      else if ma = 0 then (if na != nb then signBit f else 0, 0)
      else
        let k := fracW f + 4 + Nat.log2 mb
        roundFp f mode (na != nb) (ma * 2 ^ k / mb) (ea - eb - k) (ma * 2 ^ k % mb != 0)
    | _, _ => (canonNan f origin, 0)

/-- The integer square root, bit by bit from `r`. -/
def isqrtGo (n : Nat) : Nat → Nat → Nat
  | 0, r => r
  | k + 1, r => isqrtGo n k (if (r + 2 ^ k) * (r + 2 ^ k) ≤ n then r + 2 ^ k else r)

def fpSqrt (f mode origin a : Nat) : FpRes :=
  match firstNan f [a] with
  | some r => r
  | none =>
    match fpDecode f a with
    | .inf true => (canonNan f origin, xINVALID)
    | .num neg m e =>
      if m = 0 then (a, 0)
      else if neg then (canonNan f origin, xINVALID)
      else
        let odd := (e % 2).toNat
        let n := m * 2 ^ odd * 2 ^ 64
        let r := isqrtGo n 48 0
        roundFp f mode false r ((e - odd) / 2 - 32) (r * r != n)
    | _ => (a, 0)

/-- An order of the numbers and infinities of a format with -0 below +0 (R84). -/
def fpKey (f b : Nat) : Int := if b / signBit f % 2 = 1 then -(b % signBit f : Nat) - 1 else b

/-- VFMIN and VFMAX (R84, R87). -/
def fpMinMax (f : Nat) (max : Bool) (a b : Nat) : FpRes :=
  let inv := if isSnan f a || isSnan f b then xINVALID else 0
  if isNan f a then (if isNan f b then quiet f a else b, inv)
  else if isNan f b then (a, inv)
  else (if (decide (fpKey f b < fpKey f a)) != max then b else a, 0)

/-- Numeric order with -0 equal to +0 (R191): -1, 0 or 1. -/
def fpOrder (f a b : Nat) : Int :=
  let za := a % signBit f = 0
  let zb := b % signBit f = 0
  if za ∧ zb then 0
  else if fpKey f a < fpKey f b then -1
  else if fpKey f b < fpKey f a then 1
  else 0

/-! ### Integers (R76, R77) -/

/-- Rd: an element of an integer format as a number (05_vector_registers.md R188). -/
def intVal (f b : Nat) : Int := if f = fUINT8 then (b % 256 : Nat) else signExtend b (fmtWidth f)

/-- Smallest and largest value of an integer format. -/
def intLo (f : Nat) : Int := if f = fUINT8 then 0 else -(2 ^ (fmtWidth f - 1) : Nat)
def intHi (f : Nat) : Int := if f = fUINT8 then 255 else (2 ^ (fmtWidth f - 1) : Nat) - 1

/-- Sat (R100): the clamped value and its classes. -/
def satInt (v lo hi : Int) : Int × Nat := if v < lo then (lo, xCLAMP) else if hi < v then (hi, xCLAMP) else (v, 0)

/-- RoundShiftRNE (R100). -/
def roundShiftRne (v : Int) (sh : Nat) : Int :=
  if sh = 0 then v
  else
    let q := v / (2 ^ sh : Nat)
    let r := (v % (2 ^ sh : Nat)).toNat
    if 2 ^ (sh - 1) < r ∨ (r = 2 ^ (sh - 1) ∧ q % 2 = 1) then q + 1 else q

/-- SatMulQ31 (R100, R101). -/
def satMulQ31 (a b : Int) : Int × Nat := satInt (roundShiftRne (a * b) 31) (-(2 ^ 31 : Nat)) ((2 ^ 31 : Nat) - 1)

/-! ### Conversions between formats that are not BFP (R99) -/

/-- An exact integer rounded to a binary format. -/
def intToFp (f mode : Nat) (v : Int) : FpRes := roundFp f mode (decide (v < 0)) v.natAbs 0 false

/-- A binary value to an integer format. -/
def fpToInt (src mode dst b : Nat) : FpRes :=
  let W := fmtWidth dst
  match fpDecode src b with
  | .nan _ => (0, xINVALID)
  | .inf neg => (wrapInt (if neg then intLo dst else intHi dst) W, xCLAMP)
  | .num neg m e =>
    let (q, rem, sh) := quantize m e 0
    let q' := if roundsUp mode neg q rem sh false then q + 1 else q
    let v : Int := if neg then -(q' : Nat) else q'
    let (r, c) := satInt v (intLo dst) (intHi dst)
    (wrapInt r W, if c = 0 then (if rem = 0 then 0 else xINEXACT) else c)

/-- A NaN carried to another binary format: sign kept, quieted, payload truncated or extended (R88). -/
def convNan (src dst b : Nat) : Nat :=
  let q := quiet src b
  let frac := q % 2 ^ fracW src
  let fr := if fracW dst ≤ fracW src then frac / 2 ^ (fracW src - fracW dst) else frac * 2 ^ (fracW dst - fracW src)
  (if b / signBit src % 2 = 1 then signBit dst else 0) + fpInf dst + fr

/-- One binary format to another. -/
def fpToFp (src mode dst b : Nat) : FpRes :=
  match fpDecode src b with
  | .nan sg => (convNan src dst b, if sg then xINVALID else 0)
  | .inf neg => ((if neg then signBit dst else 0) + fpInf dst, 0)
  | .num neg m e => if m = 0 then (if neg then signBit dst else 0, 0) else roundFp dst mode neg m e false

/-- FP16 to BF16 and back pass through FP32: the first step is exact. -/
def fpToFpVia (src mode dst b : Nat) : FpRes :=
  if (src = fFP16 ∧ dst = fBF16) ∨ (src = fBF16 ∧ dst = fFP16) then
    let (x, c1) := fpToFp src mode fFP32 b
    let (y, c2) := fpToFp fFP32 mode dst x
    (y, c1 ||| c2)
  else fpToFp src mode dst b

/-- A conversion between formats neither of which is BFP. -/
def convert (src mode dst b : Nat) : FpRes :=
  if src = dst then (b, 0)
  else if isInt src then
    if isInt dst then
      let (r, c) := satInt (intVal src b) (intLo dst) (intHi dst)
      (wrapInt r (fmtWidth dst), c)
    else intToFp dst mode (intVal src b)
  else if isInt dst then fpToInt src mode dst b
  else fpToFpVia src mode dst b

/-! ### Block floating point (R94-R98) -/

/-- One element of FromBFP (R98): exact FP32, or the canonical quiet NaN of an invalid block. -/
def fromBfp (w origin E m : Nat) : FpRes :=
  if E = 0 then (0, 0)
  else if E = 255 then (canonNan fFP32 origin, xINVALID)
  else
    let v := signExtend m w
    roundFp fFP32 0 (decide (v < 0)) v.natAbs ((E : Int) - 127 - (w - 1)) false

/-- ToBFP (R97): the exponent, the mantissas as w-bit fields, and the classes of each element. -/
def toBfp (w : Nat) (xs : List Nat) : Nat × List (Nat × Nat) :=
  let vals := xs.map (fpDecode fFP32)
  let bad := fun v => match v with
    | FVal.num _ _ _ => false
    | _ => true
  if vals.any bad then (255, vals.map fun v => (0, if bad v then xINVALID else 0))
  else
    let exps := vals.filterMap fun v => match v with
      | .num _ m e => if m = 0 then none else some ((Nat.log2 m : Int) + e)
      | _ => none
    match exps with
    | [] => (0, vals.map fun _ => (0, 0))
    | e0 :: er =>
      let emax := er.foldl (fun a b => if a < b then b else a) e0
      let E : Int := if emax + 128 < 1 then 1 else if 254 < emax + 128 then 254 else emax + 128
      (E.toNat, vals.map fun v => match v with
        | .num neg m e =>
          let (q, rem, sh) := quantize m (e + (w - 1) - (E - 127)) 0
          let q' := if roundsUp 0 neg q rem sh false then q + 1 else q
          let t : Int := if neg then -(q' : Nat) else q'
          let (r, c) := satInt t (-(2 ^ (w - 1) : Nat)) ((2 ^ (w - 1) : Nat) - 1)
          (wrapInt r w, if c = 0 then (if rem = 0 then 0 else xINEXACT) else c)
        | _ => (0, 0))

/-- An element of a format that is not BFP as FP32, on its way into ToBFP (R99). -/
def toFp32 (src mode b : Nat) : FpRes := convert src mode fFP32 b

/-- An FP32 value on its way out of FromBFP to a format that is not BFP (R99). -/
def ofFp32 (dst mode b : Nat) : FpRes := convert fFP32 mode dst b

/-! ### The canonical tree (R102) -/

/-- One level of the tree, whose positions lie `step` apart: each pair combined at its left position `i`, empty positions
contributing nothing. -/
def treeLevel {α : Type} (op : Nat → α → α → α) (step : Nat) : Nat → List (Option α) → List (Option α)
  | i, a :: b :: r =>
    (match a, b with
      | none, y => y
      | x, none => x
      | some x, some y => some (op i x y)) :: treeLevel op step (i + 2 * step) r
  | _, l => l

/-- Tree over the positions of a list, `step` apart, in at most `n` levels. -/
def treeGo {α : Type} (op : Nat → α → α → α) : Nat → Nat → List (Option α) → Option α
  | _, _, [] => none
  | _, _, [a] => a
  | 0, _, a :: _ => a
  | n + 1, step, l => treeGo op n (2 * step) (treeLevel op step 0 l)

/-- The canonical tree whose op is given the left position of its node. -/
def treeAt {α : Type} (op : Nat → α → α → α) (l : List (Option α)) : Option α := treeGo op l.length 1 l

def tree {α : Type} (op : α → α → α) (l : List (Option α)) : Option α := treeAt (fun _ => op) l

end Sys2Proof.Machine
end

