-- ==== Sys2Proof/Machine/Flags.lean ====
section
/-!
DEFINITION. The integer operations of the scalar groups (04_scalar_registers.md R157-R162), on 64-bit words.
-/
namespace Sys2Proof.Machine

/-- b[5:0]: the count of a shift or rotate (R157). -/
def shamt (b : Word) : Nat := b.toNat % 64

def aluSlt (a b : Word) : Word := b2w (a.slt b)
def aluSltu (a b : Word) : Word := b2w (a.ult b)
def aluMin (a b : Word) : Word := if a.slt b then a else b
def aluMax (a b : Word) : Word := if a.slt b then b else a
def aluMinu (a b : Word) : Word := if a.ult b then a else b
def aluMaxu (a b : Word) : Word := if a.ult b then b else a

/-- Zero bits above the highest 1 bit among the low `n` bits. -/
def clzGo (a : Word) : Nat → Nat
  | 0 => 0
  | n + 1 => if a.getLsbD n then 0 else clzGo a n + 1

/-- Zero bits below the lowest 1 bit, from bit 64 - n. -/
def ctzGo (a : Word) : Nat → Nat
  | 0 => 0
  | n + 1 => if a.getLsbD (63 - n) then 0 else ctzGo a n + 1

def aluClz (a : Word) : Word := BitVec.ofNat 64 (clzGo a 64)
def aluCtz (a : Word) : Word := BitVec.ofNat 64 (ctzGo a 64)
def aluPopc (a : Word) : Word := BitVec.ofNat 64 (countOnes 64 a.toNat)

/-- Byte i of the result is byte 7 - i. -/
def aluRev8 (a : Word) : Word := BitVec.ofNat 64 (ofBytes (toBytes 8 a.toNat).reverse)

def mulHigh (a b : Int) : Word := word (a * b / 2 ^ 64)

/-- DIVU with the limiting case of R162. -/
def aluDivu (a b : Word) : Word := if b = 0 then BitVec.allOnes 64 else a / b

/-- REMU with the limiting case of R162. -/
def aluRemu (a b : Word) : Word := if b = 0 then a else a % b

/-- DIV: truncated towards zero, saturating (R162). -/
def aluDiv (a b : Word) : Word :=
  if b = 0 then (if a.toInt < 0 then BitVec.ofNat 64 (2 ^ 63) else BitVec.ofNat 64 (2 ^ 63 - 1))
  else if a = BitVec.ofNat 64 (2 ^ 63) ∧ b = BitVec.allOnes 64 then BitVec.ofNat 64 (2 ^ 63 - 1)
  else word (Int.tdiv a.toInt b.toInt)

/-- REM: the remainder of the truncated division (R162). -/
def aluRem (a b : Word) : Word :=
  if b = 0 then a
  else if a = BitVec.ofNat 64 (2 ^ 63) ∧ b = BitVec.allOnes 64 then 0
  else word (Int.tmod a.toInt b.toInt)

/-- The low `n` bits sign-extended to 64. -/
def sext (n : Nat) (a : Word) : Word := sextWord a.toNat n

/-- An immediate field sign-extended to 64 bits (03_encoding.md R113). -/
def simm {w : Nat} (i : BitVec w) : Word := i.signExtend 64

end Sys2Proof.Machine
end

