-- ==== Sys2Proof/Machine/Channels.lean ====
section
/-!
DEFINITION. Channel ends at a tile (10_channels.md): bindings, sending and taking tokens, end tokens, credits, and the
spilled tokens of a grown channel.
-/
namespace Sys2Proof.Machine

/-! ### Bindings (07_control_registers.md R249; DESIGN CHOICE: notes/assumptions/6.md) -/

/-- Check bits of a binding descriptor, over its low 48 bits. -/
def descCheck (w : Word) : Nat := bits w 15 0 ^^^ bits w 31 16 ^^^ bits w 47 32 ^^^ 0x5A5A

/-- The descriptor of a port bound to entry `i` of the endpoint table, channel `chan`, a send end when `send`. -/
def mkDesc (i chan : Nat) (send : Bool) : Word :=
  let w : Word := BitVec.ofNat 64 (i % 256 + 256 + b2n send * 512 + chan % 2 ^ 24 * 2 ^ 16)
  w ||| BitVec.ofNat 64 (descCheck w * 2 ^ 48)

/-- Whether a descriptor is a binding with good check bits. -/
def descValid (w : Word) : Bool := bit w 8 && bits w 63 48 == descCheck w

/-- Whether an end is the one a descriptor names: its channel and its direction. A context restored into another slot
keeps its ends (R506; 18_program_task_kernel.md R486). -/
def EndPt.named (e : EndPt) (w : Word) : Bool :=
  match e with
  | .send y => bit w 9 && y.chan == bits w 39 16
  | .recv y => !bit w 9 && y.chan == bits w 39 16

/-- The end a port is bound to, with its index in the endpoint table; none for an unbound port. -/
def State.portEnd (s : State) (t : Nat) (k : Fin 8) (p : BitVec 4) : Option (Nat × EndPt) :=
  let w := (s.slot t k).ports[p.toFin]
  if descValid w then
    match mapFind (s.tile t).ends (bits w 7 0) with
    | some e => if e.named w then some (bits w 7 0, e) else none
    | none => none
  else none

def State.sendAtPort (s : State) (p : BitVec 4) : Option (Nat × SendEnd) :=
  match s.portEnd s.cur.tile s.cur.slot p with
  | some (i, .send e) => some (i, e)
  | _ => none

def State.recvAtPort (s : State) (p : BitVec 4) : Option (Nat × RecvEnd) :=
  match s.portEnd s.cur.tile s.cur.slot p with
  | some (i, .recv e) => some (i, e)
  | _ => none

def State.setEnd (s : State) (t i : Nat) (e : EndPt) : State := s.modTile t fun x => { x with ends := mapSet x.ends i e }

/-- EVAL of CHANNEL_BROKEN at port `p` (R334). -/
def brokenVal (p : BitVec 4) : Word := 0x100 + p.setWidth 64

/-! ### Receive ends (R330, R331) -/

/-- Whether token `q` is present at the tile. -/
def RecvEnd.has (e : RecvEnd) (q : Nat) : Bool := (mapFind e.held q).isSome || (mapFind e.ahead q).isSome

/-- Tokens present in order from number `n`, at most `m`. -/
def availFrom (e : RecvEnd) : Nat → Nat → Nat
  | _, 0 => 0
  | n, m + 1 => if e.has n then availFrom e (n + 1) m + 1 else 0

/-- Tokens a receive could take, at most `m`. -/
def RecvEnd.avail (e : RecvEnd) (m : Nat) : Nat := availFrom e e.nextSeq m

/-- Whether the end token stands after `n` tokens yet to be received. -/
def RecvEnd.endAfter (e : RecvEnd) (n : Nat) : Bool :=
  match e.endRec with
  | some (q, _) => q == e.nextSeq + n
  | none => false

/-- Whether the end token was sent for an ended producer. -/
def RecvEnd.endBroken (e : RecvEnd) : Bool :=
  match e.endRec with
  | some (_, b) => b
  | none => false

/-- Local address of a token in the channel area (R327). -/
def RecvEnd.slotAddr (e : RecvEnd) (n : Nat) : Nat := e.base + 8 * (if e.decl = 0 then 0 else n % e.decl)

/-- The `i`-th token yet to be received, with its poison bit. -/
def RecvEnd.tokenAt (e : RecvEnd) (m : Memory) (i : Nat) : Word × Bool :=
  match mapFind e.ahead (e.nextSeq + i) with
  | some x => x
  | none => (BitVec.ofNat 64 (Mem.load m (e.slotAddr (e.nextSeq + i)) 8), (mapFind e.held (e.nextSeq + i)).getD false)

/-- The receive end after it has met its end token (R332). -/
def RecvEnd.metEnd (e : RecvEnd) : RecvEnd := { e with state := if e.endBroken then .broken else .ended }

/-- The receive end after `n` tokens have been taken. -/
def RecvEnd.taken (e : RecvEnd) (n : Nat) : RecvEnd :=
  { e with nextSeq := e.nextSeq + n, returned := e.returned + n, held := e.held.filter fun h => e.nextSeq + n ≤ h.1,
           ahead := e.ahead.filter fun h => e.nextSeq + n ≤ h.1 }

/-- A network's tenant. -/
def State.netTnt (s : State) (netid : Nat) : Nat :=
  match s.net netid with
  | some n => n.tnt
  | none => 0

/-- CREDIT to the send end with the cumulative credits returned (R365). -/
def State.sendCredit (s : State) (t : Nat) (e : RecvEnd) : State :=
  let r := s.takeSeq ⟨.tile, t⟩ e.slot clsCONTROL
  let h : MsgHdr := { attempt := 0, dst := e.peer, src := ⟨.tile, t⟩, cls := clsCONTROL, slot := e.slot,
                      tnt := s.netTnt e.netid, seq := r.1 % 65536, arg := BitVec.ofNat 48 (0x01 + e.chan * 2 ^ 8), len := 0,
                      m := 0, stream := .chan e.netid e.chan, pid := e.pid, netid := e.netid, act := e.grown }
  r.2.sendMsg h (toBytes 8 e.returned) true

/-! ### Spill (R352; 16_program_split_rejoin.md R480) -/

/-- Position after `p` in the ring of the joined extensions. -/
def ringSize (exts : List (Nat × Nat)) (joined : Nat) : Nat := (exts.take joined).foldl (fun n e => n + e.2) 0

/-- Offset from SPILLBASE of ring position `p`. -/
def ringAddr : List (Nat × Nat) → Nat → Nat
  | [], _ => 0
  | (o, n) :: r, p => if p < n then o + 8 * p else ringAddr r (p - n)

/-- The position the next token is written to, and the extensions joined then: a later extension joins where the write
position would return to the ring's first slot, and the extensions join in claim order (R480), so one whose claim has
returned waits while an earlier claim is out. -/
def RecvEnd.nextWrite (e : RecvEnd) : Nat × Nat :=
  let n := ringSize e.exts e.joined
  if e.wpos < n then (e.wpos, e.joined)
  else match e.exts[e.joined]? with
    | some x => if e.claims.all fun c => decide (x.2 < c) then (n, e.joined + 1) else (0, e.joined)
    | none => (0, e.joined)

/-- A request on the network manager's account for a channel's spill: its words in the form of R355, to the foot of the
tile's column. -/
def State.sendSpill (s : State) (t : Nat) (e : RecvEnd) (words : List Word) (psn : Bool) : State :=
  s.sendStream ⟨.tile, t⟩ (s.footOf t) e.slot (s.netTnt e.netid) (.spill e.netid e.chan)
    (e.netid * 2 ^ 24 + e.chan, 102) (ofWords words) psn e.pid e.netid

/-- First two words of a request (R355). -/
def reqWords (op ord len tag : Nat) (addr : Word) : List Word :=
  [BitVec.ofNat 64 (op + ord * 2 ^ 8 + len * 2 ^ 16 + tag % 2 ^ 32 * 2 ^ 32), addr]

/-- Far address of a byte of a network's spill region. -/
def State.spillAddr (s : State) (netid off : Nat) : Word :=
  match s.net netid with
  | some n => BitVec.ofNat 64 (2 ^ 63 + n.spillBase + off)
  | none => BitVec.ofNat 64 (2 ^ 63 + off)

/-- A token placed in the channel area by its number (R330). -/
def Tile.placeToken (x : Tile) (i : Nat) (e : RecvEnd) (q : Nat) (v : Word) (psn : Bool) : Tile :=
  { x with mem := Mem.store x.mem (e.slotAddr q) 8 v.toNat,
           ends := mapSet x.ends i (.recv { e with held := mapSet e.held q psn }) }

/-- Waiting tokens placed on the tile where a slot has become free. -/
def State.placeEarly (s : State) (t i : Nat) : State :=
  match mapFind (s.tile t).ends i with
  | some (.recv e) =>
    let fits := fun (x : Nat × Word × Bool) => decide (x.1 < e.nextSeq + e.decl)
    let ready := (e.ahead ++ e.early).filter fits
    let s1 := s.setEnd t i (.recv { e with early := e.early.filter fun x => !fits x, ahead := e.ahead.filter fun x => !fits x })
    ready.foldl (fun s' x => match mapFind (s'.tile t).ends i with
      | some (.recv e') => s'.modTile t fun y => y.placeToken i e' x.1 x.2.1 x.2.2
      | _ => s') s1
  | _ => s

/-- Tokens that wait to be spilled, written in sequence order while the next ring slot is free (R352). -/
def State.spillOut (s : State) (t i : Nat) : Nat → State
  | 0 => s
  | n + 1 =>
    match mapFind (s.tile t).ends i with
    | some (.recv e) =>
      let q := match e.spilled.getLast? with
        | some x => max (x.1 + 1) (e.nextSeq + e.decl)
        | none => e.nextSeq + e.decl + e.ahead.length
      match e.early.find? fun x => x.1 == q with
      | some (_, v, psn) =>
        let (p, j) := e.nextWrite
        let o := ringAddr e.exts p
        if j = 0 ∨ e.spilled.any (fun x => x.2.1 == o) then s
        else
          let e1 := { e with wpos := p + 1, joined := j, spilled := e.spilled ++ [(q, o, psn)],
                             early := e.early.filter fun x => x.1 != q }
          ((s.setEnd t i (.recv e1)).sendSpill t e1 (reqWords 0x02 1 8 (4 * q + 2) (s.spillAddr e.netid o) ++ [0, 0, v])
            false).spillOut t i n
      | none => s
    | _ => s

/-- A read of the oldest spilled token, when a slot of the channel area is free for it, or an instruction needs `need`
tokens at once and it is one of them (R352; 04_scalar_registers.md R150), and none is on its way. -/
def State.spillRefill (s : State) (t i need : Nat) : State :=
  match mapFind (s.tile t).ends i with
  | some (.recv e) =>
    match e.spilled with
    | (q, o, _) :: _ =>
      if e.reading = false ∧ q < e.nextSeq + max e.decl need then
        let e1 := { e with reading := true }
        (s.setEnd t i (.recv e1)).sendSpill t e1 (reqWords 0x01 1 8 (4 * q + 1) (s.spillAddr e.netid o) ++ [0, 0]) false
      else s
    | [] => s
  | _ => s

/-- The spill of end `i` brought forward after slots became free or tokens arrived. -/
def State.spillTidy (s : State) (t i : Nat) : State :=
  match mapFind (s.tile t).ends i with
  | some (.recv e) =>
    if e.early = [] ∧ e.spilled = [] ∧ e.ahead = [] then s
    else ((s.placeEarly t i).spillRefill t i 0).spillOut t i (e.early.length)
  | _ => s

/-- What the receives named still need brought from the spill: end index and tokens needed at once. -/
def State.readAhead (s : State) (l : List (Nat × Nat)) : State :=
  l.foldl (fun s' x => s'.spillRefill s.cur.tile x.1 x.2) s

/-- The wait of receives for the tokens they need. -/
def waitRecv (s : State) (l : List (Nat × Nat)) : Stop := .waitIn (s.readAhead l) (.recv l)

/-! ### Taking and sending -/

/-- A receive of `n` tokens committed at end `i`: removed, their credits returned (R329), counted (R463). -/
def State.takeTokens (s : State) (t i : Nat) (e : RecvEnd) (n : Nat) : State :=
  if n = 0 then s
  else
    let e1 := e.taken n
    let s1 := (s.setEnd t i (.recv e1)).modTile t fun x => x.perf 0x0012 (some s.cur.slot) n
    (s1.sendCredit t e1).spillTidy t i

/-- Tokens cut into messages: runs of unpoisoned tokens of at most 64, a poisoned token alone (R336, R364). -/
def tokenRuns : List (Word × Bool) → List (List Word × Bool)
  | [] => []
  | (v, p) :: r =>
    match tokenRuns r with
    | (l, false) :: rest => if p ∨ 64 ≤ l.length then ([v], p) :: (l, false) :: rest else (v :: l, false) :: rest
    | rest => ([v], p) :: rest

/-- The messages of token runs, numbers rising from `n`. -/
def State.sendRuns (s : State) (t : Nat) (e : SendEnd) : Nat → List (List Word × Bool) → State
  | _, [] => s
  | n, (l, p) :: r =>
    (s.sendTok ⟨.tile, t⟩ e.peer e.slot (s.netTnt e.netid) (.chan e.netid e.chan) e.chan n 0 p (ofWords l) false
      e.pid e.netid).sendRuns t e (n + l.length) r

/-- Tokens sent on end `i`, each using a credit (R329, R330). -/
def State.putTokens (s : State) (t i : Nat) (e : SendEnd) (toks : List (Word × Bool)) : State :=
  let e1 := { e with nextSeq := (e.nextSeq + toks.length) % 2 ^ 32, credits := e.credits - toks.length }
  let s1 := (s.setEnd t i (.send e1)).modTile t fun x => x.perf 0x0011 (some s.cur.slot) toks.length
  s1.sendRuns t e e.nextSeq (tokenRuns toks)

/-- An end token: one zero token that is not delivered, END 1 plain or 2 broken (R331, R339, R364). -/
def State.putEnd (s : State) (t : Nat) (e : SendEnd) (code : Nat) : State :=
  s.sendTok ⟨.tile, t⟩ e.peer e.slot (s.netTnt e.netid) (.chan e.netid e.chan) e.chan e.nextSeq code false (toBytes 8 0)
    (code == 2) e.pid e.netid

/-- PSN set by the instruction at code offset `off`, and FPC as PSN goes from 0 to 1 (07_control_registers.md R244). -/
def Slot.consumePoison (x : Slot) (off : Nat) : Slot :=
  if bit x.cir 0 then x else { x with cir := setBits (setBit x.cir 0 true) 47 32 off }

def State.consumePoison (s : State) (off : Nat) : State := s.updMe fun x => x.consumePoison off

/-- CIR.PSN set when an instruction has read poison. -/
def State.notePoison (s : State) (b : Bool) : State := if b then s.consumePoison s.pcOff else s

/-- STATUS.EOS := 1 (R335). -/
def State.setEos (s : State) : State := s.updMe fun x => { x with status := setBit x.status 8 true }

/-! ### One receive and one send (R334, R335) -/

/-- A receive end's port checked (stage 1). -/
def needRecv (s : State) (p : BitVec 4) : Except Stop (Nat × RecvEnd) :=
  match s.recvAtPort p with
  | some x => .ok x
  | none => .error (.trap cCHANNEL_BROKEN (brokenVal p))

/-- A send end's port checked (stage 1): CLOSED and GONE fail (R332). -/
def needSend (s : State) (p : BitVec 4) : Except Stop (Nat × SendEnd) :=
  match s.sendAtPort p with
  | some (i, e) => if e.state = .open then .ok (i, e) else .error (.trap cCHANNEL_BROKEN (brokenVal p))
  | none => .error (.trap cCHANNEL_BROKEN (brokenVal p))

/-- The consumer-ended notice met in stage 2: CHANNEL_BROKEN, and the end becomes GONE (R340). -/
def goneStop (s : State) (p : BitVec 4) (i : Nat) (e : SendEnd) : Stop :=
  .trapIn (s.setEnd s.cur.tile i (.send { e with state := .gone })) cCHANNEL_BROKEN (brokenVal p)

end Sys2Proof.Machine
end

