-- ==== Sys2Proof/Machine/Operands.lean ====
section
/-!
DEFINITION. Scalar operands and the port window (04_scalar_registers.md R144-R153).
-/
namespace Sys2Proof.Machine

/-- Whether a g-register field of the windowed groups names a port (R144). -/
def Slot.isWin (x : Slot) (n : BitVec 5) : Bool := x.pw && decide (16 ≤ n.toNat)

/-- The port a windowed field names. -/
def portOf (n : BitVec 5) : BitVec 4 := n.setWidth 4

/-- What a read of an operand gives: the value, a token's poison bit, whether it takes a token, whether it meets the end
token. -/
structure ReadRes where
  val : Word
  psn : Bool
  took : Bool
  atEnd : Bool
  deriving DecidableEq, Repr

/-- Stage 1 of R147 over the reads, then the destination. -/
def winCheck (s : State) : List (BitVec 5) → Option (BitVec 5) → Except Stop Unit
  | n :: r, d =>
    if s.me.isWin n then
      match needRecv s (portOf n) with
      | .ok _ => winCheck s r d
      | .error e => .error e
    else winCheck s r d
  | [], some d =>
    if s.me.isWin d then
      match needSend s (portOf d) with
      | .ok _ => .ok ()
      | .error e => .error e
    else .ok ()
  | [], none => .ok ()

/-- The receive ends that lack a token the instruction needs, and how many it needs (R147 stage 2, R150). -/
def winLacking (s : State) (reads : List (BitVec 5)) : List (Nat × Nat) :=
  (reads.filter s.me.isWin).foldl (fun l n =>
    let p := portOf n
    let need := ((reads.filter s.me.isWin).filter fun m => portOf m == p).length
    match s.recvAtPort p with
    | some (i, e) => if e.avail need < need ∧ e.endAfter (e.avail need) = false ∧ (i, need) ∉ l then
        l ++ [(i, need)] else l
    | none => l) []

/-- Stage 2 of R147: the tokens and the credit; then a windowed write, a release, also waits for the process's earlier writes
(R151; 09_memory_ordering.md R316). -/
def winWait (s : State) (reads : List (BitVec 5)) (dst : Option (BitVec 5)) : Except Stop Unit :=
  let lack := winLacking s reads
  let onlyRecv := if lack = [] then Except.ok () else .error (waitRecv s lack)
  match dst with
  | none => onlyRecv
  | some d =>
    if s.me.isWin d then
      match s.sendAtPort (portOf d) with
      | some (i, e) =>
        if e.noticed then .error (goneStop s (portOf d) i e)
        else if e.credits = 0 then .error (.waitIn (s.readAhead lack) (.send i 1 lack))
        else if lack = [] ∧ s.released = false then .error (.wait .issue)
        else onlyRecv
      | none => onlyRecv
    else onlyRecv

/-- The ends at the head of whose channels a receive of the ports finds the end token, marked (R332). -/
def State.markEnds (s : State) (ps : List (BitVec 4)) : State :=
  ps.foldl (fun s' p => match s.recvAtPort p with
    | some (i, e) => if e.endAfter 0 then s'.setEnd s.cur.tile i (.recv e.metEnd) else s'
    | none => s') s

/-- ReadG of each source in order (R153); `seen` holds the ports of the reads before. A read that traps leaves marked the ends
that it and the reads before it met. -/
def winReads (s : State) : List (BitVec 4) → List (BitVec 5) → Except Stop (List ReadRes)
  | _, [] => .ok []
  | seen, n :: r =>
    let here : Except Stop (ReadRes × List (BitVec 4)) :=
      if s.me.isWin n then
        let p := portOf n
        let j := (seen.filter (· == p)).length
        match s.recvAtPort p with
        | some (_, e) =>
          if j < e.avail (j + 1) then
            let (v, psn) := e.tokenAt s.myTile.mem j
            .ok ({ val := v, psn := psn, took := true, atEnd := false }, seen ++ [p])
          else if e.toe then
            .error (.trapIn (s.markEnds (seen ++ [p])) cCHANNEL_BROKEN (brokenVal p))
          else .ok ({ val := 0, psn := false, took := false, atEnd := true }, seen ++ [p])
        | none => .error (.trap cCHANNEL_BROKEN (brokenVal p))
      else .ok ({ val := s.g n, psn := false, took := false, atEnd := false }, seen)
    match here with
    | .error e => .error e
    | .ok (x, seen') =>
      match winReads s seen' r with
      | .error e => .error e
      | .ok xs => .ok (x :: xs)

/-- The ends that the reads of an instruction met at the head of their channels, marked (R332). -/
def winMarkEnds (s : State) (reads : List (BitVec 5)) : State :=
  s.markEnds ((reads.filter s.me.isWin).map portOf)

/-- The receives of an instruction committed, port by port: tokens taken, ends met (R147 stage 3). -/
def winCommitReads (s0 s : State) (rs : List (BitVec 5 × ReadRes)) : State :=
  let ports := (rs.filter fun x => s0.me.isWin x.1).foldl
    (fun l x => if portOf x.1 ∈ l then l else l ++ [portOf x.1]) ([] : List (BitVec 4))
  let s1 := ports.foldl (fun s' p =>
    let mine := rs.filter fun x => s0.me.isWin x.1 && portOf x.1 == p
    let n := (mine.filter fun x => x.2.took).length
    match s0.recvAtPort p with
    | some (i, e) =>
      let s2 := s'.takeTokens s0.cur.tile i e n
      if mine.any (fun x => x.2.atEnd) then
        match mapFind (s2.tile s0.cur.tile).ends i with
        | some (.recv e2) => s2.setEnd s0.cur.tile i (.recv e2.metEnd)
        | _ => s2
      else s2
    | none => s') s
  let s3 := if rs.any (fun x => x.2.psn) then s1.consumePoison s0.pcOff else s1
  if rs.any (fun x => x.2.atEnd) then s3.setEos else s3

/-- The result written, or sent on the port a windowed destination names. -/
def winCommitWrite (s0 s : State) (dst : Option (BitVec 5)) (v : Word) (psn : Bool) : State :=
  match dst with
  | none => s
  | some d =>
    if s0.me.isWin d then
      match s.sendAtPort (portOf d) with
      | some (i, e) => s.putTokens s.cur.tile i e [(v, psn)]
      | none => s
    else s.setG d v

/-- An instruction with a windowed operand, in the three stages of R147. -/
def windowOp (reads : List (BitVec 5)) (dst : Option (BitVec 5))
    (f : State → List Word → Except Stop (State × Word × Bool)) : Body := fun s =>
  match winCheck s reads dst with
  | .error e => .error e
  | .ok _ =>
    match winWait s reads dst with
    | .error e => .error e
    | .ok _ =>
      match winReads s [] reads with
      | .error e => .error e
      | .ok rs =>
        match f s (rs.map ReadRes.val) with
        | .error (.trap c v) => .error (.trapIn (winMarkEnds s reads) c v)
        | .error e => .error e
        | .ok (s', v, psn) => .ok (winCommitWrite s (winCommitReads s s' (reads.zip rs)) dst v psn)

/-- An instruction of the windowed groups: `reads` in the order s, t, d (R146), then the destination. `f` does the
instruction's own effect, the PC included, and gives the result and whether its data were poisoned. -/
def scalarOp (reads : List (BitVec 5)) (dst : Option (BitVec 5))
    (f : State → List Word → Except Stop (State × Word × Bool)) : Body := fun s =>
  if reads.any s.me.isWin || dst.any s.me.isWin then windowOp reads dst f s
  else
    match f s (reads.map s.g) with
    | .error e => .error e
    | .ok (s', v, _) => .ok (match dst with
      | some d => s'.setG d v
      | none => s')

/-- A register-to-register operation of `len` bytes. -/
def aluRR (len : Nat) (d s t : BitVec 5) (f : Word → Word → Word) : Body :=
  scalarOp [s, t] (some d) fun st vs => .ok (st.adv len, f (vs.getD 0 0) (vs.getD 1 0), false)

/-- An operation with one register source. -/
def aluR (len : Nat) (d s : BitVec 5) (f : Word → Word) : Body :=
  scalarOp [s] (some d) fun st vs => .ok (st.adv len, f (vs.getD 0 0), false)

/-- A transfer to a target that CheckTarget (R164) has passed. -/
def State.jump (s : State) (target : Word) : Except Stop State :=
  match s.myTile.checkTarget target with
  | some (c, v) => .error (.trap c v)
  | none => .ok (s.updMe fun x => { x with pc := target })

/-- A conditional branch of `len` bytes with an offset in bytes (R163). -/
def branch (len : Nat) (s t : BitVec 5) (off : Word) (c : Word → Word → Bool) : Body :=
  scalarOp [s, t] none fun st vs =>
    if c (vs.getD 0 0) (vs.getD 1 0) then
      match st.jump (st.me.pc + off) with
      | .ok st' => .ok (st', 0, false)
      | .error e => .error e
    else .ok (st.adv len, 0, false)

end Sys2Proof.Machine
end

