-- ==== Sys2Proof/Machine/Memory.lean ====
section
/-!
DEFINITION. Tile memory (08_memories.md): address forms, AccessCheck, cluster windows, granule poison, the tile control
images, and local and window loads and stores.
-/
namespace Sys2Proof.Machine

/-! ### Address forms (R255) -/

/-- A 64-bit effective address read by its form. -/
inductive AddrForm where
  | local (off : Nat)
  | window (idx off : Nat)
  | far (va : Nat)
  | bad
  deriving DecidableEq, Repr

def addrForm (a : Word) : AddrForm :=
  let n := a.toNat
  match n / 2 ^ 62 with
  | 0 => if n / 2 ^ 20 = 0 then .local n else .bad
  | 1 => if n % 2 ^ 62 / 2 ^ 28 = 0 then .window (n / 2 ^ 20 % 256) (n % 2 ^ 20) else .bad
  | 2 => if n % 2 ^ 62 / 2 ^ 57 = 0 then .far (n % 2 ^ 57) else .bad
  | _ => .bad

/-- The cause and EVAL of an access that is not made. -/
abbrev MemFault := BitVec 8 × Word

/-- Where an access goes: a tile's local offset, or a far virtual address. -/
inductive Place where
  | tile (t off : Nat)
  | far (va : Nat)
  deriving DecidableEq, Repr

/-! ### Cluster windows (R259, 13_system_tables.md R453) -/

/-- The active tiles of a cluster in ascending logical number. -/
def State.clusterTiles (s : State) (c : Nat) : List Nat :=
  let d := c / 4
  let x0 := 32 * (d % 4) + 16 * (c % 2)
  let y0 := 32 * (d / 4) + 16 * (c % 4 / 2)
  (List.range 256).filterMap fun i => s.logical (x0 + i % 16) (y0 + i / 16)

/-- The tile an access follows from `t` through the forwarding entries of vacated tiles, at most `n` of them; none
where a vacated tile has no live entry (R453). -/
def State.follow (s : State) : Nat → Nat → Option Nat
  | n, t =>
    match (s.tile t).forward with
    | some f =>
      if f.expiry ≤ s.time then none
      else match n with
        | 0 => none
        | m + 1 => s.follow m f.target
    | none => if (s.tile t).vacated then none else some t

/-- Whether two tiles lie in one partition's rectangle, or both in none. -/
def State.samePart (s : State) (a b : Nat) : Bool := (s.partOf a).map (·.tnt) == (s.partOf b).map (·.tnt)

/-- The network of an endpoint. -/
def EndPt.netid : EndPt → Nat
  | .send e => e.netid
  | .recv e => e.netid

/-- Whether a network has left a tile by a volta and has neither an end nor a process there (R453). -/
def State.hasLeft (s : State) (t netid : Nat) : Bool :=
  (s.tile t).left.contains netid && (s.tile t).ends.all (fun e => e.2.netid != netid) &&
    s.mgr.procs.all fun p => p.tile != t || p.netid != netid

/-- The tile a window index of tile `t` names, for an access of a network (R259); none where the network has left the tile
it would reach (R453). -/
def State.windowTile (s : State) (t idx : Nat) (netid : Nat := s.me.netid.toNat) : Option Nat :=
  match (s.clusterTiles (s.clusterOf t).val)[idx]? with
  | some u =>
    if s.samePart t u then (if u = t then some t else (s.follow 8 u).filter fun v => !s.hasLeft v netid) else none
  | none => none

/-- Forwarding entries an access follows from `t`, counted in FWD (R453), at most `n` of them. -/
def State.countHops (s : State) : Nat → Nat → State
  | 0, _ => s
  | n + 1, t =>
    match (s.tile t).forward with
    | some f =>
      if f.expiry ≤ s.time then s
      else (s.modTile t fun x => { x with fab := { x.fab with ctrs := x.fab.ctrs.set 7 (x.fab.ctrs[7] + 1) } }).countHops n f.target
    | none => s

/-- What an access performed at an address does on its way: the forwarding entries that a window access follows count it. -/
def State.crossed (s : State) (a : Word) : State :=
  match addrForm a with
  | .window idx _ =>
    match (s.clusterTiles (s.clusterOf s.cur.tile).val)[idx]? with
    | some u => if u = s.cur.tile then s else s.countHops 8 u
    | none => s
  | _ => s

/-- The same for the elements of one instruction, once for each window their addresses lie in. -/
def State.crossedAll (s : State) (l : List Word) : State :=
  (l.foldl (fun (r : List Word) a => if r.any fun b => b.toNat / 2 ^ 20 == a.toNat / 2 ^ 20 then r else r ++ [a]) []).foldl
    State.crossed s

/-! ### AccessCheck (R257) -/

/-- The region rules of R258 for a vector access of `n` bytes at an offset. -/
def vectorRegion (a : Word) (off n : Nat) : Except MemFault Unit :=
  if off + n ≤ 0xD0000 then .ok () else .error (cADDRESS_FORM, a)

/-- The region rules of R258 for an aligned scalar access of `n` bytes at an offset. -/
def scalarRegion (prv : Nat) (write : Bool) (a : Word) (off n : Nat) : Except MemFault Unit :=
  if off < 0xD0000 then .ok ()
  else if off < 0xE0000 then (if write then .error (cADDRESS_FORM, a) else .ok ())
  else if off < 0xF0000 then
    (if prv = 0 then .error (cPRIVILEGE, a) else if n = 8 then .ok () else .error (cADDRESS_FORM, a))
  else .error (cADDRESS_FORM, a)

/-- AccessCheck of R257 for an instruction executed on tile `t` that accepts the forms named; `region` checks a local
offset. -/
def State.accessCheck (s : State) (t : Nat) (okLocal okWin okFar : Bool) (align : Nat)
    (region : Nat → Except MemFault Unit) (a : Word) (n : Nat) : Except MemFault Place :=
  match addrForm a with
  | .bad => .error (cADDRESS_FORM, a)
  | .local off =>
    if !okLocal then .error (cADDRESS_FORM, a)
    else if a.toNat % align ≠ 0 then .error (cMISALIGN, a)
    else match region off with
      | .ok _ => .ok (.tile t off)
      | .error e => .error e
  | .window idx off =>
    if !okWin then .error (cADDRESS_FORM, a)
    else match s.windowTile t idx with
      | none => .error (cCLUSTER_VIOLATION, a)
      | some u =>
        if 0xC0000 < off + n then .error (cCLUSTER_VIOLATION, a)
        else if a.toNat % align ≠ 0 then .error (cMISALIGN, a)
        else .ok (.tile u off)
  | .far va =>
    if !okFar then .error (cADDRESS_FORM, a)
    else if a.toNat % align ≠ 0 then .error (cMISALIGN, a)
    else .ok (.far va)

/-! ### Granule poison and errors (R265, R266) -/

/-- Whether any granule of a byte range is poisoned. -/
def Tile.poisonAt (x : Tile) (off n : Nat) : Bool :=
  x.poison != 0 && (List.range ((off + n + 31) / 32 - off / 32)).any fun i => x.poison.getLsbD (off / 32 + i)

/-- Poison bits after one write of a byte range: poisoned data set the bits it touches, unpoisoned data clear the bits
of the granules it covers whole. -/
def markPoison (p : BitVec 26624) (off n : Nat) (psn : Bool) : BitVec 26624 :=
  if psn then (List.range ((off + n + 31) / 32 - off / 32)).foldl (fun q i => setBit q (off / 32 + i) true) p
  else if p = 0 then p
  else (List.range ((off + n) / 32 - (off + 31) / 32)).foldl (fun q i => setBit q ((off + 31) / 32 + i) false) p

/-- Bytes written to a tile's memory with their poison. An uncorrectable error not yet found stays in its granule (DESIGN
CHOICE: notes/assumptions/62.md). -/
def Tile.writeBytes (x : Tile) (off : Nat) (bs : List Byte) (psn : Bool) : Tile :=
  { x with mem := Mem.writeBytes x.mem off bs, poison := markPoison x.poison off bs.length psn }

/-- What INJECT KIND 5 of tile `t` does to a write at tile `u`: the first granule written is poisoned
(07_control_registers.md R234). -/
def State.injectPoison (s : State) (t u off : Nat) : State :=
  if bits (s.tile t).inject 3 0 = 5 then
    (s.modTile u fun x => { x with poison := setBit x.poison (off / 32) true }).modTile t fun x =>
      { x with inject := 0 }
  else s

/-- A write by a slot of tile `t` to tile `u`. -/
def State.slotWrite (s : State) (t u off : Nat) (bs : List Byte) (psn : Bool) : State :=
  (s.modTile u fun x => x.writeBytes off bs psn).injectPoison t u off

/-- Whether a bank does not defer poison (R262, R266). -/
def Tile.nptAt (x : Tile) (off : Nat) : Bool :=
  if h : off / 0xC000 < 16 then bit x.bfmt[off / 0xC000] 11 else false

/-- The uncorrectable errors of a range found by a read: poison, or SDC in a bank with NPT = 1 and in code memory, there by a
load as by a fetch (R266; DESIGN CHOICE: notes/assumptions/62.md). -/
def Tile.findErrors (x : Tile) (off n : Nat) : Except Word Tile :=
  if x.errs = 0 then .ok x
  else
    (List.range ((off + n + 31) / 32 - off / 32)).foldl (fun r i =>
      match r with
      | .error e => .error e
      | .ok y =>
        let g := off / 32 + i
        if y.errs.getLsbD g then
          if y.nptAt (32 * g) ∨ 0xD0000 ≤ 32 * g then .error (BitVec.ofNat 64 (2 ^ 63 + 32 * g))
          else .ok { y with errs := setBit y.errs g false, poison := setBit y.poison g true }
        else .ok y) (Except.ok x)

/-- A read of a tile's memory: errors found, the bytes, and whether a granule is poisoned. -/
def State.readTile (s : State) (t off n : Nat) : Except Stop (State × List Byte × Bool) :=
  match (s.tile t).findErrors off n with
  | .error e => .error (.sdc s e)
  | .ok x =>
    let s' := if x.errs = (s.tile t).errs then s else s.setTile t x
    .ok (s', Mem.readBytes x.mem off n, x.poisonAt off n)

/-! ### Tile control images -/

/-- Completion position as two words (07_control_registers.md R249). -/
def Completion.word0 (c : Completion) : Word :=
  BitVec.ofNat 64 (c.tag.toNat + b2n c.valid * 2 ^ 16 + c.status.toNat * 2 ^ 24)

/-- Valid completion positions of a slot. -/
def Slot.validComps (x : Slot) : Nat := (x.comps.toList.filter fun c => c.valid).length

/-- A doubleword of the slot image at offset `o` (R249). -/
def Slot.image (x : Slot) (o : Nat) : Word :=
  let i := o / 8
  if i < 32 then x.getG (BitVec.ofNat 5 i)
  else if i < 40 then x.getE (BitVec.ofNat 3 (i - 32))
  else if i = 40 then x.pc
  else if i = 41 then x.status
  else if i = 42 then x.cause
  else if i = 43 then x.epc
  else if i = 44 then x.eval
  else if i = 45 then x.tvec
  else if i = 46 then x.scratch
  else if i = 47 then x.cir
  else if i = 48 then x.wdog
  else if i = 49 then x.wdlim
  else if i = 50 then x.prio.setWidth 64
  else if i = 51 then x.pid.setWidth 64
  else if i = 52 then x.netid.setWidth 64
  else if i = 53 then x.tenant.setWidth 64
  else if i < 70 then x.ports[Fin.ofNat 16 (i - 54)]
  else if i < 86 then x.handles[Fin.ofNat 16 (i - 70)]
  else if i = 86 then BitVec.ofNat 64 (x.errTag.toNat + x.validComps * 2 ^ 16)
  else if i = 87 then x.errRec
  else if i < 120 then
    let c := x.comps[Fin.ofNat 16 ((i - 88) / 2)]
    if i % 2 = 0 then c.word0 else c.val
  else 0

/-- CTL write rule of STATUS for a writer at level `prv` (R236). SAVED's copies of res bits, [19] and [23:22], stay 0
(DESIGN CHOICE: notes/assumptions/64.md). -/
def writeStatus (old q : Word) (prv : Nat) : Word :=
  let s0 := setBit (setBit old 0 (bit q 0)) 8 (bit q 8)
  if prv = 0 then s0
  else
    let s1 := setBit (setBit s0 1 (bit q 1)) 2 (bit q 2)
    let p := if prv < bits q 21 20 then bits old 21 20 else bits q 21 20
    setBits s1 24 16 (bits q 18 16 + p * 16 + bits q 24 24 * 256)

/-- WDOG and WDLIM written: the watchdog may pass again once WDOG is not above WDLIM (R247). -/
def Slot.rearm (x : Slot) : Slot := if x.wdog.toNat ≤ x.wdlim.toNat then { x with wdFired := false } else x

/-- A doubleword written to the image of a stopped slot (R249, R507). -/
def Slot.imageWrite (x : Slot) (o : Nat) (q : Word) : Slot :=
  let i := o / 8
  if i < 32 then x.setG (BitVec.ofNat 5 i) q
  else if i < 40 then x.setE (BitVec.ofNat 3 (i - 32)) q
  else if i = 40 then { x with pc := pcOf q }
  else if i = 41 then { x with status := writeStatus x.status q 1 }
  else if i = 42 then { x with cause := q &&& 0xFF }
  else if i = 43 then { x with epc := q }
  else if i = 44 then { x with eval := q }
  else if i = 45 then { x with tvec := q }
  else if i = 46 then { x with scratch := q }
  else if i = 47 then { x with cir := q &&& 0x0000FFFF00000001 }
  else if i = 48 then ({ x with wdog := q } : Slot).rearm
  else if i = 49 then ({ x with wdlim := q } : Slot).rearm
  else if i = 50 then { x with prio := q.setWidth 2 }
  else if i < 54 then x
  else if i < 70 then { x with ports := x.ports.set (Fin.ofNat 16 (i - 54)) q }
  else if i < 86 then { x with handles := x.handles.set (Fin.ofNat 16 (i - 70)) q }
  else if i = 86 then { x with errTag := q.setWidth 16 }
  else if i = 87 then { x with errRec := q }
  else if i < 120 then
    let j := Fin.ofNat 16 ((i - 88) / 2)
    let c := x.comps[j]
    if i % 2 = 0 then
      let n : Completion := { valid := true, tag := q.setWidth 16, status := BitVec.ofNat 8 (bits q 31 24), val := c.val }
      { x with comps := x.comps.set j (if bit q 16 then n else Completion.reset) }
    else { x with comps := x.comps.set j { c with val := q } }
  else x

/-- A doubleword of tile control space (R258): slot images, violation log, decode status, fabric counters, trace ring. -/
def Tile.control (x : Tile) (off : Nat) : Word :=
  let o := off - 0xE0000
  if o < 0x2000 then x.slots[Fin.ofNat 8 (o / 0x400)].image (o % 0x400)
  else if o = 0x2000 then x.violCount
  else if 0x2010 ≤ o ∧ o < 0x2110 then
    let e := x.viol[Fin.ofNat 16 ((o - 0x2010) / 16)]
    if o % 16 = 0 then e.1 else e.2
  else if o = 0x3000 then x.decTable.revision.setWidth 64
  else if o = 0x3008 then x.decTable.digest
  else if 0x4000 ≤ o ∧ o < 0x4050 then x.fab.ctrs[Fin.ofNat 10 ((o - 0x4000) / 8)]
  else if o = 0x5000 then x.trace.base
  else if o = 0x5008 then x.trace.size
  else if o = 0x5010 then x.trace.head
  else if o = 0x5018 then x.trace.dropped
  else 0

/-- A doubleword written to tile control space at level `prv`: the image of a stopped slot; the trace ring's image at
F (14_counters_and_records.md R468). Everything else ignores writes. -/
def Tile.controlWrite (x : Tile) (off : Nat) (q : Word) (prv : Nat) : Tile :=
  let o := off - 0xE0000
  if o < 0x2000 then
    let k := Fin.ofNat 8 (o / 0x400)
    if x.slots[k].run = .stopped then x.modSlot k fun y => y.imageWrite (o % 0x400) q else x
  else if prv < 2 then x
  else if o = 0x5000 then { x with trace := { x.trace with base := q } }
  else if o = 0x5008 then { x with trace := { x.trace with size := q } }
  else if o = 0x5010 then { x with trace := { x.trace with head := q } }
  else if o = 0x5018 then { x with trace := { x.trace with dropped := q } }
  else x

/-! ### ReadLocal and WriteLocal (03_encoding.md R126, R273) -/

/-- AccessCheck of a scalar access by the current slot. -/
def State.scalarCheck (s : State) (write : Bool) (a : Word) (n : Nat) : Except MemFault Place :=
  s.accessCheck s.cur.tile true true false n
    (fun off => scalarRegion s.me.prv write a off n) a n

/-- A scalar load: the state with poison consumed, the value zero-extended, and the poison of its granule. -/
def State.scalarRead (s : State) (a : Word) (n : Nat) : Except Stop (State × Nat × Bool) :=
  match s.scalarCheck false a n with
  | .error (c, v) => .error (.trap c v)
  | .ok (.far _) => .error (.trap cADDRESS_FORM a)
  | .ok (.tile t off) =>
    if 0xE0000 ≤ off then .ok (s, ((s.tile t).control off).toNat, false)
    else match (s.crossed a).readTile t off n with
      | .error e => .error e
      | .ok (s', bs, psn) => .ok (if psn then s'.consumePoison s.pcOff else s', ofBytes bs, psn)

/-- A scalar store of the low `8n` bits. -/
def State.scalarWrite (s : State) (a : Word) (n : Nat) (v : Word) : Except Stop State :=
  match s.scalarCheck true a n with
  | .error (c, e) => .error (.trap c e)
  | .ok (.far _) => .error (.trap cADDRESS_FORM a)
  | .ok (.tile t off) =>
    if 0xE0000 ≤ off then .ok (s.modTile t fun x => x.controlWrite off v s.me.prv)
    else .ok ((s.crossed a).slotWrite s.cur.tile t off (toBytes n v.toNat) false)

/-- The LD forms (R273): `ext` extends the bytes read. -/
def loadOp (len n : Nat) (ext : Nat → Word) (imm : Word) (d rs : BitVec 5) : Body :=
  scalarOp [rs] (some d) fun st vs =>
    match st.scalarRead (vs.getD 0 0 + imm) n with
    | .ok (st', v, psn) => .ok (st'.adv len, ext v, psn)
    | .error e => .error e

/-- A store's own effect, from the values of its base and its data. -/
def storeEffect (len n : Nat) (imm : Word) (st : State) (vs : List Word) : Except Stop (State × Word × Bool) :=
  match st.scalarWrite (vs.getD 0 0 + imm) n (vs.getD 1 0) with
  | .ok st' => .ok (st'.adv len, 0, false)
  | .error e => .error e

/-- The ST forms: base, then data (R273, R274). -/
def storeOp (len n : Nat) (imm : Word) (d rs : BitVec 5) : Body := scalarOp [rs, d] none (storeEffect len n imm)

/-- LD.B: sign-extended. (R273) -/
def execLdB (imm : BitVec 13) (d rs : BitVec 5) (s : State) : Res :=
  runBody s (loadOp 4 1 (fun v => sextWord v 8) (simm imm) d rs)

/-- LD.H: sign-extended. (R273) -/
def execLdH (imm : BitVec 13) (d rs : BitVec 5) (s : State) : Res :=
  runBody s (loadOp 4 2 (fun v => sextWord v 16) (simm imm) d rs)

/-- LD.W: sign-extended. (R273) -/
def execLdW (imm : BitVec 13) (d rs : BitVec 5) (s : State) : Res :=
  runBody s (loadOp 4 4 (fun v => sextWord v 32) (simm imm) d rs)

/-- LD.D. (R273) -/
def execLdD (imm : BitVec 13) (d rs : BitVec 5) (s : State) : Res :=
  runBody s (loadOp 4 8 (fun v => BitVec.ofNat 64 v) (simm imm) d rs)

/-- LD.BU: zero-extended. (R273) -/
def execLdBu (imm : BitVec 13) (d rs : BitVec 5) (s : State) : Res :=
  runBody s (loadOp 4 1 (fun v => BitVec.ofNat 64 v) (simm imm) d rs)

/-- LD.HU: zero-extended. (R273) -/
def execLdHu (imm : BitVec 13) (d rs : BitVec 5) (s : State) : Res :=
  runBody s (loadOp 4 2 (fun v => BitVec.ofNat 64 v) (simm imm) d rs)

/-- LD.WU: zero-extended. (R273) -/
def execLdWu (imm : BitVec 13) (d rs : BitVec 5) (s : State) : Res :=
  runBody s (loadOp 4 4 (fun v => BitVec.ofNat 64 v) (simm imm) d rs)

/-- LD.ACQ: 8 bytes; the acquire orders nothing more in steps performed one at a time (R274). (R273) -/
def execLdAcq (imm : BitVec 13) (d rs : BitVec 5) (s : State) : Res :=
  runBody s (loadOp 4 8 (fun v => BitVec.ofNat 64 v) (simm imm) d rs)

/-- ST.B. (R273) -/
def execStB (imm : BitVec 13) (d rs : BitVec 5) (s : State) : Res :=
  runBody s (storeOp 4 1 (simm imm) d rs)

/-- ST.H. (R273) -/
def execStH (imm : BitVec 13) (d rs : BitVec 5) (s : State) : Res :=
  runBody s (storeOp 4 2 (simm imm) d rs)

/-- ST.W. (R273) -/
def execStW (imm : BitVec 13) (d rs : BitVec 5) (s : State) : Res :=
  runBody s (storeOp 4 4 (simm imm) d rs)

/-- ST.D. (R273) -/
def execStD (imm : BitVec 13) (d rs : BitVec 5) (s : State) : Res :=
  runBody s (storeOp 4 8 (simm imm) d rs)

/-- ST.REL: 8 bytes, a release (R273, R274; 09_memory_ordering.md R316), which it is once its operands' tokens are there
(04_scalar_registers.md R147). -/
def execStRel (imm : BitVec 13) (d rs : BitVec 5) (s : State) : Res :=
  runBody s (scalarOp [rs, d] none fun st vs =>
    if st.released then storeEffect 4 8 (simm imm) st vs else .error (.wait .issue))

/-- C.LD: LD.D d, 8 * imm6 (g2); the base is not windowed (04_scalar_registers.md R169). -/
def execCLd (d : BitVec 5) (imm : BitVec 6) (s : State) : Res :=
  runBody s (loadOp 2 8 (fun v => BitVec.ofNat 64 v) (BitVec.ofNat 64 (8 * imm.toNat)) d 2)

/-- C.ST: ST.D d, 8 * imm6 (g2). -/
def execCSt (d : BitVec 5) (imm : BitVec 6) (s : State) : Res :=
  runBody s (storeOp 2 8 (BitVec.ofNat 64 (8 * imm.toNat)) d 2)

end Sys2Proof.Machine
end

