-- ==== Sys2Proof/Machine/Regions.lean ====
section
/-!
DEFINITION. The region tree (01_machine.md R37-R41): what is left of a budget's pool. A field's effective value is in Ops.
-/
namespace Sys2Proof.Machine

/-- Assist bits of a partition (R57). -/
def State.assistBits (s : State) (tnt : Nat) : BitVec 6 :=
  match (s.part tnt).bind fun p => p.rcb.assist with
  | some v => v
  | none => s.mgr.pkg.assist.getD 0

/-- What of a budget's pool the partitions, or the networks of one, take: values carved by those that hold their own,
current use of those that inherit, `use` by NETID and `direct` by tenant (R40). -/
def State.partTaken (s : State) (f : Rcb → Option Nat) (use direct : Nat → Nat) (p : Partition) : Nat :=
  (s.mgr.nets.filter fun n => n.tnt == p.tnt).foldl (fun k n => k + (f n.rcb).getD (use n.netid)) (direct p.tnt)

/-- What is left of the package's pool. -/
def State.pkgLeft (s : State) (f : Rcb → Option Nat) (use direct : Nat → Nat) : Nat :=
  (f s.mgr.pkg).getD 0 - s.mgr.parts.foldl (fun k p => k + (f p.rcb).getD (s.partTaken f use direct p)) 0

/-- What is left of a partition's pool (R40). -/
def State.partLeft (s : State) (f : Rcb → Option Nat) (use direct : Nat → Nat) (tnt : Nat) : Nat :=
  match s.part tnt with
  | some p => match f p.rcb with
    | some v => v - s.partTaken f use direct p
    | none => s.pkgLeft f use direct
  | none => s.pkgLeft f use direct

/-- What is left of the pool a network draws on. -/
def State.netLeft (s : State) (f : Rcb → Option Nat) (use direct : Nat → Nat) (netid : Nat) : Nat :=
  match s.net netid with
  | some n => match f n.rcb with
    | some v => v - use netid
    | none => s.partLeft f use direct n.tnt
  | none => s.pkgLeft f use direct

/-- A network's current use of spill bytes: the size of its spill region (R40). -/
def State.spillUse (s : State) (netid : Nat) : Nat :=
  match s.net netid with
  | some n => n.spillSize
  | none => 0

/-- What is left at one tile of a budget that is a limit per tile, before network `netid` (R40). A tile lies in one
partition, so no other partition takes of it. -/
def State.tilePool (s : State) (f : Rcb → Option Nat) (use : Nat → Nat) (tnt : Nat) : Nat :=
  match s.part tnt with
  | some p => s.effPart f tnt - s.partTaken f use (fun _ => 0) p
  | none => s.effPart f tnt

def State.tileLeft (s : State) (f : Rcb → Option Nat) (use : Nat → Nat) (netid : Nat) : Nat :=
  match s.net netid with
  | some n => match f n.rcb with
    | some v => v - use netid
    | none => s.tilePool f use n.tnt
  | none => (f s.mgr.pkg).getD 0

end Sys2Proof.Machine
end

