-- ==== Sys2Proof/Machine/Trace.lean ====
section
/-!
DEFINITION. Trace records (14_counters_and_records.md R467-R475): their units, the FIFO, budgets, and the instructions
and events that make them.
-/
namespace Sys2Proof.Machine

def trPAD : Nat := 0
def trTEMIT : Nat := 1
def trBLOCK : Nat := 2
def trSTRIP : Nat := 3
def trTIME : Nat := 4
def trGAP : Nat := 5
def trCAPSTART : Nat := 6
def trCAPSTOP : Nat := 7
def trTILE : Nat := 8

/-- The units of a record (R469): header in the first 8 bytes, then its payload words. -/
def recUnits (time slot typ : Nat) (p0 : Word) (rest : List (BitVec 128)) : List (BitVec 128) :=
  BitVec.ofNat 128 (0xA5C + typ * 2 ^ 12 + rest.length % 4 * 2 ^ 16 + slot % 8 * 2 ^ 18 + time % 2 ^ 40 * 2 ^ 24
    + p0.toNat * 2 ^ 64) :: rest

/-- PAD units a record of `n` units needs before it (R469). -/
def Trace.pads (x : Trace) (n : Nat) : Nat := if n ≤ 4 - x.entered % 4 then 0 else 4 - x.entered % 4

/-- Whether a record of `n` units and its padding fit in the FIFO of 256 units (R471). -/
def Trace.fits (x : Trace) (n : Nat) : Bool := decide (x.fifo.length + x.pads n + n ≤ 256)

/-- Units put into the FIFO behind their padding. -/
def Trace.enter (x : Trace) (time : Nat) (us : List (BitVec 128)) : Trace :=
  let p := x.pads us.length
  { x with fifo := x.fifo ++ List.replicate p ((recUnits time 0 trPAD 0 []).headD 0) ++ us,
           entered := x.entered + p + us.length, written := x.written + 1 }

/-- A record dropped (R471). -/
def Tile.dropRecord (x : Tile) : Tile :=
  ({ x with trace := { x.trace with dropped := x.trace.dropped + 1, gap := x.trace.gap + 1 } }).perf 0x0015 none 1

/-! ### The trace-bandwidth budget (01_machine.md R40, R41) -/

/-- Bytes entered in the current period by slot `k`, or by the tile itself for 8. -/
def Trace.used (x : Trace) (k : Nat) : Nat := mapGet 0 x.periodBytes k

/-- The period of 1,024 tile cycles brought up to date. -/
def Trace.roll (x : Trace) (cycle : Nat) : Trace :=
  if x.period = cycle / 1024 then x else { x with period := cycle / 1024, periodBytes := [] }

/-- What of the budget a network takes at a tile in the current period: its processes' own values, and what its other
slots and the tile for it have written. -/
def State.traceUse (s : State) (t n : Nat) : Nat :=
  let tr := (s.tile t).trace.roll (s.cycle t)
  (s.mgr.procs.filter fun p => p.tile == t && p.netid == n).foldl
    (fun a p => a + (p.rcb.tracebw).getD (tr.used p.slot)) (if tr.netid = n then tr.used 8 else 0)

/-- Bytes slot `k` of a tile may still write in this period. -/
def State.traceLeft (s : State) (t k : Nat) : Nat :=
  let tr := (s.tile t).trace
  match s.mgr.procs.find? fun p => p.tile == t && p.slot == k with
  | some p => match p.rcb.tracebw with
    | some v => v - tr.used k
    | none => s.tileLeft (·.tracebw) (s.traceUse t) p.netid
  | none => s.tileLeft (·.tracebw) (s.traceUse t) tr.netid

/-- Bytes that a record of `n` units takes with its padding. -/
def Trace.cost (x : Trace) (n : Nat) : Nat := 16 * (x.pads n + n)

/-- Units entered on the account of slot `k`. -/
def Trace.enterFor (x : Trace) (time k : Nat) (us : List (BitVec 128)) : Trace :=
  { x.enter time us with periodBytes := mapSet x.periodBytes k (x.used k + x.cost us.length) }

/-- A record of slot `k` (8 for the tile): entered whole or dropped (R471). -/
def State.addRecord (s : State) (t k typ : Nat) (p0 : Word) (rest : List (BitVec 128)) : State :=
  let s1 := s.modTile t fun x => { x with trace := x.trace.roll (s.cycle t) }
  let tr := (s1.tile t).trace
  let us := recUnits s.time (if k = 8 then 0 else k) typ p0 rest
  if tr.gap = 0 ∧ tr.heldCaps = [] ∧ tr.fits us.length = true ∧ tr.cost us.length ≤ s1.traceLeft t k then
    s1.modTile t fun x => { x with trace := x.trace.enterFor s.time k us }
  else s1.modTile t Tile.dropRecord

/-- CAPSTART and CAPSTOP: held until there is room (R471). -/
def State.addCap (s : State) (t typ : Nat) (p0 : Word) : State :=
  s.modTile t fun x =>
    let us := recUnits s.time 0 typ p0 []
    if x.trace.gap = 0 ∧ x.trace.heldCaps = [] ∧ x.trace.fits 1 = true then { x with trace := x.trace.enter s.time us }
    else { x with trace := { x.trace with heldCaps := x.trace.heldCaps ++ us } }

/-- Whether a unit begins a TIME record. Of the held records only the one that follows a GAP is a TIME. -/
def beginsTime (u : BitVec 128) : Bool := bits u 15 12 == trTIME

/-- Held records entered while there is room, at most `n`; behind a pending count only the TIME that follows the GAP
before it. -/
def State.flushCaps (s : State) (t : Nat) : Nat → State
  | 0 => s
  | n + 1 =>
    let tr := (s.tile t).trace
    match tr.heldCaps with
    | u :: r =>
      if (tr.gap = 0 ∨ beginsTime u = true) ∧ tr.fits 1 = true then
        (s.modTile t fun x => { x with trace := { x.trace.enter s.time [u] with heldCaps := r } }).flushCaps t n
      else s
    | [] => s

/-- TIME (R470). -/
def State.addTime (s : State) (t : Nat) : State := s.addRecord t 8 trTIME (BitVec.ofNat 64 s.time) []

/-- The pending GAP entered as soon as there is room for it and its padding, followed by a TIME, which is held where there is no
room for it yet and then enters before another GAP (R471). Both count in the bytes of the trace-bandwidth budget's period
(DESIGN CHOICE: notes/assumptions/60.md). -/
def State.addGap (s : State) (t : Nat) : State :=
  let s0 := (s.modTile t fun x => { x with trace := x.trace.roll (s.cycle t) }).flushCaps t 1
  let tr := (s0.tile t).trace
  if tr.gap ≠ 0 ∧ tr.fits 1 = true ∧ (tr.heldCaps.head?.any beginsTime) = false then
    let us := recUnits s.time 0 trGAP (BitVec.ofNat 64 (min tr.gap (2 ^ 32 - 1))) []
    let tm := recUnits s.time 0 trTIME (BitVec.ofNat 64 s.time) []
    let s1 := s0.modTile t fun x =>
      let y := { x.trace.enterFor s.time 8 us with gap := 0 }
      { x with trace := { y with heldCaps := tm ++ y.heldCaps, periodBytes := mapSet y.periodBytes 8 (y.used 8 + 16) } }
    s1.flushCaps t (tr.heldCaps.length + 1)
  else s0

/-! ### Records of instructions (R472, R474) -/

/-- A record of the current slot, when a window is open and TRCTL bit `en` is set (R467). -/
def State.slotRecord (s : State) (en typ : Nat) (p0 : Word) (rest : List (BitVec 128)) : State :=
  if bit s.myTile.trctl 0 && bit s.myTile.trctl en then s.addRecord s.cur.tile s.cur.slot.val typ p0 rest else s

/-- 32 bits saturating. -/
def sat32 (n : Nat) : Nat := min n (2 ^ 32 - 1)

/-- A SETVL or SETVLI that retires with `vl` granted closes the open strip and opens a new one (R474). -/
def State.closeStrip (s : State) (vl : Nat) : State :=
  if bit s.myTile.trctl 0 && bit s.myTile.trctl 3 then
    let now := s.cycle s.cur.tile
    let open' := fun (x : State) => x.updTile fun y =>
      { y with trace := { y.trace with strips := y.trace.strips.set s.cur.slot (some { vl := vl, opened := now }) } }
    match s.myTile.trace.strips[s.cur.slot] with
    | none => open' s
    | some st =>
      let p0 : Word := BitVec.ofNat 64 (st.vl + s.pcOff * 2 ^ 16 + sat32 (now - st.opened) * 2 ^ 32)
      let u1 := sat32 st.arith + sat32 st.mem * 2 ^ 32 + sat32 st.matrix * 2 ^ 64 + sat32 st.blocked * 2 ^ 96
      open' (s.slotRecord 3 trSTRIP p0 [BitVec.ofNat 128 u1])
  else s

/-- TEMIT: a record with g s while EMIT and OPEN are 1 (R472). -/
def execTemit (rs : BitVec 5) (s : State) : Res :=
  runBody s fun st => .ok ((st.slotRecord 1 trTEMIT (st.g rs) []).adv 4)

/-- TMARK: a BLOCK record while BLOCK and OPEN are 1 (R472). -/
def execTmark (imm : BitVec 13) (s : State) : Res :=
  runBody s fun st => .ok ((st.slotRecord 2 trBLOCK
    (BitVec.ofNat 64 (st.pcOff + imm.toNat * 2 ^ 16 + st.me.pid.toNat * 2 ^ 32)) []).adv 4)

/-- GAP_RECORD: when room has returned (R471). -/
def execGapRecord (tile : Nat) (s : State) : Res := runEvent s fun st => if (st.tile tile).trace.gap = 0 then st else st.addGap tile

/-- TS_WRAP: a TIME record when TS [39:0] has wrapped while the window is open (R471). -/
def execTsWrap (tile : Nat) (s : State) : Res := runEvent s fun st =>
  let x := st.tile tile
  if bit x.trctl 0 ∧ x.trace.lastWrap < st.time / 2 ^ 40 then
    (st.modTile tile fun y => { y with trace := { y.trace with lastWrap := st.time / 2 ^ 40 } }).addTime tile
  else st

end Sys2Proof.Machine
end

