-- ==== Sys2Proof/Machine/Vec.lean ====
section
/-!
DEFINITION. The long-vector state: elements, the governing mask, writes with poison and exception flags, the
silent-error checker, and the bodies the vector instructions share (05_vector_registers.md).
-/
namespace Sys2Proof.Machine

/-! ### VT, VL and elements (R172-R176) -/

def VecCtx.fmt (c : VecCtx) : Nat := bits c.vt 4 0
def VecCtx.blk (c : VecCtx) : Nat := blockLen (bits c.vt 6 5)
def VecCtx.rm (c : VecCtx) : Nat := bits c.vt 8 7
def VecCtx.sblk (c : VecCtx) : Nat := blockLen (bits c.vt 10 9)
def VecCtx.bad (c : VecCtx) : Bool := bit c.vt 31

/-- VLMAX of a format with a block length (R174). -/
def vlMax (fmt blk : Nat) : Nat :=
  let n := 8192 / fmtWidth fmt
  if isBfp fmt then min n 4096 - min n 4096 % blk else n

def VecCtx.vlMax (c : VecCtx) : Nat := Machine.vlMax c.fmt c.blk

/-- The grant for a request (R185). -/
def VecCtx.grant (c : VecCtx) (q : Nat) : Nat :=
  let n := min q c.vlMax
  if isBfp c.fmt then n - n % c.blk else n

/-- VL written with a request: the grant rule over all 64 bits of the value, [63:13] included (R175, R185; DESIGN CHOICE beside
VL's field map: notes/assumptions/64.md). -/
def VecCtx.setVl (c : VecCtx) (q : Word) : VecCtx := { c with vl := BitVec.ofNat 13 (c.grant q.toNat) }

/-- VT written with a value: the rule of SETVT (R186). -/
def VecCtx.setVt (c : VecCtx) (q : Word) : VecCtx :=
  if q.toNat / 2 ^ 11 ≠ 0 ∨ fmtKnown (bits q 4 0) = false then { c with vt := 0x80000000, vl := 0 }
  else
    let c1 := { c with vt := BitVec.ofNat 32 (bits q 10 0) }
    { c1 with vl := BitVec.ofNat 13 (c1.grant c.vl.toNat) }

/-- XCLASS written: XM is cleared (R176). -/
def VecCtx.setXclass (c : VecCtx) (q : Word) : VecCtx := { c with xclass := q.setWidth 3, xm := 0 }

/-- A vector register. -/
def VecCtx.reg (c : VecCtx) (r : BitVec 5) : Nat := c.v[r.toFin].toNat

/-- Element `i` of width `w` of a register's bits (R172). -/
def elemAt (w x i : Nat) : Nat := x / 2 ^ (w * i) % 2 ^ w

/-- Byte `j` of a register's exponent side array (R173). -/
def VecCtx.side (c : VecCtx) (r : BitVec 5) (j : Nat) : Nat := c.x[r.toFin].toNat / 2 ^ (8 * j) % 256

def VecCtx.poisReg (c : VecCtx) (r : BitVec 5) : BitVec 8 := c.pois[r.toFin]

def VecCtx.mask (c : VecCtx) (r : BitVec 3) : BitVec 4096 := c.m[r.toFin]

/-- Active(i) of every element as a mask (03_encoding.md R126, R181). -/
def VecCtx.active (c : VecCtx) (m : BitVec 3) (e : BitVec 1) : Nat :=
  (if e = 1 then c.fmask &&& c.mask m else c.fmask).toNat % 2 ^ c.vl.toNat

/-- Whether element `i` of width `w` lies in a poisoned 1,024-bit group (R182). -/
def elemPoison (p : BitVec 8) (w i : Nat) : Bool :=
  p != 0 && (bit p (w * i / 1024) || bit p ((w * i + w - 1) / 1024))

/-! ### Writes (R181, R182, R90) -/

/-- What an element gets: its bits, its classes, and whether a poisoned group was read for it; none keeps it. -/
structure ElemOut where
  val : Nat
  cls : Nat := 0
  psn : Bool := false
  deriving DecidableEq, Repr

/-- Elements written over a register's bits, from element 0. -/
def putElems (w : Nat) : Nat → List (Option ElemOut) → Nat
  | x, [] => x
  | x, o :: r =>
    (match o with
      | some v => v.val % 2 ^ w
      | none => x % 2 ^ w) + 2 ^ w * putElems w (x / 2 ^ w) r

/-- The poison bits of a destination after a write (R182). A group is written whole when every element up to VLMAX that
lies in it is written: bits beyond the last element belong to none (DESIGN CHOICE: notes/assumptions/50.md). -/
def putPoison (w vmax : Nat) (p : BitVec 8) (out : List (Option ElemOut)) : BitVec 8 :=
  (List.range 8).foldl (fun q g =>
    let lo := 1024 * g / w
    let hi := min (vmax - 1) ((1024 * g + 1023) / w)
    let here := (out.drop lo).take (hi + 1 - lo)
    if here.any (fun o => match o with
      | some v => v.psn
      | none => false) then setBit q g true
    else if here.length = hi + 1 - lo ∧ here.all (fun o => o.isSome) ∧ lo ≤ hi then setBit q g false
    else q) p

/-- The XM bits the classes of a list of elements set (R89, R90). -/
def xmBits (xclass : Nat) : List (Option ElemOut) → Nat
  | [] => 0
  | o :: r =>
    (match o with
      | some v => if xclass ≤ 5 ∧ v.cls / 2 ^ xclass % 2 = 1 then 1 else 0
      | none => 0) + 2 * xmBits xclass r

/-- XM after the classes a list of elements raises. -/
def VecCtx.flags (c : VecCtx) (out : List (Option ElemOut)) : VecCtx :=
  if out.all (fun o => match o with
    | some v => v.cls == 0
    | none => true) then c
  else { c with xm := c.xm ||| BitVec.ofNat 4096 (xmBits c.xclass.toNat out) }

def anyPoison (out : List (Option ElemOut)) : Bool :=
  out.any fun o => match o with
    | some v => v.psn
    | none => false

/-- Elements of width `w` written to register `d`. -/
def State.putVec (s : State) (d : BitVec 5) (w vmax : Nat) (out : List (Option ElemOut)) : State :=
  (s.updVec fun c =>
    { c with v := c.v.set d.toFin (BitVec.ofNat 8192 (putElems w (c.reg d) out)),
             pois := c.pois.set d.toFin (putPoison w vmax (c.poisReg d) out) }.flags out).notePoison (anyPoison out)

/-- Side-array bytes written to register `d` (R173). -/
def State.putSide (s : State) (d : BitVec 5) (out : List (Option Nat)) : State :=
  s.updVec fun c =>
    { c with x := c.x.set d.toFin (BitVec.ofNat 4096
        (putElems 8 c.x[d.toFin].toNat (out.map fun o => o.map fun v => { val := v }))) }

/-- For each i below `n`: `f i` where the mask has the bit. -/
def mapActive (n act : Nat) (f : Nat → ElemOut) : List (Option ElemOut) :=
  (List.range n).map fun i => if act.testBit i then some (f i) else none

/-! ### Completion, checks and the checker -/

/-- FMASK all ones and the PC past the instruction (R177). -/
def State.longDone (s : State) : State := (s.updVec fun c => { c with fmask := BitVec.allOnes 4096 }).adv 4

/-- The element groups of `n` elements: 1,024 bits of the wider of VT's format and one of width `w` (R202;
03_encoding.md R119). -/
def VecCtx.groups (c : VecCtx) (n w : Nat) : Nat := ceilDiv (n * max (fmtWidth c.fmt) w) 1024

/-- An instruction of an arithmetic pipe completed over `n` groups: they are counted (14_counters_and_records.md R463), FMASK
becomes all ones, and the PC passes it (R177). A pipe processes a group in a cycle (R474). -/
def State.arithDone (s : State) (n : Nat) : State :=
  (s.updTile fun x => (x.perf 0x000A (some s.cur.slot) n).stripAdd s.cur.slot fun p => { p with arith := p.arith + n }).longDone

/-- A vector instruction over VL elements of VT's format completed. -/
def State.vecDone (s : State) : State := s.arithDone (s.vec.groups s.vec.vl.toNat 0)

/-- An instruction of the vector memory pipe completed over `n` groups. -/
def State.memDone (s : State) (n : Nat) : State :=
  (s.updTile fun x => (x.perf 0x000A (some s.cur.slot) n).stripAdd s.cur.slot fun p => { p with mem := p.mem + n }).longDone

/-- The checks of R24 and R184: ILLEGAL with EVAL the encoding; then VL = 0 completes with no element effect (R183). -/
def vecBody (enc : Nat) (ok : Nat → Bool) (zero : Bool) (b : Body) : Body := needVec enc fun s =>
  if s.vec.bad || !ok s.vec.fmt then .error (.trap cILLEGAL (BitVec.ofNat 64 enc))
  else if zero && s.vec.vl == 0 then .ok s.vecDone
  else b s

/-- One advance of the checker's LFSR (R198). -/
def lfsrNext (l : BitVec 32) : BitVec 32 :=
  (l <<< 1) ||| BitVec.ofNat 32 (b2n (bit l 31 ^^ bit l 21 ^^ bit l 1 ^^ bit l 0))

/-- The checker's examination of an instruction over `n` elements (R198, R200), with an injected mismatch
(07_control_registers.md R234 KIND 3 and 4): a first mismatch that the re-executed group mends is counted; a second is
SDC with EVAL element, slot, `mark` and PC[15:0]. -/
def State.checker (s : State) (n mark : Nat) : Except Stop State :=
  let x := s.myTile
  let l := lfsrNext x.lfsr
  let s1 := s.updTile fun x => { x with lfsr := l }
  let kind := bits x.inject 3 0
  if kind = 3 ∨ kind = 4 then
    let s2 := s1.updTile fun x => { x with inject := 0 }
    if kind = 3 then .ok (s2.updTile fun x => x.perf 0x000D (some s.cur.slot) 1)
    else .error (.sdc s2 (BitVec.ofNat 64 (l.toNat % n + s.cur.slot.val % 2 * 2 ^ 12 + mark * 2 ^ 13 + s.pcOff * 2 ^ 16)))
  else .ok s1

/-- An effect that the checker examines before the instruction retires. -/
def checkedBody (b : Body) : Body := fun s =>
  match s.checker s.vec.vl.toNat 0 with
  | .error e => .error e
  | .ok s' => b s'

/-! ### Shared bodies -/

/-- An element-wise instruction: `f i` of the source elements. -/
def ewise (m : BitVec 3) (e : BitVec 1) (d : BitVec 5) (srcs : List (BitVec 5)) (f : Nat → List Nat → Nat × Nat) : Body :=
  fun s =>
    let c := s.vec
    let w := fmtWidth c.fmt
    let regs := srcs.map c.reg
    let ps := srcs.map c.poisReg
    let out := mapActive c.vl.toNat (c.active m e) fun i =>
      let r := f i (regs.map fun x => elemAt w x i)
      { val := r.1, cls := r.2, psn := ps.any fun p => elemPoison p w i }
    .ok (s.putVec d w c.vlMax out).vecDone

/-- A vector integer instruction (R188): `f` of W, of the two elements' bits and of their values. -/
def vint (enc : Nat) (b : BitVec 5) (m : BitVec 3) (e : BitVec 1) (d a : BitVec 5)
    (f : Nat → Nat → Nat → Int → Int → Int) : Body :=
  vecBody enc isInt true (checkedBody fun s =>
    let fm := s.vec.fmt
    let w := fmtWidth fm
    ewise m e d [a, b] (fun _ xs =>
      let p := xs.getD 0 0
      let q := xs.getD 1 0
      (wrapInt (f w p q (intVal fm p) (intVal fm q)) w, 0)) s)

/-- VSADD and VSSUB (R188). -/
def vsat (enc : Nat) (b : BitVec 5) (m : BitVec 3) (e : BitVec 1) (d a : BitVec 5) (f : Int → Int → Int) : Body :=
  vecBody enc isInt true (checkedBody fun s =>
    let fm := s.vec.fmt
    ewise m e d [a, b] (fun _ xs =>
      let r := satInt (f (intVal fm (xs.getD 0 0)) (intVal fm (xs.getD 1 0))) (intLo fm) (intHi fm)
      (wrapInt r.1 (fmtWidth fm), r.2)) s)

/-- A vector FP instruction (R189): `f` of the format, the rounding mode, the origin payload and the elements. -/
def vfp (enc : Nat) (rm : Option Nat) (m : BitVec 3) (e : BitVec 1) (d : BitVec 5) (srcs : List (BitVec 5))
    (f : Nat → Nat → Nat → List Nat → FpRes) : Body :=
  vecBody enc isFp true (checkedBody fun s =>
    ewise m e d srcs (fun i xs =>
      f s.vec.fmt (rm.getD s.vec.rm) (originOf i s.cur.slot.val s.pcOff) xs) s)

/-- Bits written to mask `d` for the elements of a mask `act` (R191). -/
def State.putMask (s : State) (d : BitVec 3) (act val : Nat) : State :=
  let a := BitVec.ofNat 4096 act
  s.updVec fun c => { c with m := c.m.set d.toFin ((c.mask d &&& ~~~a) ||| (BitVec.ofNat 4096 val &&& a)) }

/-- A mask with bit i set where `f i` holds, i below `n`. -/
def maskOf (n : Nat) (f : Nat → Bool) : Nat := (List.range n).foldr (fun i v => if f i then v ||| 2 ^ i else v) 0

/-- A compare (R191): `f` of the format and the two elements gives the relation and the classes. -/
def vcompare (enc : Nat) (ok : Nat → Bool) (b : BitVec 5) (m : BitVec 3) (e : BitVec 1) (d : BitVec 3) (a : BitVec 5)
    (f : Nat → Nat → Nat → Bool × Nat) : Body :=
  vecBody enc ok true (checkedBody fun s =>
    let c := s.vec
    let w := fmtWidth c.fmt
    let act := c.active m e
    let out := mapActive c.vl.toNat act fun i =>
      let r := f c.fmt (elemAt w (c.reg a) i) (elemAt w (c.reg b) i)
      { val := b2n r.1, cls := r.2, psn := elemPoison (c.poisReg a) w i || elemPoison (c.poisReg b) w i }
    .ok ((((s.putMask d act (putElems 1 0 out)).updVec fun x => x.flags out).notePoison (anyPoison out)).vecDone))

/-- An integer relation over the values. -/
def cmpS (f : Int → Int → Bool) (fm p q : Nat) : Bool × Nat := (f (intVal fm p) (intVal fm q), 0)

/-- An integer relation over the bits read unsigned. -/
def cmpU (f : Nat → Nat → Bool) (_ p q : Nat) : Bool × Nat := (f p q, 0)

/-- A floating-point relation (R191, where -0 equals +0; DESIGN CHOICE beside 02_number_formats.md R84:
notes/assumptions/51.md): `nanRes` with a NaN; `ord` when it is one of .lt, .le, .gt, .ge. -/
def cmpF (f : Int → Bool) (nanRes ord : Bool) (fm p q : Nat) : Bool × Nat :=
  let inv := if isSnan fm p || isSnan fm q || (ord && (isNan fm p || isNan fm q)) then xINVALID else 0
  if isNan fm p || isNan fm q then (nanRes, inv) else (f (fpOrder fm p q), inv)

/-- MAND to MNOT (R192): bits below VL; FMASK and its rewrite do not apply. -/
def maskOp (enc : Nat) (d : BitVec 3) (f : VecCtx → BitVec 4096) : Body :=
  vecBody enc (fun _ => true) false fun s =>
    let act := 2 ^ s.vec.vl.toNat - 1
    .ok ((s.putMask d act (f s.vec).toNat).adv 4)

/-- The value of MMOVE's register field (R193). -/
def VecCtx.wide (c : VecCtx) (a : BitVec 5) : Option (BitVec 4096) :=
  if a.toNat < 8 then some (c.mask (a.setWidth 3))
  else if a.toNat = 8 then some c.xm
  else if a.toNat = 9 then some c.fmask
  else none

/-- The register MMOVE's destination field names, written. -/
def VecCtx.setWide (c : VecCtx) (d : BitVec 5) (v : BitVec 4096) : Option VecCtx :=
  if d.toNat < 8 then some { c with m := c.m.set (d.setWidth 3).toFin v }
  else if d.toNat = 8 then some { c with xm := v }
  else if d.toNat = 9 then some { c with fmask := v }
  else none

def nonBfp (f : Nat) : Bool := !isBfp f

/-- A cross-element move (R194): `f` of the active mask and the source's bits gives the elements written and the element
of the source each reads; any poisoned group read poisons every group written. The groups read are those of the elements
the move uses (DESIGN CHOICE: notes/assumptions/50.md). -/
def crossElem (enc : Nat) (m : BitVec 3) (e : BitVec 1) (d : BitVec 5) (a : BitVec 5)
    (f : State → Nat → List (Option (Option Nat))) : Body :=
  vecBody enc nonBfp true fun s =>
    let c := s.vec
    let w := fmtWidth c.fmt
    let plan := f s (c.active m e)
    let psn := plan.any fun o => match o with
      | some (some k) => elemPoison (c.poisReg a) w k
      | _ => false
    let out := plan.map fun o => o.map fun k => match k with
      | some j => ({ val := elemAt w (c.reg a) j, psn := psn } : ElemOut)
      | none => { val := 0, psn := psn }
    .ok (s.putVec d w c.vlMax out).vecDone

/-- The active elements numbered from 0 in ascending order, each with its number. -/
def ranks (n act : Nat) : List (Option Nat) :=
  ((List.range n).foldl (fun (l, j) i => if act.testBit i then (l ++ [some j], j + 1) else (l ++ [none], j))
    (([] : List (Option Nat)), 0)).1

/-- A reduction (R195): the tree over the active elements of `a`, written to element 0. The groups read are those of the
active elements (DESIGN CHOICE: notes/assumptions/50.md). -/
def vreduce (enc : Nat) (ok : Nat → Bool) (m : BitVec 3) (e : BitVec 1) (d a : BitVec 5)
    (f : State → List (Option (Nat × Nat)) → ElemOut) : Body :=
  vecBody enc ok true fun s =>
    let c := s.vec
    let w := fmtWidth c.fmt
    let act := c.active m e
    let xs := (List.range c.vl.toNat).map fun i => if act.testBit i then some (i, elemAt w (c.reg a) i) else none
    let psn := (List.range c.vl.toNat).any fun i => act.testBit i && elemPoison (c.poisReg a) w i
    let r := f s xs
    .ok (s.putVec d w c.vlMax [some { r with psn := psn }]).vecDone

/-- An integer reduction: the op over values, the result of an empty tree. -/
def redInt (f : Int → Int → Int) (empty : Nat → Int) (s : State) (xs : List (Option (Nat × Nat))) : ElemOut :=
  let fm := s.vec.fmt
  let r := tree f (xs.map fun o => o.map fun p => intVal fm p.2)
  { val := wrapInt (r.getD (empty fm)) (fmtWidth fm) }

/-- VFREDSUM: each node one rounding in RNE; a NaN it produces carries the node's left position (R195;
02_number_formats.md R86). -/
def redFp (s : State) (xs : List (Option (Nat × Nat))) : ElemOut :=
  let fm := s.vec.fmt
  let r := treeAt (fun i (p q : Nat × Nat) =>
    let v := fpAdd fm 0 (originOf i s.cur.slot.val s.pcOff) false p.1 q.1
    (v.1, p.2 ||| q.2 ||| v.2)) (xs.map fun o => o.map fun p => (p.2, 0))
  match r with
  | some (v, c) => { val := v, cls := c }
  | none => { val := 0 }

/-! ### VCVT (R196; 02_number_formats.md R99) -/

/-- A source of elements on their way through a conversion: its format and block length, the bits of element i, the
exponent of block j, and whether element i is poisoned. -/
structure Src where
  fmt : Nat
  blk : Nat
  elem : Nat → Nat
  exp : Nat → Nat
  psn : Nat → Bool

/-- A register as a source, read in format `f` with block length `b`. -/
def VecCtx.src (c : VecCtx) (a : BitVec 5) (f b : Nat) : Src where
  fmt := f
  blk := b
  elem := fun i => elemAt (fmtWidth f) (c.reg a) i
  exp := fun j => c.side a j
  psn := fun i => elemPoison (c.poisReg a) (fmtWidth f) i

/-- Element `i` of a BFP source as FP32, by FromBFP. -/
def Src.fp32 (x : Src) (origin i : Nat) : FpRes := fromBfp (fmtWidth x.fmt) origin (x.exp (i / x.blk)) (x.elem i)

/-- Origin payload of a lane for the current instruction (R85). -/
def State.origin (s : State) (i : Nat) : Nat := originOf i s.cur.slot.val s.pcOff

/-- Element `i` converted to a format that is not BFP (02_number_formats.md R99). -/
def Src.toPlain (x : Src) (df mode origin i : Nat) : ElemOut :=
  if isBfp x.fmt then
    let (v, c1) := x.fp32 origin i
    let (y, c2) := ofFp32 df mode v
    { val := y, cls := c1 ||| c2, psn := x.psn i }
  else
    let (y, c2) := convert x.fmt mode df (x.elem i)
    { val := y, cls := c2, psn := x.psn i }

/-- Block `j`, of `B` elements, of a BFP destination: its exponent and its elements. -/
def Src.toBlock (x : Src) (df B mode : Nat) (origin : Nat → Nat) (j : Nat) : Nat × List ElemOut :=
  let is := (List.range B).map fun i => j * B + i
  if x.fmt = df ∧ x.blk = B then (x.exp j, is.map fun i => { val := x.elem i, psn := x.psn i })
  else
    let xs := is.map fun i => if isBfp x.fmt then x.fp32 (origin i) i else toFp32 x.fmt mode (x.elem i)
    let (E, ms) := toBfp (fmtWidth df) (xs.map (·.1))
    (E, (List.zip is (List.zip xs ms)).map fun p =>
      { val := p.2.2.1, cls := p.2.1.2 ||| p.2.2.2, psn := x.psn p.1 })

/-- The elements of block `j` of a BFP destination, or none of them where one is not written. -/
def blockWhole (n act blk j : Nat) : Bool := decide ((j + 1) * blk ≤ n) && (List.range blk).all fun i => act.testBit (j * blk + i)

/-- Blocks written whole to a BFP register: mantissas and exponents. -/
def State.putBlocks (s : State) (d : BitVec 5) (nb n act : Nat) (f : Nat → Nat × List ElemOut) : State :=
  let c := s.vec
  let bs := (List.range nb).map fun j => if blockWhole n act c.blk j then some (f j) else none
  let out := bs.flatMap fun b => match b with
    | some (_, es) => es.map some
    | none => List.replicate c.blk none
  (s.putVec d (fmtWidth c.fmt) c.vlMax out).putSide d (bs.map fun b => b.map fun p => p.1)

/-- VCVT with a rounding mode of its own, or VT.RM. -/
def vconvert (enc : Nat) (g : BitVec 5) (m : BitVec 3) (e : BitVec 1) (rm : Option Nat) (d a : BitVec 5) : Body :=
  vecBody enc (fun _ => fmtKnown g.toNat) true (checkedBody fun s =>
    let c := s.vec
    let sf := g.toNat
    let mode := rm.getD c.rm
    let n := min c.vl.toNat (vlMax sf c.sblk)
    let act := c.active m e % 2 ^ n
    if isBfp c.fmt then
      .ok ((s.putBlocks d (c.vl.toNat / c.blk) n act ((c.src a sf c.sblk).toBlock c.fmt c.blk mode s.origin)).arithDone
        (c.groups n (fmtWidth sf)))
    else .ok ((s.putVec d (fmtWidth c.fmt) c.vlMax
      (mapActive n act fun i => (c.src a sf c.sblk).toPlain c.fmt mode (s.origin i) i)).arithDone
        (c.groups n (fmtWidth sf))))

end Sys2Proof.Machine
end

