-- ==== Sys2Proof/Machine/Layout.lean ====
section
/-!
DEFINITION. Where elements and BFP blocks lie in memory: MemFmt (08_memories.md R263), the layout of blocks
(02_number_formats.md R95, R96), and ENGINE_FAULT (06_matrix_accumulators.md R213).
-/
namespace Sys2Proof.Machine

/-- ENGINE_FAULT with a reason and a value of 56 bits (R213). -/
def engineFault (reason v : Nat) : MemFault := (cENGINE_FAULT, BitVec.ofNat 64 (reason * 2 ^ 56 + v % 2 ^ 56))

def MemFmt.bfp (f : MemFmt) : Bool := isBfp f.fmt

/-- Sm of a format that is not BFP. -/
def MemFmt.size (f : MemFmt) : Nat := fmtWidth f.fmt / 8

/-- Width of an element or mantissa. -/
def MemFmt.w (f : MemFmt) : Nat := fmtWidth f.fmt

/-- VT's format and block length, inline: untyped banks, scalar data memory, far memory. -/
def VecCtx.memFmt (c : VecCtx) : MemFmt := { fmt := c.fmt, blk := c.blk, exr := false, typed := false }

/-- The format of the bank an offset lies in; none where the bank is untyped or the offset is in no bank. -/
def Tile.bankFmt (x : Tile) (off : Nat) : Option MemFmt :=
  if h : off / 0xC000 < 16 then
    let q := x.bfmt[off / 0xC000]
    if bit q 7 then some { fmt := bits q 4 0, blk := blockLen (bits q 9 8), exr := bit q 10, typed := true } else none
  else none

/-- MemFmt of a place, `d` where nothing types it. -/
def State.memFmt (s : State) (d : MemFmt) : Place → MemFmt
  | .tile t off => ((s.tile t).bankFmt off).getD d
  | .far _ => d

/-! ### Blocks (R95, R96) -/

/-- Bytes of a block's mantissas. -/
def MemFmt.mb (f : MemFmt) : Nat := f.blk * f.w / 8

/-- Blocks a bank holds. -/
def MemFmt.nb (f : MemFmt) : Nat := 49152 / (f.mb + 1)

/-- Bytes from one block to the next in the mantissa area. -/
def MemFmt.step (f : MemFmt) : Nat := if f.exr then f.mb else f.mb + 1

/-- Block index of an offset within its bank. -/
def MemFmt.index (f : MemFmt) (off : Nat) : Nat := off % 0xC000 / f.step

/-- Whether an offset is a block boundary of its bank's layout. -/
def MemFmt.boundary (f : MemFmt) (off : Nat) : Bool :=
  decide (off % 0xC000 % f.step = 0) && decide (f.index off < f.nb)

/-- Whether `n` blocks from an offset lie in its bank. -/
def MemFmt.inBank (f : MemFmt) (off n : Nat) : Bool := decide (f.index off + n ≤ f.nb)

/-- Place of block `j`'s exponent from a base. -/
def MemFmt.expAt (f : MemFmt) (base j : Nat) : Nat :=
  if f.exr then base / 0xC000 * 0xC000 + 49152 - f.nb + f.index base + j else base + j * f.step

/-- Place of block `j`'s mantissas. -/
def MemFmt.manAt (f : MemFmt) (base j : Nat) : Nat := if f.exr then base + j * f.step else base + j * f.step + 1

/-- The mantissas of a block from their bytes. -/
def MemFmt.unpack (f : MemFmt) (bs : List Byte) : List Nat := (List.range f.blk).map fun i => elemAt f.w (ofBytes bs) i

/-- The bytes of a block's mantissas. -/
def MemFmt.pack (f : MemFmt) (ms : List Nat) : List Byte :=
  toBytes f.mb (putElems f.w 0 (ms.map fun m => some { val := m }))

/-- Block `j` at a tile: exponent, mantissas, poison of its granules. -/
def State.readBlock (s : State) (f : MemFmt) (t base j : Nat) : Except Stop (State × Nat × List Nat × Bool) :=
  match s.readTile t (f.expAt base j) 1 with
  | .error e => .error e
  | .ok (s1, eb, p1) =>
    match s1.readTile t (f.manAt base j) f.mb with
    | .error e => .error e
    | .ok (s2, mbs, p2) => .ok (s2, ofBytes eb, f.unpack mbs, p1 || p2)

/-- Results of `f 0` to `f (n - 1)` in turn, the state threaded through. -/
def gather {α : Type} (f : State → Nat → Except Stop (State × α)) : Nat → Nat → State → Except Stop (State × List α)
  | 0, _, s => .ok (s, [])
  | n + 1, i, s =>
    match f s i with
    | .error e => .error e
    | .ok (s1, a) =>
      match gather f n (i + 1) s1 with
      | .error e => .error e
      | .ok (s2, r) => .ok (s2, a :: r)

end Sys2Proof.Machine
end

