-- ==== Sys2Proof/Machine/Matrix.lean ====
section
/-!
DEFINITION. The matrix unit (06_matrix_accumulators.md R204-R229). The matrix slot table governs timing only (R209).
-/
namespace Sys2Proof.Machine

/-- A G-format instruction's word. -/
def gEnc (t : BitVec 5) (funct maj : Nat) (d a : BitVec 5) : Nat := rEnc t funct maj d a

/-- Cell `i` of an accumulator. -/
def VecCtx.cell (c : VecCtx) (a : BitVec 1) (i : Nat) : Nat := elemAt 32 (c.acc[a.toFin].toNat) i

/-- Row sum `r`. -/
def VecCtx.rowSum (c : VecCtx) (a : BitVec 1) (r : Nat) : Nat := elemAt 32 (c.rs[a.toFin].toNat) r

def VecCtx.accPoison (c : VecCtx) (a : BitVec 1) : Bool := bit c.accPois a.toNat

/-- An accumulator's cells, row sums and poison bit replaced, the cells' classes flagged with element index 32r + c
whatever the masks hold (R207). -/
def State.putAcc (s : State) (a : BitVec 1) (cells : List FpRes) (rows : List Nat) (psn : Bool) : State :=
  s.updVec fun c =>
    { c with acc := c.acc.set a.toFin (BitVec.ofNat 32768 (putElems 32 0 (cells.map fun (x : FpRes) => some { val := x.1 }))),
             rs := c.rs.set a.toFin (BitVec.ofNat 1024 (putElems 32 0 (rows.map fun (x : Nat) => some { val := x }))),
             accPois := setBit c.accPois a.toNat psn }.flags (cells.map fun (x : FpRes) => some { val := x.1, cls := x.2 })

/-- The checks common to the matrix instructions, and VL = 0 (R216). -/
def mtxBody (enc : Nat) (ok : Nat → Bool) (b : Body) : Body := needVec enc fun s =>
  if s.vec.bad || !ok s.vec.fmt then .error (.trap cILLEGAL (BitVec.ofNat 64 enc))
  else if s.vec.vl == 0 then .ok s.longDone
  else b s

def anyFmt (_ : Nat) : Bool := true

/-- The indexes of the 1,024 cells, row by row. -/
def cellIdx : List Nat := List.range 1024

/-- MZERO (R217). -/
def execMzero (c : BitVec 1) (s : State) : Res :=
  runBody s (mtxBody (gEnc 0 (c.toNat * 16) 0x14 0 0) anyFmt fun st =>
    .ok (st.putAcc c (List.replicate 1024 (0, 0)) (List.replicate 32 0) false).longDone)

/-- MINIT: column vector vs and row vector vt (R218). -/
def execMinit (t : BitVec 5) (c : BitVec 1) (rs : BitVec 5) (s : State) : Res :=
  runBody s (mtxBody (gEnc t (0x100 + c.toNat * 16) 0x14 0 rs) (fun f => f == fINT32 || f == fFP32) fun st =>
    let v := st.vec
    let cells := cellIdx.map fun i =>
      let x := elemAt 32 (v.reg rs) (i % 32)
      let y := elemAt 32 (v.reg t) (i / 32)
      if v.fmt = fINT32 then ((x + y) % 2 ^ 32, 0) else fpAdd fFP32 0 (originOf i st.cur.slot.val st.pcOff) false x y
    let psn := bit (v.poisReg rs) 0 || bit (v.poisReg t) 0
    .ok ((st.putAcc c cells (List.replicate 32 0) psn).notePoison psn).longDone)

/-! ### Panels (R210-R213) -/

/-- A panel address of `n` bytes: local or window form, within scratchpad. A far one raises ENGINE_FAULT 0x01 by R213
(DESIGN CHOICE beside 08_memories.md R256: notes/assumptions/65.md). -/
def State.panelAt (s : State) (a : Word) (n : Nat) : Except Stop (Nat × Nat) :=
  match addrForm a with
  | .bad => .error (.trap cADDRESS_FORM a)
  | .far _ => let f := engineFault 0x01 a.toNat; .error (.trap f.1 f.2)
  | .window idx off =>
    match s.windowTile s.cur.tile idx with
    | none => .error (.trap cCLUSTER_VIOLATION a)
    | some u => if 0xC0000 < off + n then .error (.trap cCLUSTER_VIOLATION a) else .ok (u, off)
  | .local off =>
    if 0xC0000 < off + n then
      let f := engineFault 0x01 (max off 0xC0000); .error (.trap f.1 f.2)
    else .ok (s.cur.tile, off)

/-- The strides' e-register checked (R210): WA and WB of 2 to 8, or both 0 for MMAB. -/
def stridesOk (q : Word) (blocks : Bool) : Except Stop Unit :=
  let wa := bits q 43 40
  let wb := bits q 47 44
  if bits q 63 48 ≠ 0 then let f := engineFault 0x07 q.toNat; .error (.trap f.1 f.2)
  else if (if blocks then wa = 0 ∧ wb = 0 else (2 ≤ wa ∧ wa ≤ 8) ∧ (2 ≤ wb ∧ wb ≤ 8)) then .ok ()
  else let f := engineFault 0x02 q.toNat; .error (.trap f.1 f.2)

/-- Address of row or column `r` of a panel. -/
def panelRow (base : Word) (stride r : Nat) : Word := base + BitVec.ofNat 64 (r * stride)

/-- The 32 rows of an MMA panel: `k` elements of width `w` each, raw, and whether a granule read is poisoned. All rows
are checked before any is read (R213). -/
def readPanel (base : Word) (stride w k : Nat) (signed : Bool) (s : State) :
    Except Stop (State × List (List Int) × Bool) :=
  let n := ceilDiv (k * w) 8
  match gather (fun st r => match st.panelAt (panelRow base stride r) n with
      | .ok p => .ok (st, p)
      | .error e => .error e) 32 0 s with
  | .error e => .error e
  | .ok (_, ps) =>
    match gather (fun st r =>
        let p := ps.getD r (0, 0)
        match st.readTile p.1 p.2 n with
        | .error e => .error e
        | .ok (st1, bs, psn) =>
          let v := ofBytes bs
          let xs := (List.range k).map fun i =>
            if signed then signExtend (elemAt w v i) w else (elemAt w v i : Int)
          .ok (st1, (xs, psn))) 32 0 s with
    | .error e => .error e
    | .ok (s1, rs) => .ok (s1, rs.map (·.1), rs.any (·.2))

/-- The exact sum of products of a row and a column. -/
def dot : List Int → List Int → Int
  | a :: as, b :: bs => a * b + dot as bs
  | _, _ => 0

/-- The checker over a matrix product, the array cycles counted (R209, R228, R229). -/
def mtxChecked (k wb : Nat) (s : State) : Except Stop State :=
  match s.checker 1024 1 with
  | .error e => .error e
  | .ok s1 =>
    let n := ceilDiv (k * wb) 16 + 8
    .ok (s1.updTile fun x => (x.perf 0x000B (some s.cur.slot) n).stripAdd s.cur.slot fun p => { p with matrix := p.matrix + n })

/-- MMA (R219). The A panel is read, and an uncorrectable error of it found, before the B panel's addresses are checked (DESIGN
CHOICE: notes/assumptions/65.md). -/
def execMma (t : BitVec 5) (e : BitVec 3) (c a b x : BitVec 1) (rs : BitVec 5) (s : State) : Res :=
  let enc := gEnc t (0x200 + e.toNat * 32 + c.toNat * 16 + a.toNat * 8 + b.toNat * 4 + x.toNat * 2) 0x14 0 rs
  runBody s (mtxBody enc anyFmt fun st =>
    let q := st.e e
    let k := st.vec.vl.toNat
    match stridesOk q false with
    | .error er => .error er
    | .ok _ =>
      match readPanel (st.g rs) (bits q 19 0) (bits q 43 40) k (a == 1) st with
      | .error er => .error er
      | .ok (s1, pa, p1) =>
        match readPanel (st.g t) (bits q 39 20) (bits q 47 44) k (b == 1) s1 with
        | .error er => .error er
        | .ok (s2, pb, p2) =>
          match mtxChecked k (bits q 47 44) s2 with
          | .error er => .error er
          | .ok s3 =>
            let v := st.vec
            let cells := cellIdx.map fun i =>
              let r := signExtend (v.cell c i) 32 + dot (pa.getD (i / 32) []) (pb.getD (i % 32) [])
              if x = 1 then
                let z := satInt r (-(2 ^ 31 : Nat)) ((2 ^ 31 : Nat) - 1)
                (wrapInt z.1 32, z.2)
              else (wrapInt r 32, 0)
            let rows := (List.range 32).map fun r =>
              wrapInt ((v.rowSum c r : Int) + (pa.getD r []).foldl (· + ·) 0) 32
            let psn := p1 || p2
            .ok ((((s3.crossed (st.g rs)).crossed (st.g t)).putAcc c cells rows (v.accPoison c || psn)).notePoison psn).longDone)

/-! ### MMAB (R212, R220; 02_number_formats.md R105) -/

/-- A row or column of a BFP panel: its tile, offset, address and bank format. -/
structure BlockRow where
  tile : Nat
  off : Nat
  addr : Word
  fmt : MemFmt
  deriving DecidableEq, Repr

/-- The rows of a BFP panel: each starts in a bank that holds a BFP format, all of one format and block length. -/
def blockRows (s : State) (base : Word) (stride : Nat) : Except Stop (List BlockRow) :=
  let bad := fun (a : Word) => let f := engineFault 0x03 a.toNat; (Except.error (.trap f.1 f.2) : Except Stop (State × BlockRow))
  let first := match s.panelAt base 1 with
    | .ok (u, off) => (s.tile u).bankFmt off
    | .error _ => none
  let row := fun (r : Nat) =>
    let a := panelRow base stride r
    match s.panelAt a 1 with
    | .error e => .error e
    | .ok (u, off) =>
      match (s.tile u).bankFmt off, first with
      | some f, some h =>
        if f.bfp ∧ f.fmt = h.fmt ∧ f.blk = h.blk then .ok (s, { tile := u, off := off, addr := a, fmt := f }) else bad a
      | _, _ => bad a
  (gather (fun _ r => row r) 32 0 s).map (·.2)

/-- The bytes, block boundaries and banks of a panel's rows of `n` blocks. -/
def rowsFit (s : State) (n : Nat) : List BlockRow → Except Stop Unit
  | [] => .ok ()
  | r :: l =>
    match s.panelAt r.addr (n * r.fmt.step) with
    | .error e => .error e
    | .ok _ =>
    if r.fmt.boundary r.off = false then let f := engineFault 0x05 r.addr.toNat; .error (.trap f.1 f.2)
    else if r.fmt.inBank r.off n = false then let f := engineFault 0x06 r.addr.toNat; .error (.trap f.1 f.2)
    else rowsFit s n l

/-- The blocks of every row: exponents and signed mantissas, with poison. -/
def readRows (rows : List BlockRow) (n : Nat) (s : State) : Except Stop (State × List (List (Nat × List Int)) × Bool) :=
  match gather (fun st r =>
      match rows[r]? with
      | none => .ok (st, [])
      | some x => gather (fun st' j => match st'.readBlock x.fmt x.tile x.off j with
          | .error e => .error e
          | .ok (st2, E, ms, p) => .ok (st2, (E, ms.map fun m => signExtend m x.fmt.w, p))) n 0 st) rows.length 0 s with
  | .error e => .error e
  | .ok (s1, l) => .ok (s1, l.map fun r => r.map fun b => (b.1, b.2.1), l.any fun r => r.any fun b => b.2.2)

/-- The K-block steps of one cell (R105). -/
def blockSteps (wa wb origin : Nat) : FpRes → List (Nat × List Int) → List (Nat × List Int) → FpRes
  | acc, (ea, ma) :: ra, (eb, mb) :: rb =>
    let p : FpRes :=
      if ea = 255 ∨ eb = 255 then (canonNan fFP32 origin, xINVALID)
      else if ea = 0 ∨ eb = 0 then (0, 0)
      else
        let v := dot ma mb
        roundFp fFP32 0 (decide (v < 0)) v.natAbs ((ea : Int) + eb - 254 - (wa - 1 : Nat) - (wb - 1 : Nat)) false
    let r := fpAdd fFP32 0 origin false acc.1 p.1
    blockSteps wa wb origin (r.1, acc.2 ||| p.2 ||| r.2) ra rb
  | acc, _, _ => acc

/-- MMAB (R220). The manual gives the reasons of R213 no order among themselves: reserved bits of the e-register come first,
then its strides, the first bytes and formats of A's rows and then of B's, K, and row by row the bytes, boundary and bank
(DESIGN CHOICE: notes/assumptions/52.md). -/
def execMmab (t : BitVec 5) (e : BitVec 3) (c : BitVec 1) (rs : BitVec 5) (s : State) : Res :=
  runBody s (mtxBody (gEnc t (0x300 + e.toNat * 32 + c.toNat * 16) 0x14 0 rs) anyFmt fun st =>
    let q := st.e e
    let k := st.vec.vl.toNat
    match stridesOk q true with
    | .error er => .error er
    | .ok _ =>
      match blockRows st (st.g rs) (bits q 19 0), blockRows st (st.g t) (bits q 39 20) with
      | .error er, _ => .error er
      | _, .error er => .error er
      | .ok ra, .ok rb =>
        let blk := match ra with
          | x :: _ => x.fmt.blk
          | [] => 8
        let wOf := fun (l : List BlockRow) => match l with
          | x :: _ => x.fmt.w
          | [] => 8
        match rb with
        | y :: _ =>
          if y.fmt.blk ≠ blk then let f := engineFault 0x03 y.addr.toNat; .error (.trap f.1 f.2)
          else if k % blk ≠ 0 then let f := engineFault 0x04 k; .error (.trap f.1 f.2)
          else
            let n := k / blk
            match rowsFit st n (ra ++ rb) with
            | .error er => .error er
            | .ok _ =>
              match readRows ra n st with
              | .error er => .error er
              | .ok (s1, pa, p1) =>
                match readRows rb n s1 with
                | .error er => .error er
                | .ok (s2, pb, p2) =>
                  match mtxChecked k (wOf rb) s2 with
                  | .error er => .error er
                  | .ok s3 =>
                    let v := st.vec
                    let cells := cellIdx.map fun i =>
                      blockSteps (wOf ra) (wOf rb) (originOf (i % 32) st.cur.slot.val st.pcOff) (v.cell c i, 0)
                        (pa.getD (i / 32) []) (pb.getD (i % 32) [])
                    let psn := p1 || p2
                    .ok ((((s3.crossed (st.g rs)).crossed (st.g t)).putAcc c cells ((List.range 32).map (v.rowSum c)) (v.accPoison c || psn)).notePoison psn).longDone
        | [] => .ok st.longDone)

/-! ### Row sums and drains (R221-R224) -/

/-- Elements of width `w` written to vd from element 0, all poisoned together with the accumulator. -/
def State.putDrain (s : State) (d : BitVec 5) (w : Nat) (vals : List FpRes) (psn : Bool) : State :=
  s.putVec d w (8192 / w) (vals.map fun v => some { val := v.1, cls := v.2, psn := psn })

/-- MROWSUM (R221). Whether a poisoned accumulator's row sums are poisoned is not stated: the result is unpoisoned and CIR
keeps its value (DESIGN CHOICE: notes/assumptions/50.md). -/
def execMrowsum (c : BitVec 1) (d : BitVec 5) (s : State) : Res :=
  runBody s (mtxBody (gEnc 0 (0x400 + c.toNat * 16) 0x14 d 0) anyFmt fun st =>
    .ok (st.putDrain d 32 ((List.range 32).map fun r => (st.vec.rowSum c r, 0)) false).longDone)

/-- MDRAIN to a register (R222). -/
def execMdrainReg (c : BitVec 1) (d rs : BitVec 5) (s : State) : Res :=
  runBody s (mtxBody (gEnc 0 (0x500 + c.toNat * 16) 0x14 d rs) anyFmt fun st =>
    let row := (st.g rs).toNat
    if row = 0 ∨ row = 8 ∨ row = 16 ∨ row = 24 then
      .ok (st.putDrain d 32 ((List.range 256).map fun i => (st.vec.cell c (32 * row + i), 0)) (st.vec.accPoison c)).longDone
    else let f := engineFault 0x08 row; .error (.trap f.1 f.2))

/-- A drain destination of `n` bytes: local, a multiple of 8, within scratchpad (R213, R222). -/
def drainAt (a : Word) (n : Nat) : Except Stop Nat :=
  match addrForm a with
  | .bad => .error (.trap cADDRESS_FORM a)
  | .local off =>
    if off % 8 ≠ 0 then .error (.trap cMISALIGN a)
    else if 0xC0000 < off + n then let f := engineFault 0x01 (max off 0xC0000); .error (.trap f.1 f.2)
    else .ok off
  | _ => let f := engineFault 0x01 a.toNat; .error (.trap f.1 f.2)

/-- A drain image of bytes written, its classes flagged, CIR set for a poisoned accumulator. -/
def State.putImage (s : State) (off : Nat) (bs : List Byte) (cells : List FpRes) (psn : Bool) : State :=
  (((s.slotWrite s.cur.tile s.cur.tile off bs psn).updVec fun c =>
    c.flags (cells.map fun (x : FpRes) => some { val := x.1, cls := x.2 })).notePoison psn).longDone

/-- MDRAIN to scratchpad (R222). -/
def execMdrainSpad (c : BitVec 1) (rs : BitVec 5) (s : State) : Res :=
  runBody s (mtxBody (gEnc 0 (0x501 + c.toNat * 16) 0x14 0 rs) anyFmt fun st =>
    match drainAt (st.g rs) 4096 with
    | .error er => .error er
    | .ok off => .ok (st.putImage off (toBytes 4096 (st.vec.acc[c.toFin]).toNat) [] (st.vec.accPoison c)))

/-- One requantised cell: its byte and classes (R224). Each clamp raises saturate and inexact (02_number_formats.md R77,
R92). -/
def requant (q : Word) (cell mul : Nat) : FpRes :=
  let cv := signExtend cell 32
  let m := signExtend mul 32
  let sh := bits q 5 0
  let zp := signExtend (bits q 63 32) 32
  let u := bit q 6
  let (x, c1) := satMulQ31 cv m
  let y := zp + roundShiftRne x sh
  let (z, c2) := if u then satInt y 0 255 else satInt y (-128) 127
  let exact : Bool := decide ((z - zp) * (2 ^ (31 + sh) : Nat) = cv * m)
  let clamped : Bool := decide (c1 ≠ 0 ∨ c2 ≠ 0)
  (wrapInt z 8, (if clamped then xSATURATE else 0) + (if exact && !clamped then 0 else xINEXACT))

/-- The 1,024 requantised cells, the parameters checked, before a destination's checks (DESIGN CHOICE:
notes/assumptions/52.md). -/
def requantAll (s : State) (q : Word) (c : BitVec 1) (t : BitVec 5) : Except Stop (List FpRes) :=
  if bits q 31 7 ≠ 0 then let f := engineFault 0x07 q.toNat; .error (.trap f.1 f.2)
  else .ok (cellIdx.map fun i => requant q (s.vec.cell c i) (elemAt 32 (s.vec.reg t) (i % 32)))

/-- MDRAINQ to a register (R224): a poisoned multiplier group poisons the result as R182 states. -/
def execMdrainqReg (t : BitVec 5) (e : BitVec 3) (c : BitVec 1) (d : BitVec 5) (s : State) : Res :=
  runBody s (mtxBody (gEnc t (0x600 + e.toNat * 32 + c.toNat * 16) 0x14 d 0) anyFmt fun st =>
    match requantAll st (st.e e) c t with
    | .error er => .error er
    | .ok cs => .ok (st.putDrain d 8 cs (st.vec.accPoison c || bit (st.vec.poisReg t) 0)).longDone)

/-- MDRAINQ to scratchpad (R224). -/
def execMdrainqSpad (t : BitVec 5) (e : BitVec 3) (c : BitVec 1) (rs : BitVec 5) (s : State) : Res :=
  runBody s (mtxBody (gEnc t (0x601 + e.toNat * 32 + c.toNat * 16) 0x14 0 rs) anyFmt fun st =>
    match requantAll st (st.e e) c t with
    | .error er => .error er
    | .ok cs =>
      match drainAt (st.g rs) 1024 with
      | .error er => .error er
      | .ok off => .ok (st.putImage off (cs.map fun x => BitVec.ofNat 8 x.1) cs
          (st.vec.accPoison c || bit (st.vec.poisReg t) 0)))

end Sys2Proof.Machine
end

