-- ==== Sys2Proof/Machine/Control.lean ====
section
/-!
DEFINITION. The control registers (07_control_registers.md R232-R237): reading, each register's own write rule, and the
CTL instructions; the event rows that write one register.
-/
namespace Sys2Proof.Machine

/-! ### Write rules -/

/-- A register of a slot's context written. -/
def State.onSlot (s : State) (t : Nat) (k : Fin 8) (f : Slot → Slot) : State := s.modSlot t k f

/-- A register of a vector slot's context written; slots 2 to 7 have none (R232). -/
def State.onVec (s : State) (t : Nat) (k : Fin 8) (f : VecCtx → VecCtx) : State :=
  if k.val < 2 then s.modTile t fun x => x.modVec k f else s

/-- VT: the rule of SETVT, whatever VT.BAD holds (05_vector_registers.md R175, R186). -/
def State.writeVt (s : State) (t : Nat) (k : Fin 8) (q : Word) : State := s.onVec t k fun c => c.setVt q

/-- VL: the grant rule; while VT.BAD = 1 the write is illegal and changes nothing (R175, R184). -/
def State.writeVl (s : State) (t : Nat) (k : Fin 8) (q : Word) : State :=
  s.onVec t k fun c => if c.bad then c else c.setVl q

/-- XCLASS: XM is cleared (R176). -/
def State.writeXclass (s : State) (t : Nat) (k : Fin 8) (q : Word) : State := s.onVec t k fun c => c.setXclass q

/-- XM [63:0] (R176). -/
def State.writeXm (s : State) (t : Nat) (k : Fin 8) (q : Word) : State :=
  s.onVec t k fun c => { c with xm := setBits c.xm 63 0 q.toNat }

/-- FMASK [63:0] (R176). -/
def State.writeFmask (s : State) (t : Nat) (k : Fin 8) (q : Word) : State :=
  s.onVec t k fun c => { c with fmask := setBits c.fmask 63 0 q.toNat }

/-- STATUS by a writer at level `prv` (R236). -/
def State.writeStatusReg (s : State) (t : Nat) (k : Fin 8) (q : Word) (prv : Nat) : State :=
  s.onSlot t k fun x => { x with status := writeStatus x.status q prv }

/-- MSLOT.n: 0b11 leaves it unchanged (06_matrix_accumulators.md R208). -/
def State.writeMslot (s : State) (t : Nat) (n : Fin 16) (q : Word) : State :=
  s.modTile t fun x => if bits q 1 0 = 3 then x else { x with mslot := x.mslot.set n (q.setWidth 2) }

/-- BFMT.n: TYP = 1 with a reserved format leaves it unchanged (08_memories.md R262). -/
def State.writeBfmt (s : State) (t : Nat) (n : Fin 16) (q : Word) : State :=
  s.modTile t fun x =>
    if bit q 7 = true ∧ fmtKnown (bits q 4 0) = false then x else { x with bfmt := x.bfmt.set n (q &&& 0xF9F) }

/-- Event codes of R463. -/
def eventKnown (c : Nat) : Bool := decide (1 ≤ c) && decide (c ≤ 0x16)

/-- PERFSEL.n: a reserved event code leaves it unchanged (14_counters_and_records.md R462). -/
def State.writePerfsel (s : State) (t : Nat) (n : Fin 8) (q : Word) : State :=
  s.modTile t fun x => if eventKnown (bits q 15 0) then { x with perfNew := x.perfNew ++ [(n.val, q &&& 0x1FFFFFF)] } else x

/-- PROBE_DELAY: raised to at least 256 (10_channels.md R344). -/
def State.writeProbeDelay (s : State) (t : Nat) (q : Word) : State :=
  s.modTile t fun x => { x with probeDelay := BitVec.ofNat 32 (max 256 (bits q 31 0)) }

/-- DECODE_DEADLINE: raised to at least 256 (11_fragments_and_errands.md R368). -/
def State.writeDecDeadline (s : State) (t : Nat) (q : Word) : State :=
  s.modTile t fun x => { x with decDeadline := BitVec.ofNat 16 (max 256 (bits q 15 0)) }

/-- CRATE.n: 0 and 5 to 7 leave it unchanged (R368). -/
def State.writeCrate (s : State) (t : Nat) (n : Fin 4) (q : Word) : State :=
  s.modTile t fun x =>
    if 1 ≤ bits q 2 0 ∧ bits q 2 0 ≤ 4 then { x with crate := x.crate.set n (q.setWidth 3) } else x

/-- INJECT: a reserved KIND leaves it unchanged (R234). -/
def State.writeInject (s : State) (t : Nat) (q : Word) : State :=
  s.modTile t fun x => if bits q 3 0 ≤ 5 then { x with inject := q &&& 0xFFFFFF0F } else x

/-! ### The register space (R233) -/

/-- Lowest read and write levels of a register; none for a number the table lacks, none for an access no level makes. -/
def cregLevels (n : Nat) : Option (Nat × Option Nat) :=
  if n = 0x000 ∨ n = 0x006 then some (0, some 0)
  else if n = 0x001 ∨ n = 0x002 ∨ n = 0x003 then some (0, some 1)
  else if n = 0x004 ∨ n = 0x005 then some (1, some 1)
  else if 0x010 ≤ n ∧ n ≤ 0x014 then some (0, some 0)
  else if n = 0x020 ∨ n = 0x021 then some (0, none)
  else if n = 0x022 ∨ n = 0x023 then some (0, some 1)
  else if n = 0x030 ∨ n = 0x031 ∨ n = 0x032 then some (0, some 2)
  else if n = 0x033 ∨ n = 0x034 then some (0, none)
  else if n = 0x035 then some (0, some 1)
  else if 0x040 ≤ n ∧ n ≤ 0x043 then some (0, some 2)
  else if 0x050 ≤ n ∧ n ≤ 0x05F then some (0, some 0)
  else if 0x060 ≤ n ∧ n ≤ 0x06F then some (0, some 1)
  else if 0x070 ≤ n ∧ n ≤ 0x07F then some (0, some 1)
  else if n = 0x080 then some (0, some 1)
  else if n = 0x090 ∨ n = 0x091 ∨ n = 0x092 then some (0, some 2)
  else if n = 0x0A0 then some (1, some 1)
  else none

/-- VL, VT, XCLASS, XM and FMASK (R232). -/
def isVecReg (n : Nat) : Bool := decide (0x010 ≤ n) && decide (n ≤ 0x014)

/-- A control register's value for slot `k` of tile `t` (R233-R235). -/
def State.creg (s : State) (t : Nat) (k : Fin 8) (n : Nat) : Word :=
  let x := s.slot t k
  let y := s.tile t
  let c := y.vecs[vecIdx k]
  if n = 0x000 then x.status
  else if n = 0x001 then x.cause
  else if n = 0x002 then x.epc
  else if n = 0x003 then x.eval
  else if n = 0x004 then x.tvec
  else if n = 0x005 then x.scratch
  else if n = 0x006 then x.cir
  else if n = 0x010 then c.xclass.setWidth 64
  else if n = 0x011 then c.xm.setWidth 64
  else if n = 0x012 then c.fmask.setWidth 64
  else if n = 0x013 then c.vl.setWidth 64
  else if n = 0x014 then c.vt.setWidth 64
  else if n = 0x020 then BitVec.ofNat 64 (s.cycle t)
  else if n = 0x021 then BitVec.ofNat 64 s.time
  else if n = 0x022 then x.wdog
  else if n = 0x023 then x.wdlim
  else if n = 0x030 then x.pid.setWidth 64
  else if n = 0x031 then x.netid.setWidth 64
  else if n = 0x032 then x.tenant.setWidth 64
  else if n = 0x033 then BitVec.ofNat 64 k.val
  else if n = 0x034 then y.tileId.setWidth 64
  else if n = 0x035 then x.prio.setWidth 64
  else if 0x040 ≤ n ∧ n ≤ 0x043 then (y.crate[Fin.ofNat 4 n]).setWidth 64
  else if 0x050 ≤ n ∧ n ≤ 0x05F then y.bfmt[Fin.ofNat 16 n]
  else if 0x060 ≤ n ∧ n ≤ 0x06F then (y.mslot[Fin.ofNat 16 n]).setWidth 64
  else if 0x070 ≤ n ∧ n ≤ 0x077 then y.perfsel[Fin.ofNat 8 n]
  else if 0x078 ≤ n ∧ n ≤ 0x07F then y.perfcnt[Fin.ofNat 8 n]
  else if n = 0x080 then y.trctl.setWidth 64
  else if n = 0x090 then y.probeDelay.setWidth 64
  else if n = 0x091 then y.decDeadline.setWidth 64
  else if n = 0x092 then y.retryLimit.setWidth 64
  else if n = 0x0A0 then y.inject
  else 0

/-- A register that has no write row of its own, written (R235, R234, R462, R467). -/
def State.writePlain (s : State) (t : Nat) (k : Fin 8) (n : Nat) (q : Word) : State :=
  if n = 0x001 then s.onSlot t k fun x => { x with cause := q &&& 0xFF }
  else if n = 0x002 then s.onSlot t k fun x => { x with epc := q }
  else if n = 0x003 then s.onSlot t k fun x => { x with eval := q }
  else if n = 0x004 then s.onSlot t k fun x => { x with tvec := q }
  else if n = 0x005 then s.onSlot t k fun x => { x with scratch := q }
  else if n = 0x006 then s.onSlot t k fun x => { x with cir := q &&& 0x0000FFFF00000001 }
  else if n = 0x022 then s.onSlot t k fun x => ({ x with wdog := q } : Slot).rearm
  else if n = 0x023 then s.onSlot t k fun x => ({ x with wdlim := q } : Slot).rearm
  else if n = 0x030 then s.onSlot t k fun x => { x with pid := q.setWidth 16 }
  else if n = 0x031 then s.onSlot t k fun x => { x with netid := q.setWidth 32 }
  else if n = 0x032 then s.onSlot t k fun x => { x with tenant := q.setWidth 10 }
  else if n = 0x035 then s.onSlot t k fun x => { x with prio := q.setWidth 2 }
  else if 0x078 ≤ n ∧ n ≤ 0x07F then s.modTile t fun x => { x with perfNew := x.perfNew ++ [(8 + (n - 0x078), q)] }
  else if n = 0x080 then s.modTile t fun x => { x with trctl := (q.setWidth 4 &&& 0xE) ||| (x.trctl &&& 1) }
  else if n = 0x092 then s.modTile t fun x => { x with retryLimit := q.setWidth 2 }
  else s

/-- A control register written by slot `k` at level `prv`, each through its own rule (R237). -/
def State.cregWrite (s : State) (t : Nat) (k : Fin 8) (prv n : Nat) (q : Word) : State :=
  if n = 0x000 then s.writeStatusReg t k q prv
  else if n = 0x010 then s.writeXclass t k q
  else if n = 0x011 then s.writeXm t k q
  else if n = 0x012 then s.writeFmask t k q
  else if n = 0x013 then s.writeVl t k q
  else if n = 0x014 then s.writeVt t k q
  else if 0x040 ≤ n ∧ n ≤ 0x043 then s.writeCrate t (Fin.ofNat 4 n) q
  else if 0x050 ≤ n ∧ n ≤ 0x05F then s.writeBfmt t (Fin.ofNat 16 n) q
  else if 0x060 ≤ n ∧ n ≤ 0x06F then s.writeMslot t (Fin.ofNat 16 n) q
  else if 0x070 ≤ n ∧ n ≤ 0x077 then s.writePerfsel t (Fin.ofNat 8 n) q
  else if n = 0x090 then s.writeProbeDelay t q
  else if n = 0x091 then s.writeDecDeadline t q
  else if n = 0x0A0 then s.writeInject t q
  else s.writePlain t k n q

/-! ### The CTL instructions (R237) -/

/-- The checks of a CTL access: R232, R184 for a write of VL, the read level, the write level. -/
def ctlCheck (s : State) (enc n : Nat) (rd wr : Bool) : Except Stop Unit :=
  let ill : Except Stop Unit := .error (.trap cILLEGAL (BitVec.ofNat 64 enc))
  let priv : Except Stop Unit := .error (.trap cPRIVILEGE (BitVec.ofNat 64 enc))
  match cregLevels n with
  | none => ill
  | some (r, w) =>
    if isVecReg n && decide (2 ≤ s.cur.slot.val) then ill
    else if wr && n == 0x013 && s.vec.bad then ill
    else if rd && decide (s.me.prv < r) then priv
    else if wr then
      match w with
      | none => priv
      | some l => if s.me.prv < l then priv else .ok ()
    else .ok ()

/-- A CTL instruction: `f` of the old value is written when `wr`, the old value goes to g d when `rd`. -/
def ctlBody (enc : Nat) (n : BitVec 12) (rd wr : Bool) (d : BitVec 5) (f : State → Word → Word) : Body := fun s =>
  match ctlCheck s enc n.toNat rd wr with
  | .error e => .error e
  | .ok _ =>
    let old := s.creg s.cur.tile s.cur.slot n.toNat
    let s1 := if wr then s.cregWrite s.cur.tile s.cur.slot s.me.prv n.toNat (f s old) else s
    .ok ((if rd then s1.setG d old else s1).adv 4)

/-- CTLR (R237). -/
def execCtlr (c : BitVec 12) (d : BitVec 5) (s : State) : Res :=
  runBody s (ctlBody (iEnc 0 (c.setWidth 13) 0x0B d 0) c true false d fun _ old => old)

/-- CTLW (R237). -/
def execCtlw (c : BitVec 12) (rs : BitVec 5) (s : State) : Res :=
  runBody s (ctlBody (iEnc 1 (c.setWidth 13) 0x0B 0 rs) c false true 0 fun st _ => st.g rs)

/-- CTLS (R237). -/
def execCtls (c : BitVec 12) (d rs : BitVec 5) (s : State) : Res :=
  runBody s (ctlBody (iEnc 2 (c.setWidth 13) 0x0B d rs) c true true d fun st old => old ||| st.g rs)

/-- CTLC (R237). -/
def execCtlc (c : BitVec 12) (d rs : BitVec 5) (s : State) : Res :=
  runBody s (ctlBody (iEnc 3 (c.setWidth 13) 0x0B d rs) c true true d fun st old => old &&& ~~~st.g rs)

/-! ### The write rows -/

/-- VT_WRITE (R186). -/
def execVtWrite (tile : Nat) (slot : Fin 8) (q : BitVec 64) (s : State) : Res := runEvent s fun st => st.writeVt tile slot q

/-- VL_WRITE (R175). -/
def execVlWrite (tile : Nat) (slot : Fin 8) (q : BitVec 64) (s : State) : Res := runEvent s fun st => st.writeVl tile slot q

/-- XCLASS_WRITE (R176). -/
def execXclassWrite (tile : Nat) (slot : Fin 8) (q : BitVec 64) (s : State) : Res :=
  runEvent s fun st => st.writeXclass tile slot q

/-- XM_WRITE (R176). -/
def execXmWrite (tile : Nat) (slot : Fin 8) (q : BitVec 64) (s : State) : Res := runEvent s fun st => st.writeXm tile slot q

/-- FMASK_WRITE (R176). -/
def execFmaskWrite (tile : Nat) (slot : Fin 8) (q : BitVec 64) (s : State) : Res :=
  runEvent s fun st => st.writeFmask tile slot q

/-- STATUS_WRITE, the writer at the slot's own level (R236). -/
def execStatusWrite (tile : Nat) (slot : Fin 8) (q : BitVec 64) (s : State) : Res :=
  runEvent s fun st => st.writeStatusReg tile slot q (st.slot tile slot).prv

/-- MSLOT_WRITE (R208). -/
def execMslotWrite (tile : Nat) (n : Fin 16) (q : BitVec 64) (s : State) : Res := runEvent s fun st => st.writeMslot tile n q

/-- BFMT_WRITE (R262, R264). -/
def execBfmtWrite (tile : Nat) (n : Fin 16) (q : BitVec 64) (s : State) : Res := runEvent s fun st => st.writeBfmt tile n q

/-- PERFSEL_WRITE (R462). -/
def execPerfselWrite (tile : Nat) (n : Fin 8) (q : BitVec 64) (s : State) : Res :=
  runEvent s fun st => st.writePerfsel tile n q

/-- PROBE_DELAY_WRITE (R344). -/
def execProbeDelayWrite (tile : Nat) (q : BitVec 64) (s : State) : Res := runEvent s fun st => st.writeProbeDelay tile q

/-- DECODE_DEADLINE_WRITE (R368). -/
def execDecodeDeadlineWrite (tile : Nat) (q : BitVec 64) (s : State) : Res :=
  runEvent s fun st => st.writeDecDeadline tile q

/-- CRATE_WRITE (R368). -/
def execCrateWrite (tile : Nat) (n : Fin 4) (q : BitVec 64) (s : State) : Res := runEvent s fun st => st.writeCrate tile n q

/-- INJECT_DROP_FRAGMENT: INJECT written with KIND 1 (R234). -/
def execInjectDropFragment (tile : Nat) (frag : BitVec 8) (s : State) : Res :=
  runEvent s fun st => st.writeInject tile (BitVec.ofNat 64 (1 + frag.toNat * 2 ^ 8))

/-- INJECT_HOLD_FRAGMENT: KIND 2 (R234). -/
def execInjectHoldFragment (tile : Nat) (frag : BitVec 8) (delay : BitVec 16) (s : State) : Res :=
  runEvent s fun st => st.writeInject tile (BitVec.ofNat 64 (2 + frag.toNat * 2 ^ 8 + delay.toNat * 2 ^ 16))

/-- INJECT_CHECKER_MISMATCH: KIND 3 (R234). -/
def execInjectCheckerMismatch (tile : Nat) (s : State) : Res := runEvent s fun st => st.writeInject tile 3

/-- INJECT_DOUBLE_MISMATCH: KIND 4 (R234). -/
def execInjectDoubleMismatch (tile : Nat) (s : State) : Res := runEvent s fun st => st.writeInject tile 4

/-- INJECT_POISON_GRANULE: KIND 5 (R234). -/
def execInjectPoisonGranule (tile : Nat) (s : State) : Res := runEvent s fun st => st.writeInject tile 5

/-- INJECT_HOLD_RELEASE: the held fragment is sent once its delay has passed (R234). -/
def execInjectHoldRelease (tile : Nat) (i : Nat) (s : State) : Res := runEvent s fun st =>
  match (st.tile tile).fab.injHeld[i]? with
  | some (f, due) =>
    if due ≤ st.units then
      let s1 := st.modFab ⟨.tile, tile⟩ fun x => { x with injHeld := listErase x.injHeld i }
      { s1 with wire := s1.wire ++ [f] }
    else st
  | none => st

/-- CONTROL_REGISTER_WRITE: a register with no row of its own, at the slot's level (R233). -/
def execControlRegisterWrite (tile : Nat) (slot : Fin 8) (num : BitVec 12) (q : BitVec 64) (s : State) : Res :=
  runEvent s fun st =>
    match cregLevels num.toNat with
    | some (_, some l) => if (st.slot tile slot).prv < l then st else st.writePlain tile slot num.toNat q
    | _ => st

/-- SLOT_IMAGE_WRITE: an aligned doubleword of a stopped slot's image (R249, R507). -/
def execSlotImageWrite (tile : Nat) (slot : Fin 8) (off : BitVec 10) (q : BitVec 64) (s : State) : Res :=
  runEvent s fun st =>
    if off.toNat % 8 = 0 ∧ (st.slot tile slot).run = .stopped then st.modSlot tile slot fun x => x.imageWrite off.toNat q
    else st

end Sys2Proof.Machine
end

