-- ==== Sys2Proof/Machine/System.lean ====
section
/-!
DEFINITION. TRAP, RETT, BKPT, CHKERR, ILLEGAL and FENCE (07_control_registers.md R242-R245; 09_memory_ordering.md
R313-R315), and the watchdog, timer and supervisor events (R241, R247, R248).
-/
namespace Sys2Proof.Machine

/-- TRAP: SYSCALL with the code in EVAL and EPC at the next instruction (R243). -/
def execTrap (n : BitVec 9) (s : State) : Res :=
  runBody s fun st => .ok (st.trapAt cSYSCALL (n.setWidth 64) (st.me.pc + 4))

/-- RETT: needs S; CheckTarget(EPC), then STATUS[8:0] := SAVED and the PC (R242). -/
def execRett (s : State) : Res :=
  runBody s (needPrv 0x8400AC00 1 fun st =>
    match st.myTile.checkTarget st.me.epc with
    | some (c, v) => .error (.trap c v)
    | none => .ok st.returnFromTrap)

/-- CHKERR: POISON with EVAL = CIR and EPC at the next instruction when PSN is set (R244). -/
def execChkerr (s : State) : Res :=
  runBody s fun st =>
    if bit st.me.cir 0 then .ok (st.trapAt cPOISON st.me.cir (st.me.pc + 4)) else .ok (st.adv 4)

/-- BKPT: BREAK with EPC at itself (R243). -/
def execBkpt (s : State) : Res := runBody s fun _ => .error (.trap cBREAK 0)

/-- An unassigned encoding: ILLEGAL with the encoding in EVAL (03_encoding.md R123). -/
def execIllegal (enc : BitVec 32) (s : State) : Res := runBody s fun _ => .error (.trap cILLEGAL (enc.setWidth 64))

/-- Kind bits of a FENCE that order earlier writes. -/
def fenceWrites (k : BitVec 4) : Bool := bit k 1 || bit k 0

/-- FENCE: an earlier write still to be performed elsewhere is a RUPD not applied or an errand without its REPLY; every
other access of the model is performed when its instruction completes. The fence waits for them when a kind bit orders
earlier writes (R314). -/
def execFence (p : BitVec 3) (k : BitVec 4) (s : State) : Res :=
  runBody s fun st =>
    if 4 < p.toNat then .error (.trap cILLEGAL
      (BitVec.ofNat 64 ((0x8000 + p.toNat * 0x40 + k.toNat * 4) * 65536 + 0xAC00)))
    else if fenceWrites k && !st.released then .error (.wait .issue)
    else .ok (st.adv 4)

/-! ### Pending events (R241) -/

/-- The slot can be interrupted: it runs and stands at an instruction boundary. -/
def Slot.atBoundary (x : Slot) : Bool := x.run == .running && x.between

/-- The supervisor slot takes events: IE = 1 and TD = 0 at an instruction boundary. -/
def Tile.takesEvents (x : Tile) : Bool :=
  let y := x.slots[x.supSlot]
  y.atBoundary && y.ie && !y.td

/-- STATUS of the supervisor slot. -/
def Tile.supStatus (x : Tile) : Word := x.slots[x.supSlot].status

/-- A bit of the supervisor slot's STATUS set. -/
def Tile.setPending (x : Tile) (i : Nat) : Tile := x.modSlot x.supSlot fun y => { y with status := setBit y.status i true }

/-- The lowest set bit of field [lo + 7 : lo]. -/
def lowestBit (w : Word) (lo : Nat) : Option Nat := (List.range 8).find? fun i => bit w (lo + i)

/-- An event taken: its pending bit cleared, then the trap with EPC at the next instruction (R241). -/
def State.takeEvent (s : State) (t : Nat) (i : Nat) (c : BitVec 8) (v : Word) : State :=
  let k := (s.tile t).supSlot
  let s1 := s.modSlot t k fun x => { x with status := setBit x.status i false }
  s1.takeTrap t k c v (s1.slot t k).pc

/-- WATCHDOG_EVENT: the lowest slot (R241). -/
def execWatchdogEvent (tile : Nat) (s : State) : Res := runEvent s fun st =>
  let x := st.tile tile
  if x.takesEvents then
    match lowestBit x.supStatus 40 with
    | some n => st.takeEvent tile (40 + n) cWATCHDOG (BitVec.ofNat 64 n)
    | none => st
  else st

/-- MIGRATE_EVENT, after WATCHDOG (R241). -/
def execMigrateEvent (tile : Nat) (s : State) : Res := runEvent s fun st =>
  let x := st.tile tile
  if x.takesEvents && (lowestBit x.supStatus 40).isNone && bit x.supStatus 49 then
    st.takeEvent tile 49 cMIGRATE (BitVec.ofNat 64 (x.voltaTarget % 65536))
  else st

/-- TIMER_EVENT, after WATCHDOG and MIGRATE (R241). -/
def execTimerEvent (tile : Nat) (s : State) : Res := runEvent s fun st =>
  let x := st.tile tile
  if x.takesEvents && (lowestBit x.supStatus 40).isNone && !bit x.supStatus 49 then
    match lowestBit x.supStatus 32 with
    | some n => st.takeEvent tile (32 + n) cTIMER (BitVec.ofNat 64 n)
    | none => st
  else st

/-- WAKE_EVENT, after every other: EVAL holds the most recent wake, and bit 63 if a merged wake found its FIFO full
(R241). -/
def execWakeEvent (tile : Nat) (s : State) : Res := runEvent s fun st =>
  let x := st.tile tile
  if x.takesEvents && (lowestBit x.supStatus 40).isNone && !bit x.supStatus 49 && (lowestBit x.supStatus 32).isNone
      && bit x.supStatus 48 then
    (st.takeEvent tile 48 cWAKE x.wakeEval).modTile tile fun y => { y with wakeEval := 0 }
  else st

/-- WATCHDOG_PASS: the slot stops as SLOTSTOP
does and WDP is set, once until WDOG or WDLIM is written so that it is not above (R247). A write that leaves WDOG above
WDLIM lets it pass at once (DESIGN CHOICE: notes/assumptions/63.md). -/
def execWatchdogPass (tile : Nat) (slot : Fin 8) (s : State) : Res := runEvent s fun st =>
  let x := st.slot tile slot
  if x.wdlim.toNat < x.wdog.toNat ∧ x.wdFired = false ∧ x.run ≠ .empty then
    let s1 := st.modSlot tile slot fun y =>
      ({ y with wdFired := true, run := if y.run = .running then .stopping else y.run } : Slot).tidyStop
    s1.modTile tile fun y => y.setPending (40 + slot.val)
  else st

/-- TIMER_EXPIRY: the timer disarms itself and sets TMP (R248). -/
def execTimerExpiry (tile : Nat) (slot : Fin 8) (s : State) : Res := runEvent s fun st =>
  match (st.tile tile).timers[slot] with
  | some dl =>
    if dl ≤ st.time then
      st.modTile tile fun x => ({ x with timers := x.timers.set slot none } : Tile).setPending (32 + slot.val)
    else st
  | none => st

end Sys2Proof.Machine
end

