-- ==== Sys2Proof/Machine/Sync.lean ====
section
/-!
DEFINITION. Sync words (14_counters_and_records.md R455-R460).
-/
namespace Sys2Proof.Machine

/-- What an update leaves (R456): COUNT, GEN, whether COUNT passed 2^32 - 1, generations advanced. -/
structure SyncRes where
  count : Nat
  gen : Nat
  ovf : Bool
  steps : Nat
  deriving DecidableEq, Repr

/-- The update of R456 over TARGET, COUNT, GEN and n. -/
def syncAdvance (target count gen n : Nat) : SyncRes :=
  let c := count + n
  if target = 0 then { count := c % 2 ^ 32, gen := gen, ovf := decide (2 ^ 32 ≤ c), steps := 0 }
  else
    let k := c / target
    let c1 := c - k * target
    { count := c1 % 2 ^ 32, gen := (gen + k) % 2 ^ 32, ovf := decide (2 ^ 32 ≤ c1), steps := k }

/-- Whether generation `gen` has reached the awaited one (R458). -/
def genReached (gen want : Nat) : Bool := decide ((gen + 2 ^ 32 - want % 2 ^ 32) % 2 ^ 32 < 2 ^ 31)

/-- A slot waiting on the word at `off` woken when its generation has been reached (R456). -/
def Slot.syncWake (x : Slot) (off gen : Nat) : Slot :=
  match x.wait with
  | some { kind := .syncWord o g, .. } => if o = off ∧ genReached gen g = true then { x with wait := none, pend := .woken } else x
  | _ => x

/-- One update of a sync word of a tile: n bytes added, the word advanced, waiters woken. With `set`, SWSET's effect
first: the target, and CLR (R456, R458). -/
def Tile.syncUpdate (x : Tile) (off n : Nat) (set : Option (Nat × Bool)) : Tile :=
  let m := x.mem
  let target := match set with
    | some (v, _) => v
    | none => Mem.load m off 4
  let clr := match set with
    | some (_, b) => b
    | none => false
  let r := syncAdvance target (if clr then 0 else Mem.load m (off + 4) 4) (Mem.load m (off + 8) 4) n
  let res := Mem.load m (off + 12) 4
  let last := if r.ovf then res / 2 * 2 + 1 else if clr then res / 2 * 2 else res
  let m1 := Mem.writeBytes m off (toBytes 4 target ++ toBytes 4 r.count ++ toBytes 4 r.gen ++ toBytes 4 last)
  let x1 := { x with mem := m1 }
  if r.steps = 0 then x1 else { x1 with slots := x1.slots.map fun y => y.syncWake off r.gen }

/-- AccessCheck(a, 16, scalar) with the limits of R459. -/
def State.syncCheck (s : State) (okWin : Bool) (a : Word) : Except Stop (Nat × Nat) :=
  match s.accessCheck s.cur.tile true okWin false 16 (fun off => if off < 0xD0000 then .ok () else .error (cADDRESS_FORM, a))
      a 16 with
  | .ok (.tile t off) => .ok (t, off)
  | .ok (.far _) => .error (.trap cADDRESS_FORM a)
  | .error (c, v) => .error (.trap c v)

/-- An update by an instruction: errors found, the update, INJECT KIND 5. -/
def State.syncBySlot (s : State) (t off n : Nat) (set : Option (Nat × Bool)) : Except Stop State :=
  match s.readTile t off 16 with
  | .error e => .error e
  | .ok (s1, _, _) => .ok ((s1.modTile t fun x => x.syncUpdate off n set).injectPoison s.cur.tile t off)

/-- SWSET (R458). -/
def execSwset (t d rs : BitVec 5) (s : State) : Res :=
  runBody s fun st =>
    match st.syncCheck true (st.g rs) with
    | .error e => .error e
    | .ok (u, off) =>
      match (st.crossed (st.g rs)).syncBySlot u off 0 (some (bits (st.g t) 31 0, bit (st.g t) 32)) with
      | .error e => .error e
      | .ok s1 => .ok ((s1.setG d (BitVec.ofNat 64 (Mem.load (s1.tile u).mem (off + 8) 4))).adv 4)

/-- SWADD, a release (R458, R460): it waits for the process's earlier writes once its address has passed its checks. -/
def execSwadd (t rs : BitVec 5) (s : State) : Res :=
  runBody s fun st =>
    match st.syncCheck true (st.g rs) with
    | .error e => .error e
    | .ok (u, off) =>
      if st.released = false then .error (.wait .issue) else
      match (st.crossed (st.g rs)).syncBySlot u off (bits (st.g t) 31 0) none with
      | .error e => .error e
      | .ok s1 => .ok (s1.adv 4)

/-- SWREAD: one access of 16 bytes (R458). -/
def execSwread (d rs : BitVec 5) (s : State) : Res :=
  runBody s fun st =>
    match st.syncCheck true (st.g rs) with
    | .error e => .error e
    | .ok (u, off) =>
      match (st.crossed (st.g rs)).readTile u off 16 with
      | .error e => .error e
      | .ok (s1, bs, psn) =>
        let gen := ofBytes ((bs.drop 8).take 4)
        let count := ofBytes ((bs.drop 4).take 4)
        .ok (((s1.notePoison psn).setG d (BitVec.ofNat 64 (gen * 2 ^ 32 + count))).adv 4)

/-- SWWAIT: waits until an update reaches the generation; one that holds at issue does not wait (R458, R456). -/
def execSwwait (t d rs : BitVec 5) (s : State) : Res :=
  runBody s fun st =>
    match st.syncCheck false (st.g rs) with
    | .error e => .error e
    | .ok (u, off) =>
      let want := bits (st.g t) 31 0
      let kind : WaitKind := .syncWord off want
      if st.me.pend ≠ .woken ∧ st.me.wait.map (·.kind) = some kind then .error (.wait kind)
      else match st.readTile u off 16 with
        | .error e => .error e
        | .ok (s1, bs, psn) =>
          let gen := ofBytes ((bs.drop 8).take 4)
          if st.me.pend = .woken ∨ genReached gen want = true then
            .ok ((((s1.notePoison psn).updMe fun x => { x with pend := .none }).setG d (BitVec.ofNat 64 gen)).adv 4)
          else .error (.wait kind)

end Sys2Proof.Machine
end

