-- ==== Sys2Proof/Machine/HostLink.lean ====
section
/-!
DEFINITION. The host ends of the supervisor channel and its return channel (10_channels.md R360, R361), the messages the
device sends (01_machine.md R61, R68, R71, R72), and ASSIST_REQUESTs.
-/
namespace Sys2Proof.Machine

/-- A field of host memory. -/
def State.hostWord (s : State) (a n : Nat) : Nat := Mem.load s.host a n

def State.hostStore (s : State) (a n v : Nat) : State := { s with host := Mem.store s.host a n v }

/-- Whether the return channel has a free slot (R361). -/
def State.hostRoom (s : State) : Bool := decide (s.mgr.sent < s.hostWord (s.mgr.rcAt.toNat + 8) 8 + 64)

/-- A message of the device: header of R61 and payload. -/
def hostMsg (kind tag tnt : Nat) (payload : List Byte) : List Byte :=
  toBytes 2 kind ++ toBytes 2 payload.length ++ toBytes 4 tag ++ toBytes 2 tnt ++ List.replicate 6 0 ++ payload

/-- A message written to its slot of the return channel, then SENT advanced. -/
def State.hostPut (s : State) (m : List Byte) : State :=
  let b := s.mgr.rcAt.toNat
  let n := s.mgr.sent
  let s1 := { s with host := Mem.writeBytes s.host (b + 0x40 + 512 * (n % 64)) (m ++ List.replicate (512 - m.length) 0) }
  (s1.hostStore b 8 (n + 1)).modMgr fun x => { x with sent := n + 1 }

/-- A message sent, or held in order while the return channel is full. -/
def State.hostSend (s : State) (kind tag tnt : Nat) (payload : List Byte) : State :=
  let m := hostMsg kind tag tnt payload
  if s.mgr.out = [] ∧ s.hostRoom = true then s.hostPut m else s.modMgr fun x => { x with out := x.out ++ [m] }

/-- ACK with a status, NETID and VALUE (R68). -/
def State.ack (s : State) (tag tnt status netid : Nat) (value : Nat) : State :=
  s.hostSend 0x8001 tag tnt (toBytes 2 status ++ toBytes 2 0 ++ toBytes 4 netid ++ toBytes 8 value)

/-- An ASSIST_REQUEST (R55, R72), whose tag the device chooses. -/
def State.askHost (s : State) (func tnt netid : Nat) (data : List Byte) (what : AssistFor) : State :=
  let t := s.mgr.nextTag
  let a : Assist := { tag := t, func := func, tnt := tnt, what := what }
  (s.modMgr fun x => { x with nextTag := t + 1, assists := x.assists ++ [a] }).hostSend 0x8004 t.toNat tnt
    (toBytes 4 func ++ toBytes 4 netid ++ data)

end Sys2Proof.Machine
end

