-- ==== Sys2Proof/Machine/Pages.lean ====
section
/-!
DEFINITION. Far memory: the page-table walk (13_system_tables.md R436-R439), the home station, the checks of
08_memories.md R268, and reads, writes and updates at a page's physical target (R269, R270, R277).
-/
namespace Sys2Proof.Machine

/-- A leaf entry (R437) with its level and the address it lies at. -/
structure Leaf where
  raw : Word
  level : Nat
  at' : Nat
  deriving DecidableEq, Repr

def Leaf.pa (l : Leaf) : Nat := bits l.raw 55 16 * 2 ^ 16
def Leaf.home (l : Leaf) : Nat := bits l.raw 14 12
def Leaf.tgt (l : Leaf) : Nat := bits l.raw 10 9
def Leaf.psn (l : Leaf) : Bool := bit l.raw 8
def Leaf.kind (l : Leaf) : Nat := bits l.raw 6 5
def Leaf.canWrite (l : Leaf) : Bool := bit l.raw 3
def Leaf.canRead (l : Leaf) : Bool := bit l.raw 2

/-- Bits of a page's offset at a level. -/
def pageBits (level : Nat) : Nat := if level = 2 then 30 else if level = 3 then 21 else 16

/-- First far address of the page at a level that holds `va`. -/
def pageBase (level va : Nat) : Nat := va / 2 ^ pageBits level * 2 ^ pageBits level

/-- Index of a level in a far address, and the entries of its tables (R436). -/
def levelIndex (va level : Nat) : Nat :=
  if level = 4 then va / 2 ^ 16 % 32 else va / 2 ^ (48 - 9 * level) % 512

/-- Whether a leaf entry is well formed at its level (R437-R439). -/
def leafOk (e : Word) (level : Nat) : Bool :=
  let l : Leaf := { raw := e, level := level, at' := 0 }
  let pa := l.pa
  bits e 63 56 == 0 && !bit e 15 && !bit e 11 && l.tgt != 3 && l.kind != 3 && decide (2 ≤ level) &&
    pa % 2 ^ pageBits level == 0 &&
    (match l.tgt with
      | 0 => decide (pa / 2 ^ 40 = 0) && decide (pa % 2 ^ 36 < 48 * 2 ^ 30) && l.home == pa / 2 ^ 36 / 2
      | 1 => true
      | _ => level == 4 && decide (pa / 2 ^ 36 = 0) && decide (pa / 2 ^ 32 % 16 ≤ 14) && l.home == pa / 2 ^ 16 % 65536 / 1024)

inductive Walk where
  | leaf (l : Leaf)
  | missing
  | malformed
  deriving DecidableEq, Repr

/-- The walk from a level's table, `n` levels still to go below it (R439). -/
def walkGo (m : Memory) (va : Nat) : Nat → Nat → Nat → Walk
  | n, level, table =>
    let a := table + 8 * levelIndex va level
    let e : Word := BitVec.ofNat 64 (Mem.load m a 8)
    if bit e 0 = false then .missing
    else if bit e 1 then (if leafOk e level then .leaf { raw := e, level := level, at' := a } else .malformed)
    else
      match n with
      | 0 => .malformed
      | k + 1 =>
        if bits e 63 56 ≠ 0 ∨ bits e 7 2 ≠ 0 then .malformed
        else if level + 1 ≤ 3 ∧ bits e 11 8 ≠ 0 then .malformed
        else walkGo m va k (level + 1) (bits e 55 8 * 2 ^ 8)

/-- Root table of a PID in a directory; none where its V is 0 (R436). -/
def rootOf (m : Memory) (ptdir pid : Nat) : Option Nat :=
  let d : Word := BitVec.ofNat 64 (Mem.load m (ptdir + 8 * pid) 8)
  if bit d 0 then some (bits d 55 12 * 2 ^ 12) else none

/-- Translation of a far virtual address for a tenant and a PID (R439). -/
def State.walk (s : State) (tnt pid va : Nat) : Walk :=
  match s.part tnt with
  | none => .missing
  | some p =>
    match rootOf s.dram p.ptdir pid with
    | none => .missing
    | some r => walkGo s.dram va 4 0 r

/-- The home station of a page (R438). -/
def Leaf.station (l : Leaf) (va : Nat) : Nat :=
  if l.tgt = 0 then 32 * l.home + 16 * (l.pa / 2 ^ 36 % 2) + l.pa / 2 ^ 16 % 16
  else 32 * l.home + va / 2 ^ 16 % 32

/-- Where an access to a page falls (R269). -/
inductive Target where
  | dram (pa : Nat)
  | host (pa : Nat)
  | spad (t off : Nat)
  deriving DecidableEq, Repr

def Leaf.target (l : Leaf) (va : Nat) : Target :=
  let o := va % 2 ^ pageBits l.level
  match l.tgt with
  | 0 => .dram (l.pa + o)
  | 1 => .host (l.pa + o)
  | _ => .spad (l.pa / 2 ^ 16 % 65536) (l.pa / 2 ^ 32 % 16 * 0xC000 + o)

/-- Statuses of R356, which name the causes FAR_NOT_PRESENT, FAR_PROTECT and REMOTE_VIOLATION. -/
def stNOT_PRESENT : Nat := 1
def stPROTECT : Nat := 2
def stREMOTE : Nat := 3
def stPOISON : Nat := 4

/-- The cause a status names. -/
def statusCause (st : Nat) : BitVec 8 := BitVec.ofNat 8 (st + 6)

/-- Checks 2 to 4 of R268 on a leaf; 0 when the access may be performed. -/
def State.leafCheck (s : State) (tnt va : Nat) (rd wr : Bool) (l : Leaf) : Nat :=
  let perm := (rd && !l.canRead) || (wr && !l.canWrite)
  match l.target va with
  | .spad t _ =>
    if (s.coord t).isSome then
      if (s.partOf t).map (·.tnt) ≠ some tnt then stREMOTE else if perm then stPROTECT else 0
    else if perm then stPROTECT
    else stREMOTE
  | _ => if perm then stPROTECT else 0

/-- A malformed entry's black-box entry (R439). -/
def State.noteMalformed (s : State) (st : Ep) (tnt pid va : Nat) (w : Walk) : State :=
  if w = .malformed then s.blackBox st 0x07 tnt (BitVec.ofNat 64 (2 ^ 63 + va)) (BitVec.ofNat 64 pid) else s

/-- A far access checked whole at one step: the leaf, or the status that ends it (R268). -/
def State.farCheck (s : State) (tnt pid va : Nat) (rd wr : Bool) : Except Nat Leaf :=
  match s.walk tnt pid va with
  | .leaf l => match s.leafCheck tnt va rd wr l with
    | 0 => .ok l
    | n => .error n
  | _ => .error stNOT_PRESENT

/-! ### Bytes at a target -/

/-- Granules of a byte range. -/
def granules (a n : Nat) : List Nat := (List.range ((a + n + 31) / 32 - a / 32)).map fun i => a / 32 + i

/-- Bytes of package DRAM; an uncorrectable error found becomes poison (R270). -/
def State.dramRead (s : State) (pa n : Nat) : State × List Byte × Bool :=
  let found := (granules pa n).filter s.dramErrs.contains
  let s1 := if found = [] then s else
    { s with dramErrs := s.dramErrs.filter fun g => !found.contains g, dramPoison := found.foldl setInsert s.dramPoison }
  (s1, Mem.readBytes s.dram pa n, (granules pa n).any s1.dramPoison.contains)

def State.dramWrite (s : State) (pa : Nat) (bs : List Byte) (psn : Bool) : State :=
  let n := bs.length
  let p := if psn then (granules pa n).foldl setInsert s.dramPoison
    else s.dramPoison.filter fun g => decide (32 * g < pa) || decide (pa + n < 32 * g + 32)
  { s with dram := Mem.writeBytes s.dram pa bs, dramPoison := p }

/-- EVAL of the SDC that an access to a target finds: an uncorrectable error in a bank with NPT = 1 (R266). -/
def State.targetSdc (s : State) (tg : Target) (n : Nat) : Option Word :=
  match tg with
  | .spad t off => match (s.tile t).findErrors off n with
    | .ok _ => none
    | .error e => some e
  | _ => none

/-- Bytes read at a target, with their poison; `flag` is the page's poison flag. -/
def State.targetRead (s : State) (tg : Target) (n : Nat) (flag : Bool) : State × List Byte × Bool :=
  match tg with
  | .dram pa => let (s1, bs, p) := s.dramRead pa n; (s1, bs, p || flag)
  | .host pa => (s, Mem.readBytes s.host pa n, flag)
  | .spad t off =>
    match (s.tile t).findErrors off n with
    | .ok x => (s.setTile t x, Mem.readBytes x.mem off n, x.poisonAt off n || flag)
    | .error _ => (s, Mem.readBytes (s.tile t).mem off n, true)

def State.targetWrite (s : State) (tg : Target) (bs : List Byte) (psn : Bool) : State :=
  match tg with
  | .dram pa => s.dramWrite pa bs psn
  | .host pa => { s with host := Mem.writeBytes s.host pa bs }
  | .spad t off => s.modTile t fun x => x.writeBytes off bs psn

/-! ### Updates (R277) -/

/-- The value an AMO or RUPD of `n` bytes leaves, by OP: the old value, the operand, the comparand. -/
def amoNew (op n old x c : Nat) : Nat :=
  let w := 8 * n
  match op with
  | 0 => (old + x) % 2 ^ w
  | 1 => x
  | 2 => if old = c then x else old
  | 3 => if signExtend old w ≤ signExtend x w then old else x
  | 4 => if signExtend old w < signExtend x w then x else old
  | 5 => min old x
  | 6 => max old x
  | 7 => old &&& x
  | 8 => old ||| x
  | 9 => old ^^^ x
  | _ => (fpAdd fFP32 0 0 false old x).1

/-- An update performed at a target in one step: the old value and its poison. -/
def State.targetAmo (s : State) (tg : Target) (op n x c : Nat) (flag : Bool) : State × Nat × Bool :=
  let (s1, bs, psn) := s.targetRead tg n flag
  let old := ofBytes bs
  (s1.targetWrite tg (toBytes n (amoNew op n old (x % 2 ^ (8 * n)) (c % 2 ^ (8 * n)))) false, old, psn)

/-! ### Far data of one whole access -/

/-- The bytes of a far range that lies on one page, read in one step, with the status that ends the access, or 0; EVAL of an SDC
that the read finds (R266). -/
def State.farRead (s : State) (tnt pid va n : Nat) : Except Word (State × Nat × List Byte × Bool) :=
  match s.farCheck tnt pid va true false with
  | .error st => .ok (s.noteMalformed (s.footOf s.cur.tile) tnt pid va (s.walk tnt pid va), st, [], false)
  | .ok l =>
    match s.targetSdc (l.target va) n with
    | some e => .error e
    | none => let (s1, bs, psn) := s.targetRead (l.target va) n l.psn; .ok (s1, 0, bs, psn)

def State.farWrite (s : State) (tnt pid va : Nat) (bs : List Byte) (psn : Bool) : State × Nat :=
  match s.farCheck tnt pid va false true with
  | .error st => (s.noteMalformed (s.footOf s.cur.tile) tnt pid va (s.walk tnt pid va), st)
  | .ok l => (s.targetWrite (l.target va) bs psn, 0)

end Sys2Proof.Machine
end

