-- ==== Sys2Proof/Machine/Far.lean ====
section
/-!
DEFINITION. LDF, STF, AMO and RUPD (08_memories.md R275-R279), their requests and replies on a slot's implicit server
channel (R271; 10_channels.md R355, R356), and their translation and performance at the home (R268; 13_system_tables.md
R440), also while a page migrates (09_memory_ordering.md R321, R322).
-/
namespace Sys2Proof.Machine

/-! ### Requests -/

/-- A request: who asked, the operation code, and its operands. OP 5 is the model's code for AMO and RUPD, whose format
the manual does not give (DESIGN CHOICE: notes/assumptions/16.md). -/
structure FarReq where
  tile : Nat
  slot : Fin 8
  pid : Nat
  tnt : Nat
  netid : Nat
  op : Nat
  len : Nat
  tag : Nat
  va : Nat
  aop : Nat
  rupd : Bool
  data : Word
  cmp : Word
  /-- The data are a poisoned element's. -/
  psn : Bool
  /-- The channel of a request on the manager's account for its spill (16_program_split_rejoin.md R480). -/
  spill : Option Nat
  deriving DecidableEq, Repr

/-- The channel of a spill request's stream. -/
def spillChan : Stream → Option Nat
  | .spill _ c => some c
  | _ => none

/-- A request read from its message, which keeps its source when a station forwards it (11_fragments_and_errands.md R394). -/
def FarReq.ofMsg (m : Msg) : FarReq :=
  let w := toWords m.payload
  let w0 := wordAt w 0
  let w2 := wordAt w 2
  { tile := m.hdr.src.num, spill := spillChan m.hdr.stream, psn := bit m.hdr.arg 40,
    slot := Fin.ofNat 8 m.hdr.slot, pid := m.hdr.pid, tnt := m.hdr.tnt, netid := m.hdr.netid,
    op := bits w0 7 0, len := bits w0 31 16, tag := bits w0 63 32, va := (wordAt w 1).toNat % 2 ^ 57,
    aop := bits w2 3 0, rupd := bit w2 8, data := if bits w0 7 0 = 5 then wordAt w 3 else wordAt w 4, cmp := wordAt w 4 }

/-- Access kind of R72: 0 read, 1 write, 2 read-modify-write. -/
def FarReq.access (r : FarReq) : Nat := if r.op = 5 then 2 else if r.op = 1 then 0 else 1

/-- The reply's header and data tokens (R356). -/
def replyWords (tag status len faddr : Nat) (data : List Word) : List Word :=
  BitVec.ofNat 64 (tag % 2 ^ 32 + status * 2 ^ 32 + len * 2 ^ 48) :: BitVec.ofNat 64 faddr :: data

/-- A reply on the slot's implicit reply channel. -/
def State.sendReply (s : State) (here : Ep) (r : FarReq) (status : Nat) (data : List Word) : State :=
  let fa := if 1 ≤ status ∧ status ≤ 3 then 2 ^ 63 + r.va else 0
  let words := ofWords (replyWords r.tag status r.len fa data)
  match r.spill with
  | some c => s.sendStream here ⟨.tile, r.tile⟩ r.slot.val r.tnt (.spill r.netid c) (r.netid * 2 ^ 24 + c, 104) words false
      r.pid r.netid
  | none => s.sendStream here ⟨.tile, r.tile⟩ r.slot.val r.tnt (.implicitRep r.tile r.slot.val) (8 * r.tile + r.slot.val, 101) words
      false r.pid r.netid

/-- A RUPD applied or discarded: nothing of it is outstanding any more at its slot (R278). -/
def State.rupdDone (s : State) (r : FarReq) : State :=
  s.modSlot r.tile r.slot fun x => ({ x with rupds := x.rupds.filter fun u => u.1 != r.tag } : Slot).tidyStop

/-- A request that failed: its status returned, or a RUPD discarded, counted and recorded (R278). -/
def State.farFail (s : State) (here : Ep) (r : FarReq) (status : Nat) : State :=
  if r.rupd then
    (((s.count here ctrDISCARD 1).blackBox here 0x04 r.tnt (BitVec.ofNat 64 (2 ^ 63 + r.va))
      ((statusCause status).setWidth 64)).rupdDone r)
  else s.sendReply here r status (if r.op = 1 then [0] else [])

/-- A request performed at its target, and answered. An uncorrectable error it finds where poison is not deferred ends its
process (08_memories.md R266), by a store as by a load or an AMO (DESIGN CHOICE: notes/assumptions/62.md); a RUPD has then
reached its home (R278). -/
def State.farPerform (s : State) (here : Ep) (r : FarReq) (tg : Target) (flag : Bool) : State :=
  match s.targetSdc tg r.len with
  | some e => (if r.rupd then s.rupdDone r else s).terminal r.tile r.slot cSDC e
  | none =>
  if r.op = 1 then
    let (s1, bs, psn) := s.targetRead tg r.len flag
    s1.sendReply here r (if psn then stPOISON else 0) [BitVec.ofNat 64 (ofBytes bs)]
  else if r.op = 5 then
    let (s1, old, psn) := s.targetAmo tg r.aop r.len r.data.toNat r.cmp.toNat flag
    if r.rupd then s1.rupdDone r else s1.sendReply here r (if psn then stPOISON else 0) [BitVec.ofNat 64 old]
  else (s.targetWrite tg (toBytes r.len r.data.toNat) r.psn).sendReply here r 0 []

/-! ### Stations (R440, R268, R321, R442) -/

/-- The migration of the page that holds an address. -/
def State.migOf (s : State) (tnt pid va : Nat) : Option Nat :=
  findIdx (fun g : Migration => g.tnt == tnt && g.pid == pid && g.va == pageBase g.level va) s.mgr.migs

/-- Whether a far address lies on a page that a migration has frozen (R321). -/
def State.pageFrozen (s : State) (tnt pid va : Nat) : Bool :=
  match s.migOf tnt pid va with
  | some i => s.mgr.migs[i]?.any fun g => g.state == .frozen
  | none => false

/-- A translation miss (01_machine.md R56 bit 0): the host is asked, or the access fails. -/
def State.farMiss (s : State) (here : Ep) (m : Msg) : State :=
  let r := FarReq.ofMsg m
  if bit (s.assistBits r.tnt) 0 then
    s.askHost 0 r.tnt r.netid (toBytes 2 r.pid ++ toBytes 6 r.access ++ toBytes 8 r.va)
      (.translation here m r.va r.pid r.access)
  else s.farFail here r stNOT_PRESENT

/-- The data token of XLATE's reply (19_program_remote_copy.md R487): the owner tile and offset of a scratchpad page,
otherwise the home station, and TGT. -/
def Leaf.token (l : Leaf) (va home : Nat) : Word :=
  match l.target va with
  | .spad t off => BitVec.ofNat 64 (off + t * 2 ^ 32 + l.tgt * 2 ^ 48)
  | _ => BitVec.ofNat 64 (home * 2 ^ 32 + l.tgt * 2 ^ 48)

/-- The executor's queue of an end. -/
def State.execQueue (s : State) (e : Ep) : List ExecEntry :=
  match e.kind with
  | .tile => (s.tile e.num).execQ
  | .edge => (s.edge e.num).execQ
  | _ => []

def State.setExecQueue (s : State) (e : Ep) (q : List ExecEntry) : State :=
  match e.kind with
  | .tile => s.modTile e.num fun x => { x with execQ := q }
  | .edge => s.modEdge e.num fun x => { x with execQ := q }
  | _ => s

/-- An entry put at the end of an executor's queue (11_fragments_and_errands.md R390). -/
def State.joinExec (s : State) (e : Ep) (x : ExecEntry) : State := s.setExecQueue e (s.execQueue e ++ [x])

/-- A request at the home of its page: the checks, then its performance, at the owner tile for a scratchpad page. An update
joins the executor's queue, unless it comes from its head (`run`). -/
def State.atHome (s : State) (here : Ep) (m : Msg) (l : Leaf) (run : Bool) : State :=
  let r := FarReq.ofMsg m
  match s.leafCheck r.tnt r.va (r.op == 1 || r.op == 5) (r.op != 1) l with
  | 0 =>
    if r.op = 4 then s.sendReply here r 0 [l.token r.va here.num]
    else match l.target r.va with
    | .spad t _ => s.forwardMsg here ⟨.tile, t⟩ m
    | tg => if r.op = 5 ∧ run = false then s.joinExec here (.far m) else s.farPerform here r tg l.psn
  | st => s.farFail here r st

/-- A migrating page's request kept for its new home (R321). -/
def State.queueMoved (s : State) (i : Nat) (m : Msg) : State :=
  s.modMgr fun x => match x.migs[i]? with
    | some g => { x with migs := listSet x.migs i { g with queue := g.queue ++ [m] } }
    | none => x

/-- What a station does with what reaches it for a far page (R440, R321, R442). -/
inductive Route where
  /-- The station is the page's home. -/
  | here (l : Leaf)
  /-- The page is frozen at its old home: migration `i` queues it. -/
  | frozen (i : Nat)
  | onward (home : Nat)
  | miss (w : Walk)
  deriving DecidableEq, Repr

/-- The route at station `n` of what is for a far address; `sent` marks what another station has sent on. A page is found at
its new home while its forwarding record stands, and a straggler that comes later to the old home is a miss (R442). -/
def State.routeAt (s : State) (n tnt pid va : Nat) (sent : Bool) : Route :=
  match s.walk tnt pid va with
  | .leaf l =>
    let home := l.station va
    match s.migOf tnt pid va with
    | some i =>
      if s.pageFrozen tnt pid va = true ∧ home = n then .frozen i
      else if home = n then .here l else .onward home
    | none => if home = n then .here l else if sent then .miss .missing else .onward home
  | w => .miss w

/-- A request taken by an edge station; `run` marks an update from the head of its queue. -/
def State.farProcess (s : State) (n : Nat) (m : Msg) (run : Bool) : State :=
  let here : Ep := ⟨.edge, n⟩
  let r := FarReq.ofMsg m
  match s.routeAt n r.tnt r.pid r.va m.hdr.via.isSome with
  | .here l => s.atHome here m l run
  | .frozen i => s.queueMoved i m
  | .onward home => s.forwardMsg here ⟨.edge, home⟩ m
  | .miss w => (s.noteMalformed here r.tnt r.pid r.va w).farMiss here m

/-- A request taken by the owner tile of a scratchpad page: an update joins the executor's queue; a read or write is
performed. -/
def State.farAtOwner (s : State) (t : Nat) (m : Msg) : State :=
  let r := FarReq.ofMsg m
  if r.op = 5 then s.joinExec ⟨.tile, t⟩ (.far m)
  else match s.walk r.tnt r.pid r.va with
    | .leaf l => match l.target r.va with
      | .spad u off => s.farPerform ⟨.tile, t⟩ r (.spad (if u = t then u else t) off) l.psn
      | _ => s.farFail ⟨.tile, t⟩ r stNOT_PRESENT
    | _ => s.farFail ⟨.tile, t⟩ r stNOT_PRESENT

/-- An update at the head of an executor's queue executed (R277): at an owner tile, or at a station, where the page may have
begun to move since it joined. -/
def State.farUpdate (s : State) (here : Ep) (m : Msg) : State :=
  let r := FarReq.ofMsg m
  let t := here.num
  if here.kind = .edge then s.farProcess t m true
  else match s.walk r.tnt r.pid r.va with
  | .leaf l => match l.target r.va with
    | .spad _ off => s.farPerform ⟨.tile, t⟩ r (.spad t off) l.psn
    | _ => s.farFail ⟨.tile, t⟩ r stNOT_PRESENT
  | _ => s.farFail ⟨.tile, t⟩ r stNOT_PRESENT

/-- Whether an access of a slot that the host's page may hold, be it of the largest size, awaits the host's translation at an end,
or a frame of the slot has its page and waits there for room. -/
def State.awaitsHost (s : State) (here : Ep) (h : MsgHdr) (va : Nat) : Bool :=
  (s.mgr.assists.any fun a => match a.what with
    | .translation e o w _ _ => e == here && o.hdr.src == h.src && o.hdr.slot == h.slot && pageBase 2 w == pageBase 2 va
    | _ => false) ||
  (here.kind == .edge && (s.edge here.num).resumed.any fun o => o.hdr.src == h.src && o.hdr.slot == h.slot)

/-- Whether a far address lies on a page that has moved and still carries its migrating flag (R321). -/
def State.pageSwitched (s : State) (tnt pid va : Nat) : Bool :=
  match s.migOf tnt pid va with
  | some i => s.mgr.migs[i]?.any fun g => g.state == .switched
  | none => false

/-- Frames in an executor's queue and the queue's capacity (10_channels.md R324). -/
def State.framesFull (s : State) (e : Ep) : Bool :=
  let n := ((s.execQueue e).filter fun x => match x with
    | .frame _ => true
    | _ => false).length
  match e.kind with
  | .tile => decide (16 ≤ n)
  | .edge => decide (64 ≤ n)
  | _ => false

/-- Whether a request must still wait at an end: an earlier one of its slot has not arrived, an earlier update of its
slot is in the executor's queue, an earlier one that may lie on the same page awaits its page there, or, at the new home of
a page switched, an update of the slot with a lower number has not been applied (R322). -/
def State.farHeld (s : State) (here : Ep) (m : Msg) : Bool :=
  let r := FarReq.ofMsg m
  s.earlierPending here m.hdr ||
  (r.op != 5 && (s.execQueue here).any fun e => match e with
    | .far o => (FarReq.ofMsg o).tile == r.tile && (FarReq.ofMsg o).slot == r.slot
    | _ => false) ||
  s.awaitsHost here m.hdr r.va ||
  (s.pageSwitched r.tnt r.pid r.va && here.kind == .edge && (s.slot r.tile r.slot).rupds.any fun u => decide (u.1 < r.tag))

/-- A decoded message taken from an end's inbox and acknowledged. -/
def State.takeMsg (s : State) (e : Ep) (i : Nat) (m : Msg) : State :=
  (s.modFab e fun f => { f with inbox := listErase f.inbox i }).sendDone e m.hdr 0 0

/-- A page's answer, where the TAG is that of its request (R487). -/
def PageAns.answered (p : PageAns) (tag status : Nat) (token : Word) : PageAns :=
  if p.tag == some tag then { p with tag := none, status := status, token := token } else p

/-- FAR_REPLY: the reply of the request a slot awaits, kept for the instruction to finish with; for a copy, one page's
answer (R277; 19_program_remote_copy.md R487). -/
def execFarReply (ep : Ep) (i : Nat) (s : State) : Res := runEvent s fun st =>
  match (st.fab ep).inbox[i]? with
  | some m =>
    if ep.kind = .tile ∧ m.hdr.stream = .implicitRep ep.num m.hdr.aslot then
      let w := toWords m.payload
      let tag := bits (wordAt w 0) 31 0
      let status := bits (wordAt w 0) 39 32
      (st.takeMsg ep i m).modSlot ep.num (Fin.ofNat 8 m.hdr.aslot) fun x =>
        match x.pend with
        | .far t =>
          if t % 2 ^ 32 = tag then { x with pend := .farDone status (wordAt w 2) (status == stPOISON), wait := none }
          else x
        | .elems p =>
          if p.tag = some tag then
            { x with pend := .elems { p with tag := none, ans := some (status, wordAt w 2, status == stPOISON) }, wait := none }
          else x
        | .copy c =>
          let pages := c.pages.map fun p => p.answered tag status (wordAt w 2)
          { x with pend := .copy { c with pages := pages }, wait := none }
        | _ => x
    else st
  | none => st

/-! ### The instructions -/

/-- A request's words: R355, then the operand words of an update. -/
def farWords (op n tag : Nat) (a w2 w3 : Word) (data : List Word) : List Word :=
  reqWords op 0 n tag a ++ [w2, w3] ++ data

/-- AccessCheck of a far instruction at the issuer (R277). -/
def farIssueCheck (s : State) (a : Word) (n : Nat) : Except Stop Nat :=
  match s.accessCheck s.cur.tile false false true n (fun _ => .ok ()) a n with
  | .error (c, v) => .error (.trap c v)
  | .ok (.far va) => .ok va
  | .ok (.tile _ _) => .error (.trap cADDRESS_FORM a)

/-- The memory a target lies in, as `Reach` numbers it, and its offset there. -/
def Target.place : Target → Nat × Nat
  | .dram pa => (0, pa)
  | .host pa => (1, pa)
  | .spad t off => (2 + t, off)

/-- What an access of `n` bytes at a far address may touch; a page that is missing may turn out to be any, an SO page too. -/
def State.reachOf (s : State) (va n : Nat) : Reach :=
  match s.walk s.me.tenant.toNat s.me.pid.toNat va with
  | .leaf l =>
    let (m, o) := (l.target va).place
    { mem := some m, lo := o, hi := o + n, via := some ⟨.edge, l.station va⟩, so := l.kind == 0 }
  | _ => { mem := none, lo := 0, hi := 0, via := none, so := true }

/-- Whether two accesses may touch a common byte. -/
def Reach.meets (a b : Reach) : Bool :=
  a.mem.isNone || b.mem.isNone || (a.mem == b.mem && decide (a.lo < b.hi) && decide (b.lo < a.hi))

/-- Whether an access must be performed before a later one is sent (09_memory_ordering.md R307, R312): both touch SO pages, or
they may touch a common byte and `apart` says that nothing on their way keeps their order. -/
def Reach.before (a b : Reach) (apart : Bool) : Bool := (a.so && b.so) || (a.meets b && apart)

/-- Whether a request must wait at issue: eight are outstanding (10_channels.md R324), or an earlier RUPD or errand frame of the
slot must be performed first. Requests to one home keep their order on the way there. -/
def farMustWait (s : State) (va n : Nat) : Bool :=
  let x := s.me
  let r := s.reachOf va n
  decide (8 ≤ x.rupds.length) || x.rupds.any (fun u => u.2.before r (u.2.via != r.via)) ||
    x.errOut.any fun o => o.reach.before r true

/-- The next TAG of the slot's implicit channel, and a request sent with it. -/
def State.askFar (s : State) (f : Nat → List Word) (psn : Bool) : State × Nat :=
  let t := s.me.farTag
  ((s.updMe fun x => { x with farTag := t + 1 }).sendFar s.cur.tile s.cur.slot (f t) psn, t)

/-- A far instruction that waits for its reply: `req` are its words by TAG, `fin` its effect with the value read. -/
def farBody (rs : BitVec 5) (n : Nat) (req : State → Nat → Word → List Word) (fin : State → Word → State) : Body := fun s =>
  let a := s.g rs
  match s.me.pend with
  | .farDone st v psn =>
    let s1 := s.updMe fun x => { x with pend := .none }
    if st = 0 ∨ st = stPOISON then .ok (((fin s1 v).notePoison psn).adv 4)
    else .error (.trapIn s1 (statusCause st) a)
  | .far _ => .error (.wait .far)
  | _ =>
    match farIssueCheck s a n with
    | .error e => .error e
    | .ok va =>
      if farMustWait s va n then .error (.wait .issue)
      else
        let (s1, t) := s.askFar (fun t => req s t a) false
        .error (.waitIn (s1.updMe fun x => { x with pend := .far t }) .far)

/-- LDF (R277). -/
def execLdf (w : BitVec 2) (x : BitVec 1) (d rs : BitVec 5) (s : State) : Res :=
  let n := 2 ^ w.toNat
  runBody s (farBody rs n (fun _ t a => farWords 0x01 n t a 0 0 []) fun st v =>
    st.setG d (if x = 1 then BitVec.ofNat 64 (v.toNat % 2 ^ (8 * n)) else sextWord v.toNat (8 * n)))

/-- STF (R277). -/
def execStf (t : BitVec 5) (w : BitVec 2) (rs : BitVec 5) (s : State) : Res :=
  let n := 2 ^ w.toNat
  runBody s (farBody rs n (fun st tag a => farWords 0x02 n tag a 0 0 [st.g t]) fun st _ => st)

/-- Word 2 of an update's request. -/
def amoWord (op : Nat) (rupd : Bool) : Word := BitVec.ofNat 64 (op + b2n rupd * 256)

/-- Bytes of an update: word or doubleword. -/
def amoSize (w : BitVec 1) : Nat := if w = 1 then 8 else 4

/-- AMO: the old value sign-extended to g d (R277). -/
def amoBody (op : Nat) (t : BitVec 5) (n : Nat) (d rs : BitVec 5) : Body :=
  farBody rs n (fun st tag a => farWords 0x05 n tag a (amoWord op false) (st.g t) [st.g d]) fun st v =>
    st.setG d (sextWord v.toNat (8 * n))

/-- RUPD: the update is sent and the slot goes on (R278). -/
def rupdBody (op : Nat) (t : BitVec 5) (n : Nat) (rs : BitVec 5) : Body := fun s =>
  let a := s.g rs
  match farIssueCheck s a n with
  | .error e => .error e
  | .ok va =>
    if farMustWait s va n then .error (.wait .issue)
    else
      let (s1, tag) := s.askFar (fun tag => farWords 0x05 n tag a (amoWord op true) (s.g t) [0]) false
      .ok ((s1.updMe fun x => { x with rupds := x.rupds ++ [(tag % 2 ^ 32, s.reachOf va n)] }).adv 4)

/-- AMO.ADD (R277). -/
def execAmoAdd (t : BitVec 5) (w : BitVec 1) (d rs : BitVec 5) (s : State) : Res :=
  runBody s (amoBody 0 t (amoSize w) d rs)

/-- AMO.SWAP (R277). -/
def execAmoSwap (t : BitVec 5) (w : BitVec 1) (d rs : BitVec 5) (s : State) : Res :=
  runBody s (amoBody 1 t (amoSize w) d rs)

/-- AMO.CAS (R277). -/
def execAmoCas (t : BitVec 5) (w : BitVec 1) (d rs : BitVec 5) (s : State) : Res :=
  runBody s (amoBody 2 t (amoSize w) d rs)

/-- AMO.MIN (R277). -/
def execAmoMin (t : BitVec 5) (w : BitVec 1) (d rs : BitVec 5) (s : State) : Res :=
  runBody s (amoBody 3 t (amoSize w) d rs)

/-- AMO.MAX (R277). -/
def execAmoMax (t : BitVec 5) (w : BitVec 1) (d rs : BitVec 5) (s : State) : Res :=
  runBody s (amoBody 4 t (amoSize w) d rs)

/-- AMO.MINU (R277). -/
def execAmoMinu (t : BitVec 5) (w : BitVec 1) (d rs : BitVec 5) (s : State) : Res :=
  runBody s (amoBody 5 t (amoSize w) d rs)

/-- AMO.MAXU (R277). -/
def execAmoMaxu (t : BitVec 5) (w : BitVec 1) (d rs : BitVec 5) (s : State) : Res :=
  runBody s (amoBody 6 t (amoSize w) d rs)

/-- AMO.AND (R277). -/
def execAmoAnd (t : BitVec 5) (w : BitVec 1) (d rs : BitVec 5) (s : State) : Res :=
  runBody s (amoBody 7 t (amoSize w) d rs)

/-- AMO.OR (R277). -/
def execAmoOr (t : BitVec 5) (w : BitVec 1) (d rs : BitVec 5) (s : State) : Res :=
  runBody s (amoBody 8 t (amoSize w) d rs)

/-- AMO.XOR (R277). -/
def execAmoXor (t : BitVec 5) (w : BitVec 1) (d rs : BitVec 5) (s : State) : Res :=
  runBody s (amoBody 9 t (amoSize w) d rs)

/-- AMO.FADD (R277). -/
def execAmoFadd (t : BitVec 5) (d rs : BitVec 5) (s : State) : Res :=
  runBody s (amoBody 10 t 4 d rs)

/-- RUPD.ADD (R278). -/
def execRupdAdd (t : BitVec 5) (w : BitVec 1) (rs : BitVec 5) (s : State) : Res :=
  runBody s (rupdBody 0 t (amoSize w) rs)

/-- RUPD.MIN (R278). -/
def execRupdMin (t : BitVec 5) (w : BitVec 1) (rs : BitVec 5) (s : State) : Res :=
  runBody s (rupdBody 3 t (amoSize w) rs)

/-- RUPD.MAX (R278). -/
def execRupdMax (t : BitVec 5) (w : BitVec 1) (rs : BitVec 5) (s : State) : Res :=
  runBody s (rupdBody 4 t (amoSize w) rs)

/-- RUPD.MINU (R278). -/
def execRupdMinu (t : BitVec 5) (w : BitVec 1) (rs : BitVec 5) (s : State) : Res :=
  runBody s (rupdBody 5 t (amoSize w) rs)

/-- RUPD.MAXU (R278). -/
def execRupdMaxu (t : BitVec 5) (w : BitVec 1) (rs : BitVec 5) (s : State) : Res :=
  runBody s (rupdBody 6 t (amoSize w) rs)

/-- RUPD.AND (R278). -/
def execRupdAnd (t : BitVec 5) (w : BitVec 1) (rs : BitVec 5) (s : State) : Res :=
  runBody s (rupdBody 7 t (amoSize w) rs)

/-- RUPD.OR (R278). -/
def execRupdOr (t : BitVec 5) (w : BitVec 1) (rs : BitVec 5) (s : State) : Res :=
  runBody s (rupdBody 8 t (amoSize w) rs)

/-- RUPD.XOR (R278). -/
def execRupdXor (t : BitVec 5) (w : BitVec 1) (rs : BitVec 5) (s : State) : Res :=
  runBody s (rupdBody 9 t (amoSize w) rs)

/-- RUPD.FADD (R278). -/
def execRupdFadd (t : BitVec 5) (rs : BitVec 5) (s : State) : Res :=
  runBody s (rupdBody 10 t 4 rs)

end Sys2Proof.Machine
end

