-- ==== Sys2Proof/Machine/VMem.lean ====
section
/-!
DEFINITION. Vector loads and stores (08_memories.md R282-R291) and partial completion (07_control_registers.md R246).
The orders OE and OV name (R288) hold of every step: elements are performed lowest first, whole, before the next
instruction.
-/
namespace Sys2Proof.Machine

/-! ### Partial completion (R246) -/

/-- The faults of a partial completion, lowest element first, after the elements that did not fault: FMASK names the
faulted elements and the trap is that of the lowest. With none, the instruction, over `n` element groups, is complete. -/
def State.partialDone (s : State) (n : Nat) (fs : List ElemFault) : Except Stop State :=
  match fs with
  | [] => .ok (s.memDone n)
  | f :: r =>
    let m := (f :: r).foldl (fun m x => m ||| 2 ^ x.elem) 0
    let low := r.foldl (fun l x => if x.elem < l.elem then x else l) f
    .error (.trapIn (s.updVec fun c => { c with fmask := BitVec.ofNat 4096 m }) low.cause low.eval)

/-! ### Writes of one instruction -/

/-- Bytes for one place, with their poison. -/
structure Piece where
  tile : Nat
  off : Nat
  bytes : List Byte
  psn : Bool
  deriving DecidableEq, Repr

/-- Adjacent pieces of one poison joined, so that a granule written whole is written at once (R265). The pieces of one instruction
or fragment count together where each begins as the one before it ends (DESIGN CHOICE: notes/assumptions/62.md). -/
def joinPieces : List Piece → List Piece
  | [] => []
  | p :: r =>
    match joinPieces r with
    | q :: r' =>
      if p.tile = q.tile ∧ p.off + p.bytes.length = q.off ∧ p.psn = q.psn then { p with bytes := p.bytes ++ q.bytes } :: r'
      else p :: q :: r'
    | [] => [p]

/-- Pieces written in order by the current slot. -/
def State.putPieces (s : State) (ps : List Piece) : State :=
  (joinPieces ps).foldl (fun s' p => s'.slotWrite s.cur.tile p.tile p.off p.bytes p.psn) s

/-! ### Checks (R283, R285, R287) -/

/-- Where element `i` of the unit form lies; for BFP its block (R284). -/
def unitOff (f : MemFmt) (i : Nat) : Nat := if f.bfp then i / f.blk * f.step else i * f.size

/-- A base resolved for its format: its place, or the far or window place it names (errors of the address are found by
the element checks). -/
def State.basePlace (s : State) (a : Word) : Option Place :=
  match addrForm a with
  | .local off => some (.tile s.cur.tile off)
  | .window idx off => (s.windowTile s.cur.tile idx).map fun u => .tile u off
  | .far va => some (.far va)
  | .bad => none

/-- Offset of a place within its tile. -/
def Place.off : Place → Nat
  | .tile _ o => o
  | .far va => va

/-- The BFP rules of R285 for one side with `vl` elements: 0x05, 0x06, 0x04. -/
def bfpRules (f : MemFmt) (p : Option Place) (a : Word) (vl : Nat) : Option MemFault :=
  if f.bfp then
    match p with
    | some q =>
      if f.typed && !f.boundary q.off then some (engineFault 0x05 a.toNat)
      else if f.typed && !f.inBank q.off (ceilDiv vl f.blk) then some (engineFault 0x06 a.toNat)
      else if vl % f.blk ≠ 0 then some (engineFault 0x04 vl)
      else none
    | none => none
  else none

/-- AccessCheck of a vector element or BFP block. -/
def State.vecCheck (s : State) (far : Bool) (align : Nat) (a : Word) (n : Nat) : Except MemFault Place :=
  s.accessCheck s.cur.tile true true far align (fun off => vectorRegion a off n) a n

/-- The byte ranges of element `i` of the unit form: for BFP its block, or, where the exponents lie apart, its exponent and its
mantissas (R284). -/
def unitRanges (f : MemFmt) (a : Word) (off i : Nat) : List (Word × Nat) :=
  if f.bfp then
    let j := i / f.blk
    if f.exr then [(a + BitVec.ofNat 64 (f.expAt off j - off), 1), (a + BitVec.ofNat 64 (f.manAt off j - off), f.mb)]
    else [(a + BitVec.ofNat 64 (j * f.step), f.mb + 1)]
  else [(a + BitVec.ofNat 64 (i * f.size), f.size)]

/-- The first failure of a list of ranges. -/
def State.rangesCheck (s : State) (far : Bool) (align : Nat) : List (Word × Nat) → Except MemFault Unit
  | [] => .ok ()
  | (a, n) :: r =>
    match s.vecCheck far align a n with
    | .ok _ => s.rangesCheck far align r
    | .error e => .error e

/-- The elements of a list checked, each on its ranges, up to the first failure. -/
def State.elemsCheck (s : State) (far : Bool) (align : Nat) (f : Nat → List (Word × Nat)) : List Nat → Except MemFault Unit
  | [] => .ok ()
  | i :: r =>
    match s.rangesCheck far align (f i) with
    | .ok _ => s.elemsCheck far align f r
    | .error e => .error e

/-- The active elements in ascending order. -/
def activeList (n act : Nat) : List Nat := (List.range n).filter fun i => act.testBit i

/-! ### Reading a unit run -/

/-- Elements of a tile's memory as a source: plain elements one by one, or whole blocks, those named by `want`. -/
def State.readRun (s : State) (f : MemFmt) (t : Nat) (addr : Nat → Nat × Nat) (base n : Nat) (want : Nat → Bool) :
    Except Stop (State × Src) :=
  if f.bfp then
    match gather (fun st j =>
        if (List.range f.blk).any fun i => want (j * f.blk + i) then
          match st.readBlock f t base j with
          | .error e => .error e
          | .ok (st1, E, ms, p) => .ok (st1, (E, ms, p))
        else .ok (st, (0, [], false))) (ceilDiv n f.blk) 0 s with
    | .error e => .error e
    | .ok (s1, bs) =>
      .ok (s1, { fmt := f.fmt, blk := f.blk,
                 elem := fun i => ((bs.getD (i / f.blk) (0, [], false)).2.1).getD (i % f.blk) 0,
                 exp := fun j => (bs.getD j (0, [], false)).1,
                 psn := fun i => (bs.getD (i / f.blk) (0, [], false)).2.2 })
  else
    match gather (fun st i =>
        if want i then
          match st.readTile (addr i).1 (addr i).2 f.size with
          | .error e => .error e
          | .ok (st1, b, p) => .ok (st1, (ofBytes b, p))
        else .ok (st, (0, false))) n 0 s with
    | .error e => .error e
    | .ok (s1, xs) =>
      .ok (s1, { fmt := f.fmt, blk := f.blk, elem := fun i => (xs.getD i (0, false)).1, exp := fun _ => 0,
                 psn := fun i => (xs.getD i (0, false)).2 })

/-- A load's elements converted and written to vd (R285, R286). -/
def State.putLoad (s : State) (d : BitVec 5) (act : Nat) (x : Src) : State :=
  let c := s.vec
  if isBfp c.fmt then s.putBlocks d (c.vl.toNat / c.blk) c.vl.toNat act (x.toBlock c.fmt c.blk c.rm s.origin)
  else s.putVec d (fmtWidth c.fmt) c.vlMax (mapActive c.vl.toNat act fun i => x.toPlain c.fmt c.rm (s.origin i) i)

/-! ### VLD, VLDS, VST, VSTS -/

/-- What a form gives: its element addresses, and whether it is the unit form. -/
structure VForm where
  addr : Nat → Word
  unit : Bool

/-- The checks of a unit or strided instruction (R287 steps 2 to 4): the tile and offset of the base, and MemFmt. A base
whose window names no tile fails only through an active element there. -/
def vmemCheck (s : State) (a : Word) (fm : VForm) (act : Nat) : Except Stop (Nat × Nat × MemFmt) :=
  let c := s.vec
  let vl := c.vl.toNat
  let bad : Except Stop (Nat × Nat × MemFmt) := .error (.trap cADDRESS_FORM a)
  match addrForm a with
  | .bad => bad
  | .far _ => bad
  | _ =>
    let p := s.basePlace a
    let f := match p with
      | some q => s.memFmt c.memFmt q
      | none => c.memFmt
    let rule := if f.bfp && !fm.unit then some (engineFault 0x09 a.toNat) else bfpRules f p a vl
    match rule with
    | some e => .error (.trap e.1 e.2)
    | none =>
      let off := match p with
        | some q => q.off
        | none => 0
      let ranges := fun i => if fm.unit then unitRanges f a off i else [(fm.addr i, f.size)]
      match s.elemsCheck false (if f.bfp then 1 else f.size) ranges (activeList vl act) with
      | .error (e, v) => .error (.trap e v)
      | .ok _ =>
        match p with
        | some (.tile t o) => .ok (t, o, f)
        | _ => .ok (s.cur.tile, 0, f)

/-- Tile and offset of an element address that has passed its check. -/
def State.elemPlace (s : State) (a : Word) : Nat × Nat :=
  match s.basePlace a with
  | some (.tile t o) => (t, o)
  | _ => (s.cur.tile, 0)

/-- A load of the unit or strided form. -/
def vloadBody (m : BitVec 3) (e : BitVec 1) (d : BitVec 5) (a : Word) (fm : VForm) : Body := fun s =>
  let act := s.vec.active m e
  match vmemCheck s a fm act with
  | .error er => .error er
  | .ok (t, off, f) =>
    match s.readRun f t (fun i => s.elemPlace (fm.addr i)) off s.vec.vl.toNat (fun i => act.testBit i) with
    | .error er => .error er
    | .ok (s1, x) => .ok (((s1.crossedAll ((activeList s.vec.vl.toNat act).map fm.addr)).putLoad d act x).memDone
        (s.vec.groups s.vec.vl.toNat (fmtWidth f.fmt)))

/-- The writes of a block: its exponent's and its mantissas', each an offset, bytes and poison. -/
def blockWrites (f : MemFmt) (base j E : Nat) (es : List ElemOut) : (Nat × List Byte × Bool) × (Nat × List Byte × Bool) :=
  let psn := es.any (·.psn)
  ((f.expAt base j, [BitVec.ofNat 8 E], psn), (f.manAt base j, f.pack (es.map (·.val)), psn))

/-- The writes of blocks in the order of their places: where the exponents lie apart, all of them and then the mantissas. -/
def inWriteOrder (f : MemFmt) (l : List ((Nat × List Byte × Bool) × (Nat × List Byte × Bool))) : List (Nat × List Byte × Bool) :=
  if f.exr then l.map (·.1) ++ l.map (·.2) else l.flatMap fun p => [p.1, p.2]

/-- What a store writes: pieces, and the element outputs whose classes are raised (R285). -/
def storePieces (s : State) (r : BitVec 5) (f : MemFmt) (act : Nat) (at' : Nat → Nat × Nat) (t base : Nat) :
    List Piece × List (Option ElemOut) :=
  let c := s.vec
  let x := c.src r c.fmt c.blk
  let n := c.vl.toNat
  if f.bfp then
    let bs := (List.range (n / f.blk)).map fun j =>
      if blockWhole n act f.blk j then some (x.toBlock f.fmt f.blk c.rm s.origin j) else none
    let writes := bs.zipIdx.filterMap fun b => b.1.map fun q => blockWrites f base b.2 q.1 q.2
    ((inWriteOrder f writes).map fun p => { tile := t, off := p.1, bytes := p.2.1, psn := p.2.2 },
     bs.flatMap fun b => match b with
      | some (_, es) => es.map some
      | none => List.replicate f.blk none)
  else
    let out := mapActive n act fun i => x.toPlain f.fmt c.rm (s.origin i) i
    (out.zipIdx.filterMap fun o => o.1.map fun v =>
      let p := at' o.2
      { tile := p.1, off := p.2, bytes := toBytes f.size v.val, psn := v.psn }, out)

/-- A store's classes, and CIR for poisoned sources. -/
def State.storeNotes (s : State) (out : List (Option ElemOut)) : State :=
  (s.updVec fun c => c.flags out).notePoison (anyPoison out)

/-- A store of the unit or strided form. -/
def vstoreBody (m : BitVec 3) (e : BitVec 1) (r : BitVec 5) (a : Word) (fm : VForm) : Body := fun s =>
  let act := s.vec.active m e
  match vmemCheck s a fm act with
  | .error er => .error er
  | .ok (t, off, f) =>
    let (ps, out) := storePieces s r f act (fun i => s.elemPlace (fm.addr i)) t off
    .ok ((((s.crossedAll ((activeList s.vec.vl.toNat act).map fm.addr)).putPieces ps).storeNotes out).memDone
      (s.vec.groups s.vec.vl.toNat (fmtWidth f.fmt)))

/-- An M-format word. -/
def mEnc (i : BitVec 5) (o v : BitVec 1) (m : BitVec 3) (e : BitVec 1) (k : BitVec 3) (form maj : Nat) (d a : BitVec 5) : Nat :=
  i.toNat * 2 ^ 27 + o.toNat * 2 ^ 26 + v.toNat * 2 ^ 25 + m.toNat * 2 ^ 22 + e.toNat * 2 ^ 21 + k.toNat * 2 ^ 18
    + form * 2 ^ 16 + 2 ^ 15 + maj * 2 ^ 10 + d.toNat * 2 ^ 5 + a.toNat

/-- The unit form from a base. -/
def unitForm (s : State) (a : Word) : VForm :=
  let f := match s.basePlace a with
    | some q => s.memFmt s.vec.memFmt q
    | none => s.vec.memFmt
  { addr := fun i => a + BitVec.ofNat 64 (unitOff f i), unit := true }

/-- The strided form (R284). -/
def stridedForm (s : State) (a : Word) (k : BitVec 3) : VForm :=
  { addr := fun i => a + BitVec.ofNat 64 i * s.e k, unit := false }

/-- VLD (R284, R286). -/
def execVld (o v : BitVec 1) (m : BitVec 3) (e : BitVec 1) (d rs : BitVec 5) (s : State) : Res :=
  runBody s (vecBody (mEnc 0 o v m e 0 0 0x12 d rs) (fun _ => true) true fun st =>
    vloadBody m e d (st.g rs) (unitForm st (st.g rs)) st)

/-- VLDS: not with a BFP VT.FMT (R283). -/
def execVlds (o v : BitVec 1) (m : BitVec 3) (e : BitVec 1) (k : BitVec 3) (d rs : BitVec 5) (s : State) : Res :=
  runBody s (vecBody (mEnc 0 o v m e k 1 0x12 d rs) nonBfp true fun st =>
    vloadBody m e d (st.g rs) (stridedForm st (st.g rs) k) st)

/-- VST. -/
def execVst (o v : BitVec 1) (m : BitVec 3) (e : BitVec 1) (d rs : BitVec 5) (s : State) : Res :=
  runBody s (vecBody (mEnc 0 o v m e 0 0 0x13 d rs) (fun _ => true) true fun st =>
    vstoreBody m e d (st.g rs) (unitForm st (st.g rs)) st)

/-- VSTS. -/
def execVsts (o v : BitVec 1) (m : BitVec 3) (e : BitVec 1) (k : BitVec 3) (d rs : BitVec 5) (s : State) : Res :=
  runBody s (vecBody (mEnc 0 o v m e k 1 0x13 d rs) nonBfp true fun st =>
    vstoreBody m e d (st.g rs) (stridedForm st (st.g rs) k) st)

/-! ### VLDX and VSTX -/

/-- The checks of an indexed instruction (R287 steps 1 to 3): MemFmt of its base. -/
def indexedCheck (s : State) (a : Word) : Except Stop MemFmt :=
  match addrForm a with
  | .bad => .error (.trap cADDRESS_FORM a)
  | _ =>
    let c := s.vec
    let f := match s.basePlace a with
      | some q => s.memFmt c.memFmt q
      | none => c.memFmt
    if f.bfp then let e := engineFault 0x09 a.toNat; .error (.trap e.1 e.2) else .ok f

/-- Address of element `i` of the indexed form (R284). -/
def indexedAddr (c : VecCtx) (a : Word) (i : BitVec 5) (size n : Nat) : Word :=
  let iw := if fmtWidth c.fmt = 8 then 16 else fmtWidth c.fmt
  a + BitVec.ofNat 64 (elemAt iw (c.reg i) n * size)

/-- The far pages of a list of addresses that are missing or malformed and not refused by the host. -/
def State.missingPages (s : State) (denied : List Nat) (vas : List Nat) : List Nat :=
  let x := s.me
  vas.filter fun va => !denied.contains (va / 2 ^ 16) && match s.walk x.tenant.toNat x.pid.toNat va with
    | .leaf _ => false
    | _ => true

/-- In host-assisted mode, the first missing page of a copy's source asked for before the copy goes on (01_machine.md R56
bit 0). The copy keeps the formats it read at issue (R264). -/
def State.askMissing (s : State) (c : CopyProg) (vas : List Nat) : Except Stop Unit :=
  let x := s.me
  let tnt := x.tenant.toNat
  if bit (s.assistBits tnt) 0 then
    match s.missingPages c.denied vas with
    | [] => .ok ()
    | va :: _ =>
      let s0 := s.noteMalformed (s.footOf s.cur.tile) tnt x.pid.toNat va (s.walk tnt x.pid.toNat va)
      let s1 := s0.askHost 0 tnt x.netid.toNat (toBytes 2 x.pid.toNat ++ toBytes 6 0 ++ toBytes 8 va)
        (.element s.cur.tile s.cur.slot va x.pid.toNat)
      .error (.waitIn (s1.updMe fun y => { y with pend := .copy { c with asked := true } }) .far)
  else .ok ()

/-- The far addresses among a list. -/
def farOf (l : List Word) : List Nat := l.filterMap fun a => match addrForm a with
  | .far va => some va
  | _ => none

/-- What a slot must do before the far source accesses of a copy: wait until its earlier RUPDs and errand frames are performed
(09_memory_ordering.md R307, R312), and while a page is frozen by a migration (R321). -/
def State.farReady (s : State) (c : CopyProg) (addrs : List Word) : Except Stop Unit :=
  match farOf addrs with
  | [] => .ok ()
  | vas =>
    if s.released = false then .error (.wait .issue)
    else if vas.any fun va => s.pageFrozen s.me.tenant.toNat s.me.pid.toNat va then .error (.wait .far)
    else s.askMissing c vas

/-! An indexed access performs its elements one after the other, lowest first, so that every order OE may ask for holds (R288). A
far element is a request on the slot's implicit channel (R271), awaited before the next element; what has been performed
stays performed (DESIGN CHOICE: notes/assumptions/10.md). -/

/-- What an indexed access does with an element: at a tile's memory, giving what it loads, and the request at a far address
with the poison of its data. -/
structure ElemOp where
  size : Nat
  addr : Nat → Word
  here : State → Nat → Nat → Nat → Except Stop (State × Nat × Bool)
  ask : Nat → Nat → Word → List Word × Bool

/-- The answer of the first element's far request taken. -/
def ElemProg.took (p : ElemProg) (i : Nat) (a : Word) (st : Nat) (v : Word) (psn : Bool) : ElemProg :=
  if st = 0 ∨ st = stPOISON then { p with ans := none, vals := p.vals ++ [(i, v.toNat, psn)] }
  else { p with ans := none, faults := p.faults ++ [{ elem := i, cause := statusCause st, eval := a }] }

/-- The elements of a list performed, from what the access has done so far, until one must wait. -/
def elemsGo (o : ElemOp) : List Nat → State → ElemProg → Except Stop (State × ElemProg)
  | [], s, p => .ok (s, { p with todo := [] })
  | i :: r, s, p =>
    let a := o.addr i
    match p.ans with
    | some (st, v, psn) => elemsGo o r s (p.took i a st v psn)
    | none =>
      let stay := { p with todo := i :: r }
      match s.vecCheck true o.size a o.size with
      | .error (c, v) => elemsGo o r s { p with faults := p.faults ++ [{ elem := i, cause := c, eval := v }] }
      | .ok (.tile t off) =>
        match o.here (s.crossed a) i t off with
        | .error e => .error e
        | .ok (s1, v, psn) => elemsGo o r s1 { p with vals := p.vals ++ [(i, v, psn)] }
      | .ok (.far va) =>
        if farMustWait s va o.size then .error (.waitIn (s.updMe fun x => { x with pend := .elems stay }) .issue)
        else
          let q := fun tag => o.ask i tag a
          let (s1, tag) := s.askFar (fun tag => (q tag).1) (q 0).2
          .error (.waitIn (s1.updMe fun x => { x with pend := .elems { stay with tag := some (tag % 2 ^ 32) } }) .far)

/-- An indexed access: its checks where it begins, then its elements, then `fin` with all that they gave. -/
def indexedBody (enc : Nat) (i : BitVec 5) (m : BitVec 3) (e : BitVec 1) (rs : BitVec 5)
    (op : State → MemFmt → (Nat → Word) → Nat → ElemOp) (fin : State → ElemProg → Except Stop State) : Body :=
  needVec enc fun s =>
  let c := s.vec
  let go := fun (p : ElemProg) =>
    match elemsGo (op s p.fmt (indexedAddr c (s.g rs) i p.fmt.size) (c.active m e)) p.todo s p with
    | .error er => .error er
    | .ok (s1, q) => fin (s1.updMe fun x => { x with pend := .none }) q
  match s.me.pend with
  | .elems p => if p.tag.isSome then .error (.wait .far) else go p
  | _ =>
    if c.bad || isBfp c.fmt || (fmtWidth c.fmt == 8 && decide (512 < c.vl.toNat)) then
      .error (.trap cILLEGAL (BitVec.ofNat 64 enc))
    else if c.vl == 0 then .ok (s.memDone 0)
    else match indexedCheck s (s.g rs) with
      | .error er => .error er
      | .ok f => go { fmt := f, todo := activeList c.vl.toNat (c.active m e), tag := none, ans := none, vals := [], faults := [] }

/-- The elements an indexed access has performed. -/
def ElemProg.done (p : ElemProg) : Nat := p.vals.foldl (fun k v => k ||| 2 ^ v.1) 0

/-- Poison of the index elements read. -/
def idxPoison (c : VecCtx) (i : BitVec 5) (n : Nat) : Bool :=
  elemPoison (c.poisReg i) (if fmtWidth c.fmt = 8 then 16 else fmtWidth c.fmt) n

/-- VLDX (R284, R286, R246). -/
def execVldx (i : BitVec 5) (o v : BitVec 1) (m : BitVec 3) (e : BitVec 1) (d rs : BitVec 5) (s : State) : Res :=
  runBody s (indexedBody (mEnc i o v m e 0 2 0x12 d rs) i m e rs
    (fun _ f addr _ =>
      { size := f.size, addr := addr,
        here := fun st _ t off => match st.readTile t off f.size with
          | .error er => .error er
          | .ok (st1, bs, psn) => .ok (st1, ofBytes bs, psn),
        ask := fun _ tag a => (farWords 0x01 f.size tag a 0 0 [], false) })
    fun st p =>
      let x : Src :=
        { fmt := p.fmt.fmt, blk := p.fmt.blk, elem := fun n => (mapGet (0, false) p.vals n).1, exp := fun _ => 0,
          psn := fun n => (mapGet (0, false) p.vals n).2 || idxPoison st.vec i n }
      (st.putLoad d p.done x).partialDone
        (st.vec.groups st.vec.vl.toNat (fmtWidth p.fmt.fmt)) p.faults)

/-- An element of VSTX as it is stored. -/
def vstxElem (s : State) (d i : BitVec 5) (f : MemFmt) (n : Nat) : ElemOut :=
  let c := s.vec
  let x := c.src d c.fmt c.blk
  { x.toPlain f.fmt c.rm (s.origin n) n with psn := x.psn n || idxPoison c i n }

/-- VSTX. -/
def execVstx (i : BitVec 5) (o v : BitVec 1) (m : BitVec 3) (e : BitVec 1) (d rs : BitVec 5) (s : State) : Res :=
  runBody s (indexedBody (mEnc i o v m e 0 2 0x13 d rs) i m e rs
    (fun st f addr _ =>
      { size := f.size, addr := addr,
        here := fun st1 n t off =>
          let w := vstxElem st d i f n
          .ok (st1.slotWrite st.cur.tile t off (toBytes f.size w.val) w.psn, 0, false),
        ask := fun n tag a =>
          let w := vstxElem st d i f n
          (farWords 0x02 f.size tag a 0 0 [BitVec.ofNat 64 (w.val % 2 ^ (8 * f.size))], w.psn) })
    fun st p =>
      (st.storeNotes (mapActive st.vec.vl.toNat p.done fun n => vstxElem st d i p.fmt n)).partialDone
        (st.vec.groups st.vec.vl.toNat (fmtWidth p.fmt.fmt)) p.faults)

end Sys2Proof.Machine
end

