-- ==== Sys2Proof/Machine/Copy.lean ====
section
/-!
DEFINITION. Copies (08_memories.md R292-R299): the checks, the transfer image, the messages (11_fragments_and_errands.md
R378), placement at a destination (R379-R381, R396, R397), and the rows COPY and PLACED.
-/
namespace Sys2Proof.Machine

/-! ### Refusals (R397) -/

/-- The words of R397's log entry for a refusal. -/
def refusalWords (src : Ep) (slot tnt off reason : Nat) : Word × Word :=
  (BitVec.ofNat 64 (src.num % 8192 + kindCode src.kind * 2 ^ 13 + slot * 2 ^ 16 + tnt * 2 ^ 22),
   BitVec.ofNat 64 (off % 2 ^ 20 + reason * 2 ^ 56))

/-- A refusal logged at the owner tile and written to the black box. -/
def State.logRefusal (s : State) (t : Nat) (src : Ep) (slot tnt off reason : Nat) : State :=
  let (w0, w1) := refusalWords src slot tnt off reason
  (s.modTile t fun x => { x with violCount := x.violCount + 1,
                                 viol := x.viol.set (Fin.ofNat 16 x.violCount.toNat) (w0, w1) }).blackBox
    ⟨.tile, t⟩ 0x06 tnt w0 w1

/-- Whether a reducing copy's operation suits a destination format (R296). -/
def ropFits (rop fmt : Nat) : Bool :=
  if rop = 0 ∨ rop = 3 ∨ rop = 4 then isInt fmt else if rop = 2 then fmt == fBF16 else fmt == fFP32

/-- dest := op(dest, x) of R296. -/
def ropApply (rop fmt old x : Nat) : Nat :=
  match rop with
  | 0 => (old + x) % 2 ^ fmtWidth fmt
  | 1 => (fpAdd fFP32 0 0 false old x).1
  | 2 => (fpAdd fBF16 0 0 false old x).1
  | 3 => if intVal fmt old ≤ intVal fmt x then old else x
  | 4 => if intVal fmt old < intVal fmt x then x else old
  | 5 => (fpMinMax fFP32 false old x).1
  | 6 => (fpMinMax fFP32 true old x).1
  | _ => x

/-- Why a destination refuses a strip of `n` elements at an offset (R396, R397). -/
def stripRefusal (f : MemFmt) (off n rop : Nat) (raw : Bool) : Option Nat :=
  if raw && f.bfp then some 0x09
  else if rop < 7 ∧ ropFits rop f.fmt = false then some 0x0B
  else if f.bfp then
    if f.typed && !f.boundary off then some 0x05
    else if f.typed && !f.inBank off (ceilDiv n f.blk) then some 0x06
    else if n % f.blk ≠ 0 then some 0x04
    else none
  else none

/-- The writes of a strip: `old` reads the destination for a reducing copy; `raw` writes the low bits of each element
(R296); conversion is RNE and raises nothing (R293). -/
def stripPieces (f : MemFmt) (base : Nat) (x : Src) (n act rop : Nat) (raw : Bool) (old : Nat → Nat) :
    List (Nat × List Byte × Bool) :=
  if f.bfp then
    inWriteOrder f ((List.range (n / f.blk)).filterMap fun j =>
      if blockWhole n act f.blk j then
        let (E, es) := x.toBlock f.fmt f.blk 0 (fun _ => 0) j
        some (blockWrites f base j E es)
      else none)
  else
    (activeList n act).map fun i =>
      let v := if raw then x.elem i % 2 ^ f.w else (x.toPlain f.fmt 0 0 i).val
      let a := base + i * f.size
      (a, toBytes f.size (if rop < 7 then ropApply rop f.fmt (old a) v else v), x.psn i)

def pieceBytes (ps : List (Nat × List Byte × Bool)) : Nat := ps.foldl (fun n p => n + p.2.1.length) 0

/-- The writes of a plain copy joined into runs; those of a reducing copy stay apart, for each element is combined by a write of
its own (R265, R390). -/
def writeRuns (rop : Nat) (ps : List Piece) : List Piece := if rop < 7 then ps else joinPieces ps

/-- What ends a placement without a write. -/
inductive PlaceStop where
  /-- Refused, for a reason of R397. -/
  | refuse (reason : Nat)
  /-- An element combination found an uncorrectable error where poison is not deferred: EVAL of the SDC (R266). -/
  | sdc (v : Word)
  deriving DecidableEq, Repr

/-- The errors found by the reads of a reducing copy's elements. -/
def Tile.combineReads (x : Tile) (base size n act : Nat) : Except Word Tile :=
  (activeList n act).foldl (fun r i => match r with
    | .error e => .error e
    | .ok y => y.findErrors (base + i * size) size) (.ok x)

/-- End of the last active element of a strip from an offset, its block's mantissas for BFP. -/
def MemFmt.stripEnd (f : MemFmt) (off n act : Nat) : Nat :=
  match (activeList n act).getLast? with
  | some i => if f.bfp then f.manAt off (i / f.blk) + f.mb else off + (i + 1) * f.size
  | none => off

/-- Placement of a strip at a tile, whose active elements must lie below code memory and, for a scratchpad page, within it
(`lim` its end, 0 for none; R396): the pieces written together, or why not. Each element a reducing copy combines is an entry
its executor runs (R390), counted as event 0x0010; it reads its destination as any access does (R265, R266). -/
def State.placeAt (s : State) (t off : Nat) (d : MemFmt) (x : Src) (n act rop : Nat) (raw : Bool) (lim : Nat) :
    Except PlaceStop (State × Nat) :=
  let f := ((s.tile t).bankFmt off).getD d
  let last := f.stripEnd off n act
  if 0xD0000 ≤ off ∨ 0xD0000 < last then .error (.refuse 0x21)
  else if lim ≠ 0 ∧ lim < last then .error (.refuse 0x20)
  else match stripRefusal f off n rop raw with
    | some r => .error (.refuse r)
    | none =>
      match (if rop < 7 then (s.tile t).combineReads off f.size n act else .ok (s.tile t)) with
      | .error e => .error (.sdc e)
      | .ok y =>
        let s0 := if rop < 7 then s.setTile t (y.perf 0x0010 none (activeList n act).length) else s
        let ps := stripPieces f off x n act rop raw fun a => Mem.load (s.tile t).mem a f.size
        let js := writeRuns rop (ps.map fun p => { tile := t, off := p.1, bytes := p.2.1, psn := p.2.2 })
        .ok (js.foldl (fun s' p => s'.modTile t fun z => z.writeBytes p.off p.bytes p.psn) s0, pieceBytes ps)

/-- Bytes counted in a tile's sync word (R381, R295). -/
def State.countSync (s : State) (t : Nat) (sync : Option Nat) (n : Nat) : State :=
  match sync with
  | some off => s.modTile t fun x => x.syncUpdate off n none
  | none => s

/-! ### COPY messages (R364, R378) -/

/-- The parts of a COPY message's ARG. -/
structure CopyArg where
  doff : Nat
  sync : Option Nat
  psn : Bool
  far : Bool
  rop : Nat
  xfmt : Nat
  xbl : Nat
  deriving DecidableEq, Repr

def CopyArg.toBits (a : CopyArg) : BitVec 48 :=
  let sy := match a.sync with
    | some o => o / 16
    | none => 0xFFFF
  BitVec.ofNat 48 (a.doff % 2 ^ 20 + sy * 2 ^ 20 + b2n a.psn * 2 ^ 36 + b2n a.far * 2 ^ 37 + a.rop * 2 ^ 38
    + a.xfmt * 2 ^ 41 + a.xbl * 2 ^ 46)

def CopyArg.ofBits (q : BitVec 48) : CopyArg where
  doff := bits q 19 0
  sync := if bits q 35 20 = 0xFFFF then none else some (16 * bits q 35 20)
  psn := bit q 36
  far := bit q 37
  rop := bits q 40 38
  xfmt := bits q 45 41
  xbl := bits q 47 46

/-- Bytes of one unit of the transfer format: an element, or a BFP block with its exponent. -/
def unitBytes (fmt blk : Nat) : Nat := if isBfp fmt then blk * fmtWidth fmt / 8 + 1 else fmtWidth fmt / 8

/-- A transfer image as a source. -/
def imageSrc (fmt blk : Nat) (img : List Byte) (psn : Bool) : Src :=
  let u := unitBytes fmt blk
  let v := ofBytes img
  { fmt := fmt, blk := blk,
    elem := fun i => if isBfp fmt then elemAt (fmtWidth fmt) (v / 2 ^ (8 * (i / blk * u + 1))) (i % blk)
      else elemAt (fmtWidth fmt) v i,
    exp := fun j => v / 2 ^ (8 * (j * u)) % 256,
    psn := fun _ => psn }

/-- MemFmt that a VT value gives untyped memory (R263). -/
def vtFmt (vt : Nat) : MemFmt := { fmt := vt % 32, blk := blockLen (vt / 32 % 4), exr := false, typed := false }

/-- A COPY message's parts at its destination: ARG, the source, its element count, the data bytes. -/
def copyParts (m : Msg) : CopyArg × Src × Nat :=
  let a := CopyArg.ofBits m.hdr.arg
  let img := if a.far then m.payload.drop 8 else m.payload
  let blk := blockLen a.xbl
  let n := img.length / unitBytes a.xfmt blk * (if isBfp a.xfmt then blk else 1)
  (a, imageSrc a.xfmt blk img a.psn, n)

/-- Whether a message is placed directly as its fragments arrive at tile `t` (R379). -/
def State.copyDirect (s : State) (t : Nat) (h : MsgHdr) : Bool :=
  let a := CopyArg.ofBits h.arg
  let f := ((s.tile t).bankFmt a.doff).getD (vtFmt h.vt)
  h.cls == clsCOPY && !a.far && a.rop == 7 && f.fmt == a.xfmt && !f.bfp && decide (a.doff + h.len ≤ 0xD0000) &&
    (h.lim == 0 || decide (a.doff + h.len ≤ h.lim))

/-- The bytes of element `e` in a data fragment that starts at element `e0`. -/
def fragPiece (t off u e0 e : Nat) (data : List Byte) (psn : Bool) : Piece :=
  { tile := t, off := off + e * u, bytes := (data.drop ((e - e0) * u)).take u, psn := psn }

/-- One data fragment of a directly placed message: the bytes of its active elements, counted (R379, R381). -/
def State.placeFrag (s : State) (t : Nat) (h : MsgHdr) (i : Nat) (data : List Byte) : State :=
  let a := CopyArg.ofBits h.arg
  let u := unitBytes a.xfmt 8
  let per := 32 / u
  let es := ((List.range per).map fun j => i * per + j).filter fun e => decide (e * u < h.len) && h.act.testBit e
  let ps := es.map fun e => fragPiece t a.doff u (i * per) e data a.psn
  let s1 := (joinPieces ps).foldl (fun s' p => s'.modTile t fun y => y.writeBytes p.off p.bytes p.psn) s
  s1.countSync t a.sync (ps.foldl (fun n p => n + p.bytes.length) 0)

/-! ### Far bytes of a strip -/

/-- A byte range cut where it passes from one 64 KiB far page to the next. -/
def farCut (va : Nat) (bs : List Byte) : List (Nat × List Byte) :=
  let k := 65536 - va % 65536
  if bs.length ≤ k then [(va, bs)] else [(va, bs.take k), (va + k, bs.drop k)]

def State.farWriteCut (s : State) (tnt pid va : Nat) (bs : List Byte) (psn : Bool) : State :=
  (farCut va bs).foldl (fun s' p => (s'.farWrite tnt pid p.1 p.2 psn).1) s

/-- Bytes of a far range that may pass from one page to the next: status, bytes, poison; EVAL of an SDC found. -/
def State.farReadCut (s : State) (tnt pid va n : Nat) : Except Word (State × Nat × List Byte × Bool) :=
  let k := 65536 - va % 65536
  if n ≤ k then s.farRead tnt pid va n
  else
    match s.farRead tnt pid va k with
    | .error e => .error e
    | .ok (s1, c1, b1, p1) =>
      match s1.farRead tnt pid (va + k) (n - k) with
      | .error e => .error e
      | .ok (s2, c2, b2, p2) => .ok (s2, if c1 = 0 then c2 else c1, b1 ++ b2, p1 || p2)

/-! ### Delivery (R379-R381) -/

/-- A message of a copy lost or refused: its elements fault with the cause; none when it was accepted. -/
def State.copySettle (s : State) (h : MsgHdr) (cause : Option (BitVec 8)) : State :=
  s.modSlot h.src.num (Fin.ofNat 8 h.slot) fun x =>
    match x.pend with
    | .copy c =>
      let mine := c.await.filter fun a => a.1 == h.seq
      let bad := match cause with
        | some k => mine.map fun a => (a.2.1, a.2.2, k)
        | none => []
      { x with pend := .copy { c with await := c.await.filter fun a => a.1 != h.seq, refused := c.refused ++ bad } }
    | _ => x

/-- A strip refused at a page's home station: written to the black box (R397). -/
def State.homeRefuses (s : State) (ep : Ep) (m : Msg) (va reason : Nat) : State :=
  let (a, b) := refusalWords m.hdr.src m.hdr.slot m.hdr.tnt va reason
  (s.blackBox ep 0x06 m.hdr.tnt a b).sendDone ep m.hdr 1 reason

/-- SDC raised by an element combination for the process that issued the copy; nothing of the message is written, and its
source is answered (DESIGN CHOICE: notes/assumptions/59.md). -/
def State.combineSdc (s : State) (ep : Ep) (h : MsgHdr) (v : Word) : State :=
  (s.terminal h.src.num (Fin.ofNat 8 h.slot) cSDC v).sendDone ep h 0 0

/-- The errors found by the reads of a reducing copy's far elements: EVAL of the SDC one raises, or the state with those that
became poison (R265, R270). -/
def State.combineReads (s : State) (tnt pid va size n act : Nat) : Except Word State :=
  (activeList n act).foldl (fun r i => match r with
    | .error e => .error e
    | .ok s' => (s'.farReadCut tnt pid (va + i * size) size).map (·.1)) (.ok s)

/-- The far address of the destination of a FAR = 1 message's first element (R364). -/
def copyVa (m : Msg) : Nat := (wordAt (toWords (m.payload.take 8)) 0).toNat % 2 ^ 57

/-- A FAR = 1 message placed at the home of its page. -/
def State.placeFar (s : State) (ep : Ep) (m : Msg) (va : Nat) : State :=
  let (a, x, n) := copyParts m
  let h := m.hdr
  let raw := !isBfp a.xfmt && a.xbl == 1
  let f := vtFmt h.vt
  match s.farCheck h.tnt h.pid va (decide (a.rop < 7)) true with
  | .error _ => s.homeRefuses ep m va 0x20
  | .ok _ =>
    match stripRefusal f 0 n a.rop raw with
    | some r => s.homeRefuses ep m va r
    | none =>
      match (if a.rop < 7 then s.combineReads h.tnt h.pid va f.size n h.act else .ok s) with
      | .error e => s.combineSdc ep h e
      | .ok s0 =>
        let ps := stripPieces f va x n h.act a.rop raw fun q => match s0.farReadCut h.tnt h.pid q f.size with
          | .ok (_, _, bs, _) => ofBytes bs
          | .error _ => 0
        let js := writeRuns a.rop (ps.map fun p => { tile := 0, off := p.1, bytes := p.2.1, psn := p.2.2 })
        let s1 := js.foldl (fun s' p => s'.farWriteCut h.tnt h.pid p.off p.bytes p.psn) s0
        let s2 := match a.sync with
          | some off => s1.sendControl ep h.src h.slot h.tnt 0x07 (off / 16) .none (toBytes 8 (pieceBytes ps)) h.pid h.netid
          | none => s1
        s2.sendDone ep h 0 0

/-- Whether a FAR = 1 message still waits at its station: a block of it ends on the next page, which a migration has frozen
(09_memory_ordering.md R321). -/
def State.copyHeld (s : State) (m : Msg) : Bool :=
  let (a, _, n) := copyParts m
  let va := copyVa m
  a.far && s.pageFrozen m.hdr.tnt m.hdr.pid (max va ((vtFmt m.hdr.vt).stripEnd va n m.hdr.act - 1)) &&
    !s.pageFrozen m.hdr.tnt m.hdr.pid va

/-- A COPY message placed at its destination after decode: DONE, accepted or refused, and the sync word or PLACED. At a station
the page may have moved, or be missing, which the host is asked for in host-assisted mode (R394; 01_machine.md R56; 13_system_tables.md
R454). `sent` marks what has come by the answer of a translation: at an end that is not its page's home it is a straggler. -/
def State.deliverCopyAs (s : State) (ep : Ep) (m : Msg) (sent : Bool) : State :=
  let (a, x, n) := copyParts m
  let h := m.hdr
  if a.far then
    let va := copyVa m
    match s.routeAt ep.num h.tnt h.pid va sent with
    | .here _ => if s.copyHeld m then s.modFab ep fun f => { f with inbox := f.inbox ++ [m] } else s.placeFar ep m va
    | .frozen i => s.queueMoved i m
    | .onward home => s.forwardMsg ep ⟨.edge, home⟩ m
    | .miss w =>
      let s1 := s.noteMalformed ep h.tnt h.pid va w
      if bit (s.assistBits h.tnt) 0 then
        let access := if a.rop < 7 then 2 else 1
        s1.askHost 0 h.tnt h.netid (toBytes 2 h.pid ++ toBytes 6 access ++ toBytes 8 va) (.translation ep m va h.pid access)
      else s1.homeRefuses ep m va 0x20
  else
    match s.placeAt ep.num a.doff (vtFmt h.vt) x n h.act a.rop (!isBfp a.xfmt && a.xbl == 1) h.lim with
    | .error (.refuse r) => (s.logRefusal ep.num h.src h.slot h.tnt a.doff r).sendDone ep h 1 r
    | .error (.sdc e) => s.combineSdc ep h e
    | .ok (s1, k) => (s1.countSync ep.num a.sync k).sendDone ep h 0 0

/-- A COPY message that has come to its destination. -/
def State.deliverCopy (s : State) (ep : Ep) (m : Msg) : State := s.deliverCopyAs ep m true

/-- PLACED: the home's report counted in the issuing tile's sync word (R381). -/
def execPlaced (ep : Ep) (i : Nat) (s : State) : Res := runEvent s fun st =>
  match (st.fab ep).inbox[i]? with
  | some m =>
    if m.hdr.cls = clsCONTROL ∧ bits m.hdr.arg 7 0 = 0x07 ∧ ep.kind = .tile then
      (st.takeMsg ep i m).countSync ep.num (some (16 * bits m.hdr.arg 23 8)) (wordAt (toWords m.payload) 0).toNat
    else st
  | none => st

/-! ### The instruction -/

/-- What an instruction of the group asks: the operation (7 a plain copy), the fill of CPYF, the handle of CPY.MC. -/
structure CopyOp where
  rop : Nat
  src : Option (BitVec 5)
  fill : Option (BitVec 5)
  mc : Option (BitVec 4)
  sync : BitVec 3
  dst : BitVec 5
  deriving DecidableEq, Repr

/-- Alignment of a base to its side's Sm (R299 check 3). -/
def MemFmt.align (f : MemFmt) : Nat := if f.bfp then 1 else f.size

/-- MemFmt of a base. -/
def State.fmtOfBase (s : State) (a : Word) : MemFmt :=
  match s.basePlace a with
  | some q => s.memFmt s.vec.memFmt q
  | none => s.vec.memFmt

/-- Whether the destination applies its own BFMT at placement: a far scratchpad page, or CPY.MC's members (R299). -/
def State.ownsFmt (s : State) (o : CopyOp) (da : Word) : Bool :=
  o.mc.isSome || match addrForm da with
    | .far va => match s.walk s.me.tenant.toNat s.me.pid.toNat va with
      | .leaf l => l.tgt == 2
      | _ => false
    | _ => false

/-- The form check of a base (R256). -/
def copyForm (a : Word) (localOnly : Bool) : Option MemFault :=
  match addrForm a with
  | .bad => some (cADDRESS_FORM, a)
  | .local _ => none
  | _ => if localOnly then some (cADDRESS_FORM, a) else none

/-- The sync-word operand (R294). -/
def syncOperand (q : Word) : Except MemFault (Option Nat) :=
  if q = 0 then .ok none
  else if bit q 63 = true ∧ bits q 62 20 = 0 ∧ bits q 3 0 = 0 ∧ bits q 19 0 ≤ 0xCFFF0 then .ok (some (bits q 19 0))
  else .error (engineFault 0x0A q.toNat)

/-- The first fault of a list. -/
def firstFault : List (Option MemFault) → Option MemFault
  | [] => none
  | some e :: _ => some e
  | none :: r => firstFault r

/-- The whole-instruction checks of R299, in order. -/
def copyCheck (s : State) (o : CopyOp) : Except Stop CopyStrip :=
  let c := s.vec
  let da := s.g o.dst
  let sa := match o.src with
    | some r => s.g r
    | none => 0
  let hasSrc := o.src.isSome
  let fs := if hasSrc then s.fmtOfBase sa else { fmt := fINT64, blk := 16, exr := false, typed := false }
  let fd := s.fmtOfBase da
  let own := s.ownsFmt o da
  let vl := c.vl.toNat
  let q := s.e o.sync
  let syncBad := match syncOperand q with
    | .ok _ => none
    | .error e => some e
  match firstFault [
      if hasSrc then copyForm sa false else none,
      copyForm da o.mc.isSome,
      if hasSrc && sa.toNat % fs.align != 0 then some (cMISALIGN, sa) else none,
      if da.toNat % fd.align != 0 then some (cMISALIGN, da) else none,
      syncBad,
      if o.fill.isSome && !own && fd.bfp then some (engineFault 0x09 da.toNat) else none,
      if decide (o.rop < 7) && !own && !ropFits o.rop fd.fmt then some (engineFault 0x0B da.toNat) else none,
      if hasSrc then bfpRules fs (s.basePlace sa) sa vl else none,
      if own then none else bfpRules fd (s.basePlace da) da vl] with
  | some e => .error (.trap e.1 e.2)
  | none =>
    .ok { n := vl, act := c.fmask.toNat % 2 ^ vl, sa := sa, da := da, fs := fs, fd := fd,
          sync := match syncOperand q with
            | .ok v => v
            | .error _ => none,
          fill := o.fill.map fun r => (s.g r).toNat }

/-- First byte of the unit that holds element `i` on a side. -/
def sideAddr (f : MemFmt) (a : Word) (i : Nat) : Word := a + BitVec.ofNat 64 (unitOff f i)

/-- Offset of a base within its bank layout, for BFP blocks. -/
def State.baseOff (s : State) (a : Word) : Nat :=
  match s.basePlace a with
  | some p => p.off
  | none => 0

/-- Elements of a unit. -/
def MemFmt.unit (f : MemFmt) : Nat := if f.bfp then f.blk else 1

/-- The bytes of ranges read one after the other, or the first fault. -/
def State.readRanges (s : State) : List (Word × Nat) → Except Stop (State × Except MemFault (List Byte × Bool))
  | [] => .ok (s, .ok ([], false))
  | (a, n) :: r =>
    let here : Except Stop (State × Except MemFault (List Byte × Bool)) :=
      match s.vecCheck true 1 a n with
      | .error e => .ok (s, .error e)
      | .ok (.tile t off) => match (s.crossed a).readTile t off n with
        | .error e => .error e
        | .ok (s1, bs, p) => .ok (s1, .ok (bs, p))
      | .ok (.far va) =>
        match s.farReadCut s.me.tenant.toNat s.me.pid.toNat va n with
        | .error v => .error (.sdc s v)
        | .ok (s1, code, bs, p) => .ok (s1, if code = 0 then .ok (bs, p) else .error (statusCause code, a))
    match here with
    | .error e => .error e
    | .ok (s1, .error e) => .ok (s1, .error e)
    | .ok (s1, .ok (b1, p1)) =>
      match s1.readRanges r with
      | .error e => .error e
      | .ok (s2, .error e) => .ok (s2, .error e)
      | .ok (s2, .ok (b2, p2)) => .ok (s2, .ok (b1 ++ b2, p1 || p2))

/-- What reading the source gives: the units' bytes, with poison, and the faults of active elements. -/
structure Image where
  units : List (List Byte × Bool)
  faults : List ElemFault
  deriving DecidableEq, Repr

/-- The active elements of a unit, faulted. -/
def unitFaults (st : CopyStrip) (u j : Nat) (e : MemFault) : List ElemFault :=
  ((List.range u).map fun k => j * u + k).filterMap fun i =>
    if i < st.n ∧ st.act.testBit i = true then some { elem := i, cause := e.1, eval := e.2 } else none

/-- The source's units read in ascending order (R299's per-element checks), each whole when any of its elements is
active; CPYF's fill as INT64 elements. -/
def State.readImage (s : State) (st : CopyStrip) : Except Stop (State × Image) :=
  match st.fill with
  | some v => .ok (s, { units := List.replicate st.n (toBytes 8 v, false), faults := [] })
  | none =>
    let u := st.fs.unit
    let sz := unitBytes st.fs.fmt st.fs.blk
    match gather (fun s1 j =>
        if (List.range u).any fun k => st.act.testBit (j * u + k) then
          match s1.readRanges (unitRanges st.fs st.sa (s.baseOff st.sa) (j * u)) with
          | .error e => .error e
          | .ok (s2, .ok b) => .ok (s2, (b, ([] : List ElemFault)))
          | .ok (s2, .error e) => .ok (s2, ((List.replicate sz 0, false), unitFaults st u j e))
        else .ok (s1, ((List.replicate sz 0, false), []))) (ceilDiv st.n u) 0 s with
    | .error e => .error e
    | .ok (s1, l) => .ok (s1, { units := l.map (·.1), faults := l.flatMap (·.2) })

/-- The active elements less those faulted. -/
def withoutFaults (act : Nat) (fs : List ElemFault) : Nat :=
  fs.foldl (fun a f => if a.testBit f.elem then a - 2 ^ f.elem else a) act

/-- Faults of destination units: regions and windows. -/
def State.destFaults (s : State) (st : CopyStrip) (localOnly : Bool) : List ElemFault :=
  let u := st.fd.unit
  (List.range (ceilDiv st.n u)).flatMap fun j =>
    if (List.range u).any fun k => st.act.testBit (j * u + k) then
      match s.rangesCheck (!localOnly) 1 (unitRanges st.fd st.da (s.baseOff st.da) (j * u)) with
      | .ok _ => []
      | .error e => unitFaults st u j e
    else []

/-! ### Messages of a strip (R378) -/

/-- One message: its elements [lo, hi), its end, the far address of its destination or the offset there, and the end of the
scratchpad page it is for, 0 for none. -/
structure CopyMsg where
  lo : Nat
  hi : Nat
  dst : Ep
  far : Bool
  addr : Nat
  lim : Nat
  deriving DecidableEq, Repr

/-- Elements [lo, hi) cut into runs of at most `k` elements, from the first. -/
def cutRuns (k hi : Nat) : Nat → Nat → List (Nat × Nat)
  | 0, _ => []
  | n + 1, lo => if lo < hi then (lo, min hi (lo + k)) :: cutRuns k hi n (lo + k) else []

/-- Elements a message of the strip may carry: as many whole units as fit in the payload, and whole destination blocks
where they fit. -/
def CopyStrip.perMsg (st : CopyStrip) (limit : Nat) : Nat :=
  let sz := unitBytes st.fs.fmt st.fs.blk
  let u := st.fs.unit
  let g := max u st.fd.unit
  let per := limit / (g / u * sz) * g
  if per = 0 then limit / sz * u else per

/-- The messages for elements [lo, hi) that one end receives. -/
def CopyStrip.msgs (st : CopyStrip) (dst : Ep) (far : Bool) (lo hi : Nat) (addr : Nat → Nat) (lim : Nat := 0) :
    List CopyMsg :=
  (cutRuns (st.perMsg (if far then 504 else 512)) hi (hi - lo) lo).map fun r =>
    { lo := r.1, hi := r.2, dst := dst, far := far, addr := addr r.1, lim := lim }

/-- ARG of a message of the strip. -/
def CopyStrip.arg (st : CopyStrip) (rop : Nat) (m : CopyMsg) (psn : Bool) : CopyArg where
  doff := if m.far then 0 else m.addr
  sync := st.sync
  psn := psn
  far := m.far
  rop := rop
  xfmt := st.fs.fmt
  xbl := if st.fs.bfp then Nat.log2 st.fs.blk - 3 else if st.fill.isSome then 1 else 0

/-- A COPY message sent by the current slot: the state and the SEQ awaited, with the elements it carries. -/
def State.sendCopy (s : State) (st : CopyStrip) (rop : Nat) (img : Image) (m : CopyMsg) : State × Option (Nat × Nat × Nat) :=
  let act := st.act / 2 ^ m.lo % 2 ^ (m.hi - m.lo)
  if act = 0 then (s, none)
  else
    let u := st.fs.unit
    let us := (img.units.drop (m.lo / u)).take (ceilDiv (m.hi - m.lo) u)
    let payload := (if m.far then toBytes 8 (2 ^ 63 + m.addr) else []) ++ us.flatMap (·.1)
    let me : Ep := ⟨.tile, s.cur.tile⟩
    let x := s.me
    let r := s.takeSeq me s.cur.slot.val clsCOPY
    let h : MsgHdr :=
      { attempt := 0, dst := m.dst, src := me, cls := clsCOPY, slot := s.cur.slot.val, tnt := x.tenant.toNat,
        seq := r.1 % 65536, arg := (st.arg rop m (us.any (·.2))).toBits, len := 0, m := 0, stream := .none,
        pid := x.pid.toNat, netid := x.netid.toNat, vt := s.vec.vt.toNat, act := act, lo := m.lo, lim := m.lim }
    (r.2.sendMsg h payload false, some (r.1 % 65536, m.lo, m.hi))

/-- The messages of a strip sent in order. -/
def State.sendNew (s : State) (st : CopyStrip) (rop : Nat) (img : Image) : List CopyMsg → State × List (Nat × Nat × Nat)
  | [] => (s, [])
  | m :: r =>
    let (s1, w) := s.sendCopy st rop img m
    let (s2, ws) := s1.sendNew st rop img r
    (s2, match w with
      | some x => x :: ws
      | none => ws)

/-! A replay (07_control_registers.md R246) resends each message that was lost and carried an element FMASK names, with its
identity and its contents, which the send shadow has kept (R392). -/

/-- The strip's elements that a message of the shadow carries. -/
def Shadow.elems (x : Shadow) : Nat := x.msg.hdr.act * 2 ^ x.msg.hdr.lo

/-- Whether an entry of the shadow is a lost message of the current slot that a replay of the strip to the ends `ms` resends. -/
def State.replays (s : State) (st : CopyStrip) (rop : Nat) (ms : List CopyMsg) (x : Shadow) : Bool :=
  let h := x.msg.hdr
  x.lost && h.cls == clsCOPY && h.slot == s.cur.slot.val && h.pid == s.me.pid.toNat && st.act &&& x.elems != 0 &&
  ms.any fun m =>
    let dest := m.addr + ((sideAddr st.fd st.da h.lo).toNat - (sideAddr st.fd st.da m.lo).toNat)
    let a := CopyArg.ofBits h.arg
    h.dst == m.dst && decide (m.lo ≤ h.lo ∧ h.lo < m.hi) && a.toBits == (st.arg rop { m with addr := dest } a.psn).toBits &&
      (!m.far || (wordAt (toWords (x.msg.payload.take 8)) 0).toNat == 2 ^ 63 + dest)

/-- Lost messages that a copy begun anew takes the place of, dropped: no replay asks for them any more. -/
def State.dropLost (s : State) (gone : List Shadow) : State :=
  s.modFab ⟨.tile, s.cur.tile⟩ fun f => { f with shadow := f.shadow.filter fun x => !gone.contains x }

/-- The lost messages of a replay sent again, each whole, with its attempt raised: the SEQs awaited and the elements they
carry. One whose DONE has come since is accepted and not sent (R374). -/
def State.resendLost (s : State) : List Shadow → State × List (Nat × Nat × Nat)
  | [] => (s, [])
  | x :: r =>
    let me : Ep := ⟨.tile, s.cur.tile⟩
    match findIdx (fun y : Shadow => sameIdent y.msg.hdr x.msg.hdr) (s.fab me).shadow with
    | some i =>
      let h := x.msg.hdr
      if x.done then (s.modFab me fun f => { f with shadow := listErase f.shadow i }).resendLost r
      else
        let s1 := s.resend me i { x with lost := false, resends := 0 } (x.attempt + 1) false (List.range (dataCount h.len))
          (List.range h.m)
        let (s2, ws) := s1.resendLost r
        (s2, (h.seq, h.lo, h.lo + Nat.log2 h.act + 1) :: ws)
    | none => s.resendLost r

/-- The messages of a strip sent: those a replay resends, then new ones for the elements left. -/
def State.sendCopies (s : State) (st : CopyStrip) (rop : Nat) (img : Image) (ms : List CopyMsg) :
    State × List (Nat × Nat × Nat) :=
  let same := (s.fab ⟨.tile, s.cur.tile⟩).shadow.filter (s.replays st rop ms)
  let replay := s.vec.fmask != BitVec.allOnes 4096
  let old := if replay then same else []
  let s1 := if replay then s else s.dropLost same
  let (s2, w1) := s1.resendLost old
  let act := old.foldl (fun a x => a &&& (2 ^ st.n - 1 - (a &&& x.elems))) st.act
  let (s3, w2) := s2.sendNew { st with act := act } rop img ms
  (s3, w1 ++ w2)

/-! ### Stages -/

/-- A far page met by a unit of a strip: one more unit of the page at the end of the list, or a page of its own. `at'` is the
first byte of the unit there and `len` the bytes of it there; `starts` says whether the unit begins there. -/
def addPage (base : Nat → Nat) (l : List PageAns) (lo hi at' len : Nat) (starts : Bool) : List PageAns :=
  let new : PageAns := { lo := if starts then lo else hi, hi := hi, first := lo, addr := at', tag := none, status := 0,
                         token := BitVec.ofNat 64 len }
  match l.getLast? with
  | some p =>
    if base p.addr = base at' then
      l.dropLast ++ [{ p with hi := hi, token := BitVec.ofNat 64 (at' + len - p.addr) }]
    else l ++ [new]
  | none => [new]

/-- The far pages a strip's destination touches, in ascending address order, each with its elements and the bytes of
R487's request. A BFP block that passes a page's end lies on both pages; an element past the last far address lies on none. -/
def State.stripPages (s : State) (st : CopyStrip) : List PageAns :=
  let x := s.me
  let u := st.fd.unit
  let unitLen := if st.fd.bfp then st.fd.mb + 1 else st.fd.size
  let base := fun va => match s.walk x.tenant.toNat x.pid.toNat va with
    | .leaf f => pageBase f.level va
    | _ => pageBase 4 va
  let pages := (List.range (ceilDiv st.n u)).foldl (fun l j =>
    let hi := min st.n ((j + 1) * u)
    match addrForm (sideAddr st.fd st.da (j * u)) with
    | .far va =>
      let k := 65536 - va % 65536
      if k < unitLen ∧ base (va + k) ≠ base va then
        let l1 := addPage base l (j * u) hi va k true
        if va + k < 2 ^ 57 then addPage base l1 (j * u) hi (va + k) (unitLen - k) false else l1
      else addPage base l (j * u) hi va unitLen true
    | _ => l) []
  pages.filter fun p => (List.range (p.hi - p.first)).any fun k => st.act.testBit (p.first + k)

/-- The translation requests of a strip's pages sent (R487); each page then awaits its answer. -/
def State.sendXlates (s : State) : List PageAns → State × List PageAns
  | [] => (s, [])
  | p :: r =>
    let (s1, t) := s.askFar (fun t => reqWords 0x04 0 p.token.toNat t (BitVec.ofNat 64 (2 ^ 63 + p.addr)) ++ [0, 0]) false
    let (s2, ps) := s1.sendXlates r
    (s2, { p with tag := some (t % 2 ^ 32), token := 0 } :: ps)

/-- The faults of a page whose translation failed (R487). -/
def pageFaults (st : CopyStrip) (p : PageAns) : List ElemFault :=
  if p.status = 0 then []
  else ((List.range (p.hi - p.first)).map fun k => p.first + k).filterMap fun i =>
    if st.act.testBit i then
      some { elem := i, cause := statusCause p.status, eval := sideAddr st.fd st.da i } else none

/-- The messages of a far strip, page by page (R378, R487). -/
def farMsgs (st : CopyStrip) (ps : List PageAns) : List CopyMsg :=
  ps.flatMap fun p =>
    if p.status ≠ 0 then []
    else
      let va := fun i => (sideAddr st.fd st.da i).toNat % 2 ^ 57
      let who := bits p.token 47 32
      if bits p.token 49 48 = 2 then
        let off := bits p.token 19 0
        st.msgs ⟨.tile, who⟩ false p.lo p.hi (fun i => off + (va i - p.addr)) (off - p.addr % 65536 + 65536)
      else st.msgs ⟨.edge, who⟩ true p.lo p.hi va

/-- The end of a copy once every destination has answered (R246, R298). -/
def copyFinish (st : CopyStrip) (c : CopyProg) (s : State) : Except Stop State :=
  let lost := c.refused.flatMap fun r =>
    ((List.range (r.2.1 - r.1)).map fun k => r.1 + k).filterMap fun i =>
      if st.act.testBit i then some ({ elem := i, cause := r.2.2, eval := sideAddr st.fd st.da i } : ElemFault) else none
  (s.updMe fun x => { x with pend := .none }).partialDone
    (ceilDiv (st.n * max (fmtWidth st.fs.fmt) (fmtWidth st.fd.fmt)) 1024) (c.faults ++ lost)

/-- A source from its element `lo` on. -/
def Src.from (x : Src) (lo : Nat) : Src :=
  { x with elem := fun i => x.elem (i + lo), exp := fun j => x.exp (j + lo / x.blk), psn := fun i => x.psn (i + lo) }

/-- The tiles of a strip's destination, each with its elements: those in the base's megabyte, and, through the windows,
those that pass to the next tile's (R378). -/
def State.tileGroups (s : State) (st : CopyStrip) : List (Nat × Nat × Nat) :=
  let at_ := fun i => sideAddr st.fd st.da i
  let k := match (List.range st.n).find? fun i => (at_ i).toNat / 2 ^ 20 != st.da.toNat / 2 ^ 20 with
    | some i => i
    | none => st.n
  [(0, k), (k, st.n)].filterMap fun r =>
    if r.1 < r.2 then
      match s.basePlace (at_ r.1) with
      | some (.tile t _) => some (t, r.1, r.2)
      | _ => none
    else none

/-- Whether a tile's executor has entries to run before one that arrives now (R390): in its queue, or decoded and not yet
there. -/
def State.execBusy (s : State) (e : Ep) : Bool :=
  !(s.execQueue e).isEmpty || (s.fab e).inbox.any fun m => m.hdr.cls == clsERRAND ||
    (m.hdr.cls == clsCOPY && decide ((CopyArg.ofBits m.hdr.arg).rop < 7)) ||
    (m.hdr.cls == clsTOKENS && m.hdr.stream == .implicitReq && (FarReq.ofMsg m).op == 5)

/-- Elements [lo, hi) of a strip placed at the issuing tile, and the elements refused there: a member's refusal is logged
(R297); the checks at issue leave no other. -/
def copyHere (o : CopyOp) (st : CopyStrip) (x : Src) (off : Nat) (member : Bool) (lo hi : Nat) (s : State) :
    Except Stop (State × List (Nat × Nat × BitVec 8)) :=
  let here := s.cur.tile
  match s.placeAt here off s.vec.memFmt (x.from lo) (hi - lo) (st.act / 2 ^ lo % 2 ^ (hi - lo)) o.rop st.fill.isSome 0 with
  | .ok (s1, k) => .ok ((s1.countSync here st.sync k).injectPoison here here off, [])
  | .error (.refuse r) =>
    if member then
      .ok (s.logRefusal here ⟨.tile, here⟩ s.cur.slot.val s.me.tenant.toNat off r, [(0, st.n, cREMOTE_VIOLATION)])
    else .ok (s, [])
  | .error (.sdc v) => .error (.sdc s v)

/-- The messages of a strip sent; it waits until every one is accepted or refused. -/
def copyGo (o : CopyOp) (st : CopyStrip) (img : Image) (c : CopyProg) (ref : List (Nat × Nat × BitVec 8)) (ms : List CopyMsg) :
    Body := fun s =>
  let (s1, w) := s.sendCopies st o.rop img ms
  let c1 := { c with await := w, refused := ref }
  if w = [] then copyFinish st c1 s1
  else .error (.waitIn (s1.updMe fun y => { y with pend := .copy c1 }) .issue)

/-- The strip read and sent, or placed: the second stage. A reducing copy to the issuing tile runs after what its executor
holds (R390). -/
def copySend (o : CopyOp) (st : CopyStrip) (c : CopyProg) : Body := fun s =>
  match s.readImage st with
  | .error e => .error e
  | .ok (s1, img) =>
    let f1 := img.faults ++ c.pages.flatMap (pageFaults st)
    let st1 := { st with act := withoutFaults st.act f1 }
    let f2 := s1.destFaults st1 o.mc.isSome
    let st2 := { st1 with act := withoutFaults st1.act f2 }
    let c1 := { c with strip := st2, sent := true, faults := f1 ++ f2 }
    let here := s1.cur.tile
    let src := imageSrc st.fs.fmt st.fs.blk (img.units.flatMap (·.1)) false
    let x := { src with psn := fun i => (img.units.getD (i / st.fs.unit) ([], false)).2 }
    let off := fun i => (sideAddr st.fd st.da i).toNat % 2 ^ 20
    match o.mc with
    | some _ =>
      let ts := c.members.getD []
      match (if ts.contains here ∧ st2.act ≠ 0 then copyHere o st2 x (off 0) true 0 st2.n s1 else .ok (s1, [])) with
      | .error e => .error e
      | .ok (s2, ref) =>
        copyGo o st2 img c1 ref ((ts.filter (· != here)).flatMap fun t => st2.msgs ⟨.tile, t⟩ false 0 st2.n off) s2
    | none =>
      match s.basePlace st.da with
      | some (.far _) => copyGo o st2 img c1 [] (farMsgs st2 c.pages) s1
      | some (.tile _ _) =>
        let gs := s1.tileGroups st2
        let own := fun (g : Nat × Nat × Nat) => decide (g.1 = here) && st2.act / 2 ^ g.2.1 % 2 ^ (g.2.2 - g.2.1) != 0
        if o.rop < 7 ∧ gs.any own = true ∧ s.execBusy ⟨.tile, here⟩ = true then .error (.wait .issue)
        else
          match gather (fun s' i => match gs[i]? with
              | some g => if own g then copyHere o st2 x (off g.2.1) false g.2.1 g.2.2 s' else .ok (s', [])
              | none => .ok (s', [])) gs.length 0 (s1.crossedAll ((activeList st2.n st2.act).map (sideAddr st2.fd st2.da))) with
          | .error e => .error e
          | .ok (s2, _) =>
            copyGo o st2 img c1 [] (gs.flatMap fun g => if g.1 = here then [] else st2.msgs ⟨.tile, g.1⟩ false g.2.1 g.2.2 off) s2
      | none => copyGo o st2 img c1 [] [] s1

/-- A copy with nothing asked for yet. -/
def CopyProg.start (st : CopyStrip) : CopyProg :=
  { strip := st, asked := false, begun := false, pages := [], members := none, sent := false, await := [], refused := [], faults := [], denied := [] }

/-- The first and last addresses of the source's units. -/
def srcAddrs (st : CopyStrip) : List Word :=
  if st.fill.isSome then []
  else (activeList st.n st.act).flatMap fun i =>
    let a := sideAddr st.fs st.sa i
    if st.fs.bfp then [a, a + BitVec.ofNat 64 st.fs.mb] else [a]

/-- A copy that has passed its checks, with the formats it read (R264): its source pages asked for, then its destination's
translations or members, then the strip sent. -/
def copyStart (o : CopyOp) (h : Option Handle) (c : CopyProg) : Body := fun s =>
  let st := c.strip
  let farDst : Bool := match addrForm st.da with
    | .far _ => true
    | _ => false
  match s.farReady c (srcAddrs st) with
  | .error e => .error e
  | .ok _ =>
    if farDst ∧ s.released = false then .error (.wait .issue)
    else
      let c1 := { c with begun := true }
      match h with
      | some x =>
        let s1 := s.slotReel s.cur.tile s.cur.slot x rEXPAND [s.me.pid.setWidth 64] false
        .error (.waitIn (s1.updMe fun y => { y with pend := .copy c1 }) .far)
      | none =>
        if farDst then
          let (s1, ps) := s.sendXlates (s.stripPages st)
          .error (.waitIn (s1.updMe fun y => { y with pend := .copy { c1 with pages := ps } }) .far)
        else copySend o st c s

/-- A copy (R293-R299): checked; its source pages and its destination's translations or members asked for; then read and
sent; retired when every destination has accepted or refused. -/
def copyBody (enc : Nat) (o : CopyOp) : Body := needVec enc fun s =>
  let ill : Except Stop State := .error (.trap cILLEGAL (BitVec.ofNat 64 enc))
  if s.vec.bad then ill
  else if s.vec.vl == 0 then .ok s.longDone
  else
    let h := match o.mc with
      | some k => some (Handle.ofWord s.me.handles[k.toFin])
      | none => none
    if h.any fun x => !x.v then
      .error (.trap cGROUP_FAULT (BitVec.ofNat 64 (0x01 * 2 ^ 56 + (o.mc.getD 0).toNat * 2 ^ 52)))
    else
      match s.me.pend with
      | .copy c =>
        if c.sent then (if c.await = [] then copyFinish c.strip c s else .error (.wait .issue))
        else if c.asked || c.pages.any (·.tag.isSome) || (c.begun && o.mc.isSome && c.members.isNone) then .error (.wait .far)
        else if c.begun then
          match s.farReady c (srcAddrs c.strip) with
          | .error e => .error e
          | .ok _ => copySend o c.strip c s
        else copyStart o h c s
      | _ =>
        match copyCheck s o with
        | .error e => .error e
        | .ok st => copyStart o h (CopyProg.start st) s

/-- funct11 of a copy. -/
def copyFunct (op : Nat) (y : BitVec 3) (rop : Nat) : Nat := op * 256 + y.toNat * 32 + rop * 2

/-- CPY (R296). -/
def execCpy (y : BitVec 3) (d rs : BitVec 5) (s : State) : Res :=
  runBody s (copyBody (gEnc 0 (copyFunct 0 y 0) 0x15 d rs)
    { rop := 7, src := some rs, fill := none, mc := none, sync := y, dst := d })

/-- CPYR with an operation of R296. -/
def cpyr (rop : Nat) (y : BitVec 3) (d rs : BitVec 5) : Body :=
  copyBody (gEnc 0 (copyFunct 1 y rop) 0x15 d rs) { rop := rop, src := some rs, fill := none, mc := none, sync := y, dst := d }

/-- CPYR.ADD. -/
def execCpyrAdd (y : BitVec 3) (d rs : BitVec 5) (s : State) : Res := runBody s (cpyr 0 y d rs)

/-- CPYR.FADD. -/
def execCpyrFadd (y : BitVec 3) (d rs : BitVec 5) (s : State) : Res := runBody s (cpyr 1 y d rs)

/-- CPYR.BFADD. -/
def execCpyrBfadd (y : BitVec 3) (d rs : BitVec 5) (s : State) : Res := runBody s (cpyr 2 y d rs)

/-- CPYR.MIN. -/
def execCpyrMin (y : BitVec 3) (d rs : BitVec 5) (s : State) : Res := runBody s (cpyr 3 y d rs)

/-- CPYR.MAX. -/
def execCpyrMax (y : BitVec 3) (d rs : BitVec 5) (s : State) : Res := runBody s (cpyr 4 y d rs)

/-- CPYR.FMIN. -/
def execCpyrFmin (y : BitVec 3) (d rs : BitVec 5) (s : State) : Res := runBody s (cpyr 5 y d rs)

/-- CPYR.FMAX. -/
def execCpyrFmax (y : BitVec 3) (d rs : BitVec 5) (s : State) : Res := runBody s (cpyr 6 y d rs)

/-- CPYF (R296). -/
def execCpyf (t : BitVec 5) (y : BitVec 3) (d : BitVec 5) (s : State) : Res :=
  runBody s (copyBody (gEnc t (copyFunct 2 y 0) 0x15 d 0)
    { rop := 7, src := none, fill := some t, mc := none, sync := y, dst := d })

/-- CPY.MC (R297). -/
def execCpyMc (h : BitVec 4) (y : BitVec 3) (d rs : BitVec 5) (s : State) : Res :=
  runBody s (copyBody (gEnc (h.setWidth 5) (copyFunct 3 y 0) 0x15 d rs)
    { rop := 7, src := some rs, fill := none, mc := some h, sync := y, dst := d })

end Sys2Proof.Machine
end

