-- ==== Sys2Proof/Machine/Errand.lean ====
section
/-!
DEFINITION. Errands (11_fragments_and_errands.md R382-R390): the frame and its checks, its execution, the queue of an
executor, REPLY, and the instructions ERRAND and ERRWAIT.
-/
namespace Sys2Proof.Machine

/-! ### The frame (R382, R384, R385) -/

/-- A rejection: reason, instruction index (0xFF for none), cause code (R389). -/
structure Reject where
  reason : Nat
  idx : Nat := 0xFF
  cause : Nat := 0
  deriving DecidableEq, Repr

/-- EVAL of ERRAND_REJECT (R389). -/
def Reject.eval (r : Reject) (tag : Nat) : Word :=
  BitVec.ofNat 64 (r.reason % 256 * 2 ^ 56 + r.idx % 256 * 2 ^ 48 + r.cause % 256 * 2 ^ 40 + tag % 65536)

/-- What an instruction of a frame does (R384). Register fields are those of the encoding. -/
inductive FrameOp where
  | alu (d a b : BitVec 5) (f : Word → Word → Word)
  | load (n : Nat) (signed : Bool) (imm : Word) (d a : BitVec 5)
  | store (n : Nat) (imm : Word) (d a : BitVec 5)
  | amo (op n : Nat) (t d a : BitVec 5)
  | fp (op : Nat) (d a b : BitVec 5)
  | swadd (t a : BitVec 5)
  | fins (t d a : BitVec 5)
  | reply (a : BitVec 5)

/-- The register fields an operation names. -/
def FrameOp.regs : FrameOp → List (BitVec 5)
  | .alu d a b _ => [d, a, b]
  | .load _ _ _ d a => [d, a]
  | .store _ _ d a => [d, a]
  | .amo _ _ t d a => [t, d, a]
  | .fp _ d a b => [d, a, b]
  | .swadd t a => [t, a]
  | .fins t d a => [t, d, a]
  | .reply a => [a]

/-- Whether it reads, and whether it writes, the executor's memory. -/
def FrameOp.reads : FrameOp → Bool
  | .load .. => true
  | .amo .. => true
  | .swadd .. => true
  | .fins .. => true
  | _ => false

def FrameOp.writes : FrameOp → Bool
  | .store .. => true
  | .amo .. => true
  | .swadd .. => true
  | .fins .. => true
  | _ => false

/-- A chain bit, mask enable or mask field is set. -/
def chained (x y : BitVec 1) (m : BitVec 3) (e : BitVec 1) : Bool := x != 0 || y != 0 || m != 0 || e != 0

/-- The operation of a 32-bit instruction that a frame may hold; none for every other (R384). -/
def frameOp : Instr → Option FrameOp
  | .add t d a => some (.alu d a t fun x y => x + y)
  | .sub t d a => some (.alu d a t fun x y => x - y)
  | .and t d a => some (.alu d a t fun x y => x &&& y)
  | .or t d a => some (.alu d a t fun x y => x ||| y)
  | .xor t d a => some (.alu d a t fun x y => x ^^^ y)
  | .andn t d a => some (.alu d a t fun x y => x &&& ~~~y)
  | .sll t d a => some (.alu d a t fun x y => x <<< shamt y)
  | .srl t d a => some (.alu d a t fun x y => x >>> shamt y)
  | .sra t d a => some (.alu d a t fun x y => x.sshiftRight (shamt y))
  | .slt t d a => some (.alu d a t aluSlt)
  | .sltu t d a => some (.alu d a t aluSltu)
  | .min t d a => some (.alu d a t aluMin)
  | .max t d a => some (.alu d a t aluMax)
  | .minu t d a => some (.alu d a t aluMinu)
  | .maxu t d a => some (.alu d a t aluMaxu)
  | .clz d a => some (.alu d a 0 fun x _ => aluClz x)
  | .ctz d a => some (.alu d a 0 fun x _ => aluCtz x)
  | .popc d a => some (.alu d a 0 fun x _ => aluPopc x)
  | .rev8 d a => some (.alu d a 0 fun x _ => aluRev8 x)
  | .rol t d a => some (.alu d a t fun x y => x.rotateLeft (shamt y))
  | .rotr t d a => some (.alu d a t fun x y => x.rotateRight (shamt y))
  | .sextB d a => some (.alu d a 0 fun x _ => sext 8 x)
  | .sextH d a => some (.alu d a 0 fun x _ => sext 16 x)
  | .sextW d a => some (.alu d a 0 fun x _ => sext 32 x)
  | .addi i d a => some (.alu d a 0 fun x _ => x + simm i)
  | .andi i d a => some (.alu d a 0 fun x _ => x &&& simm i)
  | .ori i d a => some (.alu d a 0 fun x _ => x ||| simm i)
  | .xori i d a => some (.alu d a 0 fun x _ => x ^^^ simm i)
  | .slti i d a => some (.alu d a 0 fun x _ => aluSlt x (simm i))
  | .sltiu i d a => some (.alu d a 0 fun x _ => aluSltu x (simm i))
  | .slli h d a => some (.alu d a 0 fun x _ => x <<< h.toNat)
  | .srli h d a => some (.alu d a 0 fun x _ => x >>> h.toNat)
  | .srai h d a => some (.alu d a 0 fun x _ => x.sshiftRight h.toNat)
  | .ldhi i d => some (.alu d 0 0 fun _ _ => simm i <<< 12)
  | .ldB i d a => some (.load 1 true (simm i) d a)
  | .ldH i d a => some (.load 2 true (simm i) d a)
  | .ldW i d a => some (.load 4 true (simm i) d a)
  | .ldD i d a => some (.load 8 true (simm i) d a)
  | .ldBu i d a => some (.load 1 false (simm i) d a)
  | .ldHu i d a => some (.load 2 false (simm i) d a)
  | .ldWu i d a => some (.load 4 false (simm i) d a)
  | .stB i d a => some (.store 1 (simm i) d a)
  | .stH i d a => some (.store 2 (simm i) d a)
  | .stW i d a => some (.store 4 (simm i) d a)
  | .stD i d a => some (.store 8 (simm i) d a)
  | .amoAdd t w d a => some (.amo 0 (amoSize w) t d a)
  | .amoSwap t w d a => some (.amo 1 (amoSize w) t d a)
  | .amoCas t w d a => some (.amo 2 (amoSize w) t d a)
  | .amoMin t w d a => some (.amo 3 (amoSize w) t d a)
  | .amoMax t w d a => some (.amo 4 (amoSize w) t d a)
  | .amoMinu t w d a => some (.amo 5 (amoSize w) t d a)
  | .amoMaxu t w d a => some (.amo 6 (amoSize w) t d a)
  | .amoAnd t w d a => some (.amo 7 (amoSize w) t d a)
  | .amoOr t w d a => some (.amo 8 (amoSize w) t d a)
  | .amoXor t w d a => some (.amo 9 (amoSize w) t d a)
  | .amoFadd t d a => some (.amo 10 4 t d a)
  | .vfadd b x y m e d a => if chained x y m e then none else some (.fp 0 d a b)
  | .vfmin b x y m e d a => if chained x y m e then none else some (.fp 1 d a b)
  | .vfmax b x y m e d a => if chained x y m e then none else some (.fp 2 d a b)
  | .swadd t a => some (.swadd t a)
  | .fins t d a => some (.fins t d a)
  | .reply a => some (.reply a)
  | _ => none

/-- The operation of a compact form of R384. -/
def frameCompact (h : Nat) : Option FrameOp :=
  let d : BitVec 5 := BitVec.ofNat 5 (fld h 10 6)
  let a : BitVec 5 := BitVec.ofNat 5 (fld h 4 0)
  let imm : BitVec 6 := BitVec.ofNat 6 (fld h 5 0)
  match fld h 14 11 with
  | 0x1 => if fld h 5 5 = 0 then some (.alu d a 0 fun x _ => x) else none
  | 0x2 => if fld h 5 5 = 0 then some (.alu d d a fun x y => x + y) else none
  | 0x3 => some (.alu d d 0 fun x _ => x + simm imm)
  | 0xB => some (.alu d 0 0 fun _ _ => simm imm <<< 12)
  | 0xC => if fld h 10 0 = 0 then some (.alu 0 0 0 fun _ _ => 0) else none
  | _ => none

/-- The decoder of the major opcodes a frame may hold. -/
def frameMajor (w : Nat) : Except DecodeError Instr :=
  match fld w 14 10 with
  | 0x00 => decMajor00 w
  | 0x01 => decMajor01 w
  | 0x02 => decMajor02 w
  | 0x07 => decMajor07 w
  | 0x08 => decMajor08 w
  | 0x09 => decMajor09 w
  | 0x0E => decMajor0E w
  | 0x17 => decMajor17 w
  | 0x19 => decMajor19 w
  | _ => .error .reservedMajor

/-- The operation encoded at a halfword `h`, `g` the one after it. -/
def frameDecode (h g : Nat) : Option FrameOp :=
  if h < 0x8000 then frameCompact h
  else match frameMajor (h + g * 65536) with
    | .ok i => frameOp i
    | .error _ => none

/-- `n` instructions from byte `pos`, instruction `i` first: the operations and the byte after the last. -/
def frameCode (f : List Byte) : Nat → Nat → Nat → Except Reject (List FrameOp × Nat)
  | 0, _, pos => .ok ([], pos)
  | n + 1, i, pos =>
    let h := ofBytes ((f.drop pos).take 2)
    let len := if h < 0x8000 then 2 else 4
    if 64 < pos + len then .error { reason := 0x03 }
    else match frameDecode h (ofBytes ((f.drop (pos + 2)).take 2)) with
      | none => .error { reason := 0x01, idx := i }
      | some op =>
        if op.regs.any fun r => decide (4 < r.toNat) then .error { reason := 0x02, idx := i }
        else match frameCode f n (i + 1) (pos + len) with
          | .error e => .error e
          | .ok (l, q) => .ok (op :: l, q)

/-- A frame's fields. -/
def frameByte (f : List Byte) (i : Nat) : Byte := f.getD i 0
def frameWait (f : List Byte) : Bool := bit (frameByte f 1) 3
def framePid (f : List Byte) : Nat := ofBytes ((f.drop 2).take 2)
def frameTarget (f : List Byte) : Word := BitVec.ofNat 64 (ofBytes ((f.drop 8).take 8))
def frameOpnd (f : List Byte) (i : Nat) : Word := BitVec.ofNat 64 (ofBytes ((f.drop (16 + 8 * i)).take 8))

/-- The checks of R385 and R384 on a frame: its operations. -/
def frameCheck (f : List Byte) : Except Reject (List FrameOp) :=
  let b0 := frameByte f 0
  let b1 := frameByte f 1
  let nops := bits b0 2 0
  let nins := bits b1 2 0
  if 4 < nops ∨ nins = 0 ∨ 4 < nins ∨ bits b0 7 3 ≠ 0 ∨ bits b1 7 5 ≠ 0 ∨ ofBytes ((f.drop 4).take 4) ≠ 0
      ∨ (List.range 4).any (fun i => decide (nops ≤ i) && frameOpnd f i != 0) = true then .error { reason := 0x03 }
  else match frameCode f nins 0 48 with
    | .error e => .error e
    | .ok (l, q) => if ofBytes ((f.take 64).drop q) ≠ 0 then .error { reason := 0x03 } else .ok l

/-! ### Execution (R383, R386, R387) -/

/-- A frame in execution: the executing tile (none at a station), the page of a far TARGET, FPF, the errand registers x0
to x4, the value, and whether a REPLY has given it. -/
structure FrameRun where
  tile : Option Nat
  page : Option Leaf
  base : Nat
  bf : Bool
  x : List Word
  value : Word
  replied : Bool

def FrameRun.get (r : FrameRun) (n : BitVec 5) : Word := r.x.getD n.toNat 0

def FrameRun.set (r : FrameRun) (n : BitVec 5) (v : Word) : FrameRun :=
  if n = 0 then r else { r with x := listSet r.x n.toNat v }

/-- The target of a frame's access of `n` bytes: the reason of a rejection, or where it falls (R386). -/
def FrameRun.place (r : FrameRun) (a : Word) (n : Nat) : Except Nat Target :=
  match r.page, addrForm a with
  | some l, .far va =>
    if va < r.base ∨ r.base + 2 ^ pageBits l.level < va + n then .error 0x04
    else if va % n ≠ 0 then .error 0x05
    else match l.target va, r.tile with
      | .spad _ off, some t => .ok (.spad t off)
      | tg, _ => .ok tg
  | none, .local off =>
    match r.tile with
    | some t => if 0xD0000 < off + n then .error 0x04 else if off % n ≠ 0 then .error 0x05 else .ok (.spad t off)
    | none => .error 0x04
  | _, _ => .error 0x04

/-- How one instruction of a frame ends without its effect: a rejection, or an SDC found. -/
inductive FrameStop where
  | reject (reason : Nat)
  | sdc (v : Word)

/-- A frame's read of `n` bytes at an address. -/
def State.frameRead (s : State) (r : FrameRun) (a : Word) (n : Nat) : Except FrameStop (State × Target × Nat) :=
  match r.place a n with
  | .error e => .error (.reject e)
  | .ok tg =>
    match s.targetSdc tg n with
    | some e => .error (.sdc e)
    | none => let (s1, bs, _) := s.targetRead tg n false; .ok (s1, tg, ofBytes bs)

/-- SubByteInsert(_, b, w, v) on a word (08_memories.md R280). -/
def subByteInsert (old b w v : Nat) : Nat := old - old / 2 ^ b % 2 ^ w * 2 ^ b + v % 2 ^ w * 2 ^ b

/-- One instruction of a frame. -/
def frameStep (s : State) (r : FrameRun) (op : FrameOp) : Except FrameStop (State × FrameRun) :=
  match op with
  | .alu d a b f => .ok (s, r.set d (f (r.get a) (r.get b)))
  | .load n signed imm d a =>
    match s.frameRead r (r.get a + imm) n with
    | .error e => .error e
    | .ok (s1, _, v) => .ok (s1, r.set d (if signed then sextWord v (8 * n) else BitVec.ofNat 64 v))
  | .store n imm d a =>
    match r.place (r.get a + imm) n with
    | .error e => .error (.reject e)
    | .ok tg => .ok (s.targetWrite tg (toBytes n (r.get d).toNat) false, r)
  | .amo op n t d a =>
    match s.frameRead r (r.get a) n with
    | .error e => .error e
    | .ok (s1, tg, old) =>
      let v := amoNew op n old ((r.get t).toNat % 2 ^ (8 * n)) ((r.get d).toNat % 2 ^ (8 * n))
      .ok (s1.targetWrite tg (toBytes n v) false, r.set d (sextWord old (8 * n)))
  | .fp op d a b =>
    let f := if r.bf then fBF16 else fFP32
    let x := (r.get a).toNat % 2 ^ fmtWidth f
    let y := (r.get b).toNat % 2 ^ fmtWidth f
    let v := match op with
      | 0 => (fpAdd f 0 0 false x y).1
      | 1 => (fpMinMax f false x y).1
      | _ => (fpMinMax f true x y).1
    .ok (s, r.set d (BitVec.ofNat 64 v))
  | .swadd t a =>
    match s.frameRead r (r.get a) 16 with
    | .error e => .error e
    | .ok (s1, .spad u off, _) => .ok (s1.modTile u fun y => y.syncUpdate off (bits (r.get t) 31 0) none, r)
    | .ok _ => .error (.reject 0x04)
  | .fins t d a =>
    let q := r.get d
    let b := bits q 5 0
    let w := bits q 11 8
    if w = 0 ∨ 8 < w ∨ 64 < b + w then .error (.reject 0x08)
    else match s.frameRead r (r.get a) 8 with
      | .error e => .error e
      | .ok (s1, tg, old) => .ok (s1.targetWrite tg (toBytes 8 (subByteInsert old b w (r.get t).toNat)) false, r)
  | .reply a => if r.replied then .error (.reject 0x06) else .ok (s, { r with value := r.get a, replied := true })

/-- A frame's instructions in order, `i` the index of the first. -/
def frameRun (s : State) (r : FrameRun) : Nat → List FrameOp → Except (Nat × FrameStop) (State × FrameRun)
  | _, [] => .ok (s, r)
  | i, op :: l =>
    match frameStep s r op with
    | .error e => .error (i, e)
    | .ok (s1, r1) => frameRun s1 r1 (i + 1) l

/-! ### The executor (R383, R390) -/

/-- The slot a frame's message comes from, and its tag; a station that forwards a frame leaves both as they are (R394). -/
def frameOrigin (m : Msg) : Nat × Fin 8 × Nat := (m.hdr.src.num, Fin.ofNat 8 m.hdr.slot, m.hdr.seq)

/-- A REPLY (R364). -/
def State.sendErrReply (s : State) (here : Ep) (m : Msg) (status idx cause : Nat) (value : Word) : State :=
  let (t, k, tag) := frameOrigin m
  s.sendCls here ⟨.tile, t⟩ k.val clsREPLY m.hdr.tnt .none
    (BitVec.ofNat 48 (tag % 65536 + status % 256 * 2 ^ 16 + idx % 256 * 2 ^ 24 + cause % 256 * 2 ^ 32))
    (toBytes 8 value.toNat) true m.hdr.pid m.hdr.netid

/-- A rejected frame: counted, recorded and answered (R383). -/
def State.rejectFrame (s : State) (here : Ep) (m : Msg) (r : Reject) : State :=
  let (_, _, tag) := frameOrigin m
  ((s.modFab here fun f => { f with rejects := f.rejects + 1 }).blackBox here 0x05 m.hdr.tnt (BitVec.ofNat 64 tag)
    (r.eval tag)).sendErrReply here m r.reason r.idx r.cause 0

/-- TARGET's page for a frame that reaches its executor: none for a local or window TARGET; a rejection otherwise. -/
def State.framePage (s : State) (here : Ep) (m : Msg) (ops : List FrameOp) : Except Reject (Option (Leaf × Nat)) :=
  let (t, _, _) := frameOrigin m
  match addrForm (frameTarget m.payload) with
  | .bad => .error { reason := 0x04 }
  | .local _ => if here.kind = .tile then .ok none else .error { reason := 0x04 }
  | .window idx _ =>
    if here.kind = .tile ∧ (s.windowTile t idx m.hdr.netid).isSome = true then .ok none else .error { reason := 0x04 }
  | .far va =>
    match s.farCheck m.hdr.tnt (framePid m.payload) va (ops.any (·.reads)) (ops.any (·.writes)) with
    | .error st => .error { reason := 0x07, cause := (statusCause st).toNat }
    | .ok l => .ok (some (l, pageBase l.level va))

/-- A frame at the head of an executor's queue, run whole (R383). -/
def State.runFrame (s : State) (here : Ep) (m : Msg) : State :=
  let f := m.payload.take 64
  match frameCheck f with
  | .error r => s.rejectFrame here m r
  | .ok ops =>
    match s.framePage here m ops with
    | .error r => s.rejectFrame here m r
    | .ok pg =>
      let r0 : FrameRun :=
        { tile := if here.kind = .tile then some here.num else none, page := pg.map (·.1), base := (pg.map (·.2)).getD 0,
          bf := bit (frameByte f 1) 4, x := 0 :: (List.range 4).map (frameOpnd f), value := 0, replied := false }
      match frameRun s r0 0 ops with
      | .ok (s1, r) => s1.sendErrReply here m 0 0xFF 0 r.value
      | .error (i, .reject n) => s.rejectFrame here m { reason := n, idx := i }
      | .error (_, .sdc e) => let (t, k, _) := frameOrigin m; s.terminal t k cSDC e

/-- What a frame does to the executor's memory, as R72 codes it: 0 only loads, 1 only stores, 2 both. -/
def frameAccess (ops : List FrameOp) : Nat := if ops.any (·.writes) then (if ops.any (·.reads) then 2 else 1) else 0

/-- A frame that has arrived: it joins the executor's queue (`run`: it comes from the queue's head and is run), or a station
sends it on towards the executor that TARGET names (R388, R394; 13_system_tables.md R440, R442). One whose page is missing is
rejected, or waits for the host (R389; 08_memories.md R268). -/
def State.placeFrame (s : State) (ep : Ep) (m : Msg) (run : Bool) : State :=
  let enter := fun (s' : State) => if run then s'.runFrame ep m else s'.joinExec ep (.frame m)
  match ep.kind, addrForm (frameTarget m.payload), frameCheck (m.payload.take 64) with
  | .edge, .far va, .ok ops =>
    let pid := framePid m.payload
    match s.routeAt ep.num m.hdr.tnt pid va m.hdr.via.isSome with
    | .frozen i => s.queueMoved i m
    | .onward home => s.forwardMsg ep ⟨.edge, home⟩ m
    | .here l =>
      match l.target va with
      | .spad t _ => if s.leafCheck m.hdr.tnt va false false l = 0 then s.forwardMsg ep ⟨.tile, t⟩ m else enter s
      | _ => enter s
    | .miss w =>
      let s1 := s.noteMalformed ep m.hdr.tnt pid va w
      let access := frameAccess ops
      if bit (s.assistBits m.hdr.tnt) 0 then
        s1.askHost 0 m.hdr.tnt m.hdr.netid (toBytes 2 pid ++ toBytes 6 access ++ toBytes 8 va)
          (.translation ep m va pid access)
      else s1.rejectFrame ep m { reason := 0x07, cause := cFAR_NOT_PRESENT.toNat }
  | _, _, _ => enter s

/-- Whether a frame must still wait at an end: an earlier message of its slot has not arrived (R390), an earlier access of its
slot that may lie on the page awaits its page, or, at the new home of a page switched, an earlier errand of the slot has not
been applied (09_memory_ordering.md R322). -/
def State.frameHeld (s : State) (here : Ep) (m : Msg) : Bool :=
  s.earlierPending here m.hdr ||
  match addrForm (frameTarget m.payload) with
  | .far va =>
    s.awaitsHost here m.hdr va ||
    (here.kind == .edge && s.pageSwitched m.hdr.tnt (framePid m.payload) va &&
      let o := (s.slot m.hdr.src.num (Fin.ofNat 8 m.hdr.slot)).errOut
      match o.find? fun x => x.tag.toNat == m.hdr.seq with
      | some me => (o.takeWhile fun x => x.tag.toNat != m.hdr.seq).any fun x => x.reach.meets me.reach
      | none => false)
  | _ => false

/-! ### The executor's queue (R390) -/

/-- What an executor runs, of the messages decoded at an end. -/
inductive ExecKind where
  | frame | combine | update | other
  deriving DecidableEq, Repr

/-- Whether a message carries a far request: on a slot's implicit channel, or on the manager's account for its spill. -/
def farCarried (ep : Ep) (m : Msg) : Bool :=
  m.hdr.cls == clsTOKENS && (m.hdr.stream == .implicitReq || (ep.kind == .edge && (spillChan m.hdr.stream).isSome))

/-- What a message is to the executor of an end. -/
def execKind (ep : Ep) (m : Msg) : ExecKind :=
  if m.hdr.cls = clsERRAND then .frame
  else if m.hdr.cls = clsCOPY ∧ (CopyArg.ofBits m.hdr.arg).rop < 7 then .combine
  else if farCarried ep m = true ∧ (FarReq.ofMsg m).op = 5 then .update
  else .other

/-- Whether what an executor would take must still wait at the end. -/
def State.execHeld (s : State) (ep : Ep) (m : Msg) : Bool :=
  match execKind ep m with
  | .frame => s.frameHeld ep m || s.framesFull ep
  | .combine => s.earlierPending ep m.hdr
  | .update => s.farHeld ep m
  | .other => true

/-- Message `i` of an inbox given to the executor: an errand or update that a station does not keep is sent on. A copy's DONE
comes with its placement. -/
def State.admitMsg (s : State) (ep : Ep) (i : Nat) (m : Msg) : State :=
  match execKind ep m with
  | .frame => (s.takeMsg ep i m).placeFrame ep m false
  | .combine => (s.modFab ep fun f => { f with inbox := listErase f.inbox i }).joinExec ep (.combine m)
  | .update =>
    match ep.kind with
    | .edge => (s.takeMsg ep i m).farProcess ep.num m false
    | _ => (s.takeMsg ep i m).farAtOwner ep.num m
  | .other => s

/-- What has waited at a station for its page goes on: a frame, once the executor's queue has room, a strip or a request. -/
def State.goOn (s : State) (ep : Ep) (m : Msg) : State :=
  match execKind ep m with
  | .frame =>
    if s.framesFull ep = true ∨ (s.edge ep.num).resumed ≠ [] then
      s.modEdge ep.num fun x => { x with resumed := x.resumed ++ [m] }
    else s.placeFrame ep m false
  | .combine => match s.routeAt ep.num m.hdr.tnt m.hdr.pid (copyVa m) false with
    | .onward home => s.forwardMsg ep ⟨.edge, home⟩ m
    | _ => s.joinExec ep (.combine m)
  | _ => if m.hdr.cls = clsCOPY then s.deliverCopyAs ep m false else s.farProcess ep.num m false

/-- The frames that wait at a station for room in its executor's queue given to it, in order, as far as there is room. -/
def State.joinResumed (s : State) (ep : Ep) : State :=
  match ep.kind with
  | .edge => (s.edge ep.num).resumed.foldl (fun s' m => s'.goOn ep m) (s.modEdge ep.num fun x => { x with resumed := [] })
  | _ => s

/-- The messages of an end's inbox that its executor runs given to it, after those that wait for room, in the order they were
decoded, but for those that must wait. -/
def State.admitExec (s : State) (ep : Ep) : State :=
  let s0 := s.joinResumed ep
  ((s0.fab ep).inbox.filter fun m => execKind ep m != .other).foldl (fun s' m =>
    if s'.execHeld ep m then s'
    else match findIdx (fun o : Msg => sameIdent o.hdr m.hdr) (s'.fab ep).inbox with
      | some i => s'.admitMsg ep i m
      | none => s') s0

/-- The head of an executor's queue run whole (R32). -/
def State.runExec (s : State) (ep : Ep) : State :=
  match s.execQueue ep with
  | [] => s
  | e :: r =>
    let s1 := s.setExecQueue ep r
    let s2 := if ep.kind = .tile then s1.modTile ep.num fun x => x.perf 0x0010 none 1 else s1
    match e with
    | .frame m => s2.placeFrame ep m true
    | .combine m => if s.copyHeld m then s else s1.deliverCopy ep m
    | .far m => s2.farUpdate ep m

/-- The message of an entry. -/
def ExecEntry.msg : ExecEntry → Msg
  | .frame m => m
  | .combine m => m
  | .far m => m

/-- The same where its page stays missing: it fails (08_memories.md R268). -/
def State.goWithout (s : State) (ep : Ep) (m : Msg) : State :=
  if m.hdr.cls = clsERRAND then s.rejectFrame ep m { reason := 0x07, cause := cFAR_NOT_PRESENT.toNat }
  else if m.hdr.cls = clsCOPY then s.homeRefuses ep m (copyVa m) 0x20
  else s.farFail ep (FarReq.ofMsg m) stNOT_PRESENT

/-- A message given to the executor in its turn, and run if it is then the next. -/
def State.admitRun (s : State) (ep : Ep) (m : Msg) : State :=
  let s1 := s.admitExec ep
  match s1.execQueue ep with
  | e :: _ => if sameIdent e.msg.hdr m.hdr then s1.runExec ep else s1
  | [] => s1

/-- Message `i` of those an end holds: of its inbox, or, at the index after its last, the head of the executor's queue. -/
def State.heldMsg (s : State) (ep : Ep) (i : Nat) : Option (Msg × Bool) :=
  match (s.fab ep).inbox[i]? with
  | some m => some (m, false)
  | none => if i = (s.fab ep).inbox.length then (s.execQueue ep).head?.map fun e => (e.msg, true) else none

/-- ERRAND_FRAME_EXECUTION: the head of an executor's queue executed whole (R32, R390). -/
def execErrandFrameExecution (ep : Ep) (s : State) : Res := runEvent s fun st => (st.admitExec ep).runExec ep

/-- COPY: a decoded message placed, or, for a reducing copy, combined by the executor in its turn (R380, R390). -/
def execCopy (ep : Ep) (i : Nat) (s : State) : Res := runEvent s fun st =>
  match st.heldMsg ep i with
  | some (m, queued) =>
    if m.hdr.cls = clsCOPY then
      if queued then st.runExec ep
      else if execKind ep m = .combine then st.admitRun ep m
      else if st.copyHeld m then st
      else (st.modFab ep fun f => { f with inbox := listErase f.inbox i }).deliverCopy ep m
    else st
  | none => st

/-- A far request of the kind named: an update is performed by the executor in its turn. -/
def State.farRequest (s : State) (ep : Ep) (i : Nat) (ok : FarReq → Bool) : State :=
  match s.heldMsg ep i with
  | some (m, queued) =>
    if farCarried ep m = true ∧ ok (FarReq.ofMsg m) = true then
      if queued then s.runExec ep
      else if execKind ep m = .update then s.admitRun ep m
      else if s.farHeld ep m then s
      else match ep.kind with
        | .edge => (s.takeMsg ep i m).farProcess ep.num m false
        | .tile => (s.takeMsg ep i m).farAtOwner ep.num m
        | _ => s
    else s
  | none => s

/-- HOME_ACCESS: a read, write or AMO forwarded, queued, failed or performed. -/
def execHomeAccess (ep : Ep) (i : Nat) (s : State) : Res :=
  runEvent s fun st => st.farRequest ep i fun r => (r.op == 1 || r.op == 2 || r.op == 5) && !r.rupd

/-- RUPD_APPLY (R278). -/
def execRupdApply (ep : Ep) (i : Nat) (s : State) : Res := runEvent s fun st => st.farRequest ep i fun r => r.rupd

/-- XLATE: a copy's translation request, checked for a write at the page's home and answered (R487). -/
def execXlate (ep : Ep) (i : Nat) (s : State) : Res := runEvent s fun st => st.farRequest ep i fun r => r.op == 4

/-! ### Completions (R388, 07_control_registers.md R507) -/

/-- EVAL of FRAGMENT_LOSS for an errand (R377). -/
def errLossEval (tag : Nat) : Word := BitVec.ofNat 64 (2 * 2 ^ 60 + tag % 65536)

/-- A completion put into the lowest empty position. -/
def Slot.keepCompletion (x : Slot) (c : Completion) : Slot :=
  match (List.finRange 16).find? fun i => !x.comps[i].valid with
  | some i => { x with comps := x.comps.set i c }
  | none => x

/-- An errand completed with a status (R388). -/
def Slot.errComplete (x : Slot) (tag status idx cause : Nat) (v : Word) : Slot :=
  match x.errOut.find? fun o => o.tag.toNat == tag with
  | none => x
  | some o =>
    let x1 := { x with errOut := x.errOut.filter fun p => p.tag.toNat != tag }
    let x2 :=
      if o.wait then x1.keepCompletion { valid := true, tag := o.tag, status := BitVec.ofNat 8 status, val := v,
                                         idx := BitVec.ofNat 8 idx, why := BitVec.ofNat 8 cause }
      else if status = 0 then x1
      else if status = 0x13 then { x1 with errRec := errLossEval tag }
      else { x1 with errRec := Reject.eval { reason := status, idx := idx, cause := cause } tag }
    x2.tidyStop

/-- REPLY_MESSAGE: a REPLY at the tile of its errand. -/
def execReplyMessage (ep : Ep) (i : Nat) (s : State) : Res := runEvent s fun st =>
  match (st.fab ep).inbox[i]? with
  | some m =>
    if m.hdr.cls = clsREPLY ∧ ep.kind = .tile then
      let q := m.hdr.arg
      (st.takeMsg ep i m).modSlot ep.num (Fin.ofNat 8 m.hdr.aslot) fun x =>
        x.errComplete (bits q 15 0) (bits q 23 16) (bits q 31 24) (bits q 39 32) (wordAt (toWords m.payload) 0)
    else st
  | none => st

/-! ### ERRAND and ERRWAIT (R388) -/

/-- A record of an errand with WAIT = 0 raised before the instruction acts, and cleared. -/
def raiseRecord (b : Body) : Body := fun s =>
  let v := s.me.errRec
  if v = 0 then b s
  else .error (.trapIn (s.updMe fun x => { x with errRec := 0 })
    (if bits v 63 56 = 0x20 then cFRAGMENT_LOSS else cERRAND_REJECT) v)

/-- The frame image's words read at the issuer. -/
def readFrame (s : State) (a : Word) : Nat → Except Stop (State × List Byte × Bool)
  | 0 => .ok (s, [], false)
  | n + 1 =>
    let q := a + BitVec.ofNat 64 (8 * (7 - n))
    let region := fun off => match scalarRegion s.me.prv false q off 8 with
      | .error e => Except.error e
      | .ok _ => if off < 0xD0000 then .ok () else .error (cADDRESS_FORM, q)
    match s.accessCheck s.cur.tile true false false 8 region q 8 with
    | .error (c, v) => .error (.trap c v)
    | .ok (.far _) => .error (.trap cADDRESS_FORM q)
    | .ok (.tile t off) =>
      match s.readTile t off 8 with
      | .error e => .error e
      | .ok (s1, bs, p) =>
        match readFrame s1 a n with
        | .error e => .error e
        | .ok (s2, bs2, p2) => .ok (s2, bs ++ bs2, p || p2)

/-- Whether a tag is outstanding in a slot. -/
def Slot.tagUsed (x : Slot) (t : BitVec 16) : Bool :=
  (x.errOut.any fun o => o.tag == t) || x.comps.toList.any fun c => c.valid && c.tag == t

/-- The next tag, those outstanding skipped. -/
def Slot.nextTag (x : Slot) : Nat → BitVec 16 → BitVec 16
  | 0, t => t
  | n + 1, t => if x.tagUsed t then x.nextTag n (t + 1) else t

/-- Where a frame is sent: the executor's tile, or the foot of the tile's column on the way to a far page's home. -/
def State.frameDest (s : State) (target : Word) : Ep :=
  match addrForm target with
  | .far _ => s.footOf s.cur.tile
  | .window idx _ => match s.windowTile s.cur.tile idx with
    | some u => ⟨.tile, u⟩
    | none => ⟨.tile, s.cur.tile⟩
  | _ => ⟨.tile, s.cur.tile⟩

/-- What a frame may touch: its executor's tile, or the page of a far TARGET (R386). -/
def State.frameReach (s : State) (target : Word) : Reach :=
  match addrForm target with
  | .far va =>
    match s.walk s.me.tenant.toNat s.me.pid.toNat va with
    | .leaf l => s.reachOf (pageBase l.level va) (2 ^ pageBits l.level)
    | _ => s.reachOf va 1
  | _ =>
    let d := s.frameDest target
    { mem := some (2 + d.num), lo := 0, hi := 0xD0000, via := some d, so := false }

/-- Whether a frame must wait at issue for what the slot has sent (09_memory_ordering.md R307, R312): an update it may meet, or an
errand that goes another way. -/
def frameMustWait (s : State) (r : Reach) : Bool :=
  s.me.rupds.any (fun u => u.2.before r true) || s.me.errOut.any fun o => o.reach.before r (o.reach.via != r.via)

/-- ERRAND (R388). -/
def execErrand (d rs : BitVec 5) (s : State) : Res :=
  runBody s (raiseRecord fun st =>
    match readFrame st (st.g rs) 8 with
    | .error e => .error e
    | .ok (s1, f, psn) =>
      match frameCheck f with
      | .error r => .error (.trap cERRAND_REJECT (r.eval 0xFFFF))
      | .ok _ =>
        let x := s1.me
        let reach := s1.frameReach (frameTarget f)
        if 16 ≤ x.errOut.length + x.validComps ∨ frameMustWait s1 reach = true then .error (.wait .issue)
        else
          let tag := x.nextTag 32 x.errTag
          let f1 := f.take 2 ++ toBytes 2 x.pid.toNat ++ f.drop 4
          let h : MsgHdr :=
            { attempt := 0, dst := s1.frameDest (frameTarget f), src := ⟨.tile, s1.cur.tile⟩, cls := clsERRAND,
              slot := s1.cur.slot.val, tnt := x.tenant.toNat, seq := tag.toNat, arg := 0, len := 0, m := 0,
              stream := .none, pid := x.pid.toNat, netid := x.netid.toNat }
          let s2 := s1.updMe fun y =>
            { y with errTag := tag + 1, errOut := y.errOut ++ [{ tag := tag, wait := frameWait f, reach := reach }] }
          .ok (((((s2.crossed (frameTarget f)).sendMsg h f1 false).notePoison psn).setG d (tag.setWidth 64)).adv 4))

/-- ERRWAIT (R388). -/
def execErrwait (d rs : BitVec 5) (s : State) : Res :=
  runBody s (raiseRecord fun st =>
    let tag : BitVec 16 := (st.g rs).setWidth 16
    let x := st.me
    match (List.finRange 16).find? fun i => x.comps[i].valid && x.comps[i].tag == tag with
    | some i =>
      let c := x.comps[i]
      let s1 := st.updMe fun y => { y with comps := y.comps.set i Completion.reset, pend := .none }
      if c.status = 0 then .ok ((s1.setG d c.val).adv 4)
      else if c.status = 0x13 then .error (.trapIn s1 cFRAGMENT_LOSS (errLossEval tag.toNat))
      else .error (.trapIn s1 cERRAND_REJECT
        (Reject.eval { reason := c.status.toNat, idx := c.idx.toNat, cause := c.why.toNat } tag.toNat))
    | none =>
      if x.errOut.any fun o => o.tag == tag && o.wait then
        .error (.waitIn (st.updMe fun y => { y with pend := .begun }) .issue)
      else .error (.trap cERRAND_REJECT (Reject.eval { reason := 0x0A } tag.toNat)))

/-- REPLY outside an errand frame: ILLEGAL (R387); inside one its effect is that of the frame's executor. -/
def execReply (rs : BitVec 5) (s : State) : Res :=
  runBody s fun _ => .error (.trap cILLEGAL (BitVec.ofNat 64 (gEnc 0 0x010 0x17 0 rs)))

/-- FINS outside an errand frame: ILLEGAL (R387); inside one its effect is that of the frame's executor. -/
def execFins (t d rs : BitVec 5) (s : State) : Res :=
  runBody s fun _ => .error (.trap cILLEGAL (BitVec.ofNat 64 (gEnc t 0x011 0x17 d rs)))

end Sys2Proof.Machine
end

