-- ==== Sys2Proof/Machine/Frag.lean ====
section
/-!
DEFINITION. Fragments at an end (11_fragments_and_errands.md R362-R377, R391-R397; 19_program_remote_copy.md R489):
decode buffers, the completion filter, held fragments, resending, acknowledgements and losses.
-/
namespace Sys2Proof.Machine

/-! ### Arrival -/

/-- A field of R364 and R365 that a fragment's class reserves is not 0, or its class or subkind is not listed. -/
def badFields (h : MsgHdr) : Bool :=
  let q := h.arg
  if h.cls = clsTOKENS then bits q 47 43 != 0
  else if h.cls = clsCOPY then !isBfp (bits q 45 41) && decide (2 ≤ bits q 47 46)
  else if h.cls = clsERRAND then q != 0
  else if h.cls = clsREPLY then bits q 47 40 != 0
  else if h.cls = clsREEL then bits q 47 26 != 0
  else if h.cls = clsNACK then bits q 47 35 != 0
  else if h.cls = clsCONTROL then
    match bits q 7 0 with
    | 0x01 => bits q 47 32 != 0
    | 0x02 => bits q 47 24 != 0
    | 0x03 => bits q 47 8 != 0
    | 0x04 => bits q 47 32 != 0
    | 0x05 => bits q 47 8 != 0
    | 0x06 => bits q 47 32 != 0
    | 0x07 => bits q 47 24 != 0
    | _ => true
  else true

/-- Decode buffers a network holds at an end (01_machine.md R40). -/
def State.bufUse (s : State) (e : Ep) (n : Nat) : Nat := ((s.fab e).bufs.filter fun b => b.hdr.netid == n).length

/-- Whether a buffer is free for a message within its node's share (R372; 01_machine.md R41). -/
def State.bufferFree (s : State) (e : Ep) (h : MsgHdr) : Bool :=
  decide ((s.fab e).bufs.length < 32) &&
    (e.kind != .tile || (s.net h.netid).isNone || decide (0 < s.tileLeft (·.dshare) (s.bufUse e) h.netid))

/-- The present map of a buffer (R364). -/
def DecBuf.map (b : DecBuf) : Nat :=
  (b.frags.map (·.1) ++ b.placed).eraseDups.foldl (fun m i => m + 2 ^ i) 0

/-- Whether a buffer can be decoded: k fragments present, or, after a volta, every data fragment (R393). -/
def DecBuf.full (b : DecBuf) : Bool :=
  let k := dataCount b.hdr.len
  if b.placed = [] then decide (k ≤ b.frags.length)
  else (List.range k).all fun i => (mapFind b.frags i).isSome || b.placed.contains i

/-- Whether a fragment's index is held or was placed at an earlier tile. -/
def DecBuf.has (b : DecBuf) (i : Nat) : Bool := (mapFind b.frags i).isSome || b.placed.contains i

/-- A message whose delivery is not over: it stands in the inbox or in the executor's queue, waits for a page, or has been sent
on and not answered. -/
def State.undelivered (s : State) (e : Ep) (h : MsgHdr) : Bool :=
  (s.fab e).inbox.any (fun m => sameIdent m.hdr h) ||
  (s.execQueue e).any (fun x => match x with
    | .combine m => sameIdent m.hdr h
    | _ => false) ||
  (h.cls == clsCOPY && ((s.fab e).shadow.any (fun x => sameIdent x.msg.hdr h && !x.done && !x.lost) ||
    s.mgr.migs.any (fun g => g.queue.any fun m => sameIdent m.hdr h) ||
    s.mgr.assists.any fun a => match a.what with
      | .translation st m _ _ _ => st == e && sameIdent m.hdr h
      | _ => false))

/-- The DONE that a filter entry's status draws (R372, R373). -/
def State.doneAgain (s : State) (e : Ep) (h : MsgHdr) (st : FiltStatus) : State :=
  match st with
  | .accepted => s.sendDone e h 0 0
  | .refused r => s.sendDone e h 1 r
  | .lost => s.sendDone e h 2 0

/-- Whether a message has been delivered here and released (R391; 19_program_remote_copy.md R489). -/
def State.spent (s : State) (e : Ep) (h : MsgHdr) : Bool :=
  (s.fab e).tails.any fun t => t.uid == h.uid && decide (s.units < t.till)

/-- A decoded message delivered: directly placed data are complete and acknowledged; anything else awaits the row of its
class (R375). -/
def State.deliver (s : State) (e : Ep) (b : DecBuf) : State :=
  let k := dataCount b.hdr.len
  let missing := (List.range k).filter fun i => !b.has i
  let ds := rebuild k b.frags
  let s1 := s.count e ctrRECON missing.length
  let s2 := if isAck b.hdr then s1 else s1.modFab e fun f =>
    { f with filter := f.filter ++ [{ hdr := b.hdr, status := .accepted, attempt := b.hdr.attempt, since := s.units }] }
  if b.direct then
    (missing.foldl (fun s' i => s'.placeFrag e.num b.hdr i (ds.getD i [])) s2).sendDone e b.hdr 0 0
  else
    let m : Msg := { hdr := b.hdr, payload := (ds.flatMap id).take b.hdr.len }
    let s3 := s2.modFab e fun f => { f with inbox := f.inbox ++ [m] }
    if execKind e m = .other then s3 else s3.admitExec e

/-- Buffer `i` decoded if it can be: never while the completion filter is full (R372, R373), nor when its message was delivered
before and released (R391). -/
def State.tryDecode (s : State) (e : Ep) (i : Nat) : State :=
  match (s.fab e).bufs[i]? with
  | some b =>
    if b.full ∧ s.spent e b.hdr = false ∧ (isAck b.hdr = true ∨ (s.fab e).filter.length < 256) then
      (s.modFab e fun f => { f with bufs := listErase f.bufs i }).deliver e b
    else s
  | none => s

/-- A fragment stored in buffer `i`; a directly placed message's data are written as they arrive (R379). -/
def State.storeFrag (s : State) (e : Ep) (i : Nat) (b : DecBuf) (f : Frag) : State :=
  let b1 := { b with frags := mapSet b.frags f.fidx f.data,
                     hdr := { b.hdr with attempt := max b.hdr.attempt f.hdr.attempt } }
  let s1 := s.modFab e fun x => { x with bufs := listSet x.bufs i b1 }
  let s2 := if b.direct ∧ f.fidx < 16 then s1.placeFrag e.num b.hdr f.fidx f.data else s1
  s2.tryDecode e i

/-- A fragment at its end, by the table of R372. -/
def State.bufferFrag (s : State) (e : Ep) (f : Frag) : State :=
  let h := f.hdr
  let x := s.fab e
  let k := dataCount h.len
  if 20 ≤ f.fidx ∨ (f.fidx < 16 ∧ k ≤ f.fidx) then s.count e ctrLOST 1
  else
    match findIdx (fun g : FiltEnt => sameIdent g.hdr h) x.filter with
    | some i =>
      let s1 := s.count e ctrLATE 1
      match x.filter[i]? with
      | some g =>
        if g.attempt < h.attempt then
          let s2 := s1.modFab e fun y => { y with filter := listSet y.filter i { g with attempt := h.attempt } }
          if s.undelivered e h then s2 else s2.doneAgain e h g.status
        else s1
      | none => s1
    | none =>
      match findIdx (fun b : DecBuf => sameIdent b.hdr h) x.bufs with
      | some i =>
        match x.bufs[i]? with
        | some b =>
          if b.hdr.len ≠ h.len ∨ b.hdr.m ≠ h.m then s.count e ctrLOST 1
          else if b.has f.fidx ∨ b.full = true then s.count e ctrLATE 1
          else if h.cls = clsERRAND ∧ s.framesFull e = true then
            s.modFab e fun y => { y with held := y.held ++ [{ frag := f, since := s.units, nacks := 0 }] }
          else s.storeFrag e i b f
        | none => s
      | none =>
        if s.bufferFree e h ∧ (h.cls = clsERRAND ∧ s.framesFull e = true) = false then
          let b : DecBuf := { hdr := h, frags := [], direct := e.kind == .tile && s.copyDirect e.num h && !s.spent e h,
                              placed := [], nacks := 0, deadline := s.units + s.deadline e }
          (s.modFab e fun y => { y with bufs := y.bufs ++ [b] }).storeFrag e x.bufs.length b f
        else s.modFab e fun y => { y with held := y.held ++ [{ frag := f, since := s.units, nacks := 0 }] }

/-- The deadline of a message's buffer put off by the time its fragments were held (10_channels.md R324). -/
def State.putOff (s : State) (e : Ep) (h : MsgHdr) (dt : Nat) : State :=
  s.modFab e fun f => { f with bufs := f.bufs.map fun b => if sameIdent b.hdr h then { b with deadline := b.deadline + dt } else b }

/-- What waited for room taken up again: buffers that could not be decoded, then the fragments held, oldest first. -/
def State.settleFab (s : State) (e : Ep) : State :=
  let n := (s.fab e).bufs.length
  let s1 := (List.range n).reverse.foldl (fun s' i => s'.tryDecode e i) s
  let hs := (s1.fab e).held
  if hs = [] then s1
  else
    hs.foldl (fun s' h =>
      let open' := (s'.fab e).bufs.any fun b => sameIdent b.hdr h.frag.hdr
      if (open' || s'.bufferFree e h.frag.hdr) && !(h.frag.hdr.cls == clsERRAND && s'.framesFull e) then
        let later := hs.find? (fun g => sameIdent g.frag.hdr h.frag.hdr) == some h
        (if later then s'.putOff e h.frag.hdr (s.units - h.since) else s').bufferFrag e h.frag
      else s'.modFab e fun y => { y with held := y.held ++ [h] })
      (s1.modFab e fun y => { y with held := [] })

/-- The header as two words, for the black box (14_counters_and_records.md R476). -/
def headerWords (h : MsgHdr) (fidx : Nat) : Word × Word :=
  let w := toWords (headerBytes h fidx)
  (wordAt w 0, wordAt w 1)

/-- A fragment discarded at a tenant check: counted and recorded (R395; 01_machine.md R47). -/
def State.tenantDrop (s : State) (e : Ep) (f : Frag) : State :=
  let (a, b) := headerWords f.hdr f.fidx
  (s.count e ctrLOST 1).blackBox e 0x02 f.hdr.tnt a b

/-- The end a fragment of a tenant reaches admits it: at a tile, its partition's tenant; at a station, a tenant that holds a
partition (R395; 01_machine.md R47). -/
def State.admits (s : State) (e : Ep) (tnt : Nat) : Bool :=
  tnt == 0 || match e.kind with
    | .tile => (s.partOf e.num).map (·.tnt) == some tnt
    | _ => s.mgr.parts.any fun p => p.tnt == tnt

/-- A fragment that reaches its end: a vacated tile sends it on, and a tile that its network has left discards it
(13_system_tables.md R453); the tenant check and the checks of R364 and R365; then its buffer. -/
def State.arriveFrag (s : State) (f : Frag) : State :=
  let e := f.hdr.dst
  match e.kind with
  | .port => s
  | .tile =>
    let x := s.tile e.num
    let live := match x.forward with
      | some w => decide (s.time < w.expiry)
      | none => false
    match x.forward with
    | some w =>
      if live then
        if 8 ≤ f.hops then s.count e ctrLOST 1
        else
          let g := { f with hdr := { f.hdr with dst := ⟨.tile, w.target⟩ }, hops := f.hops + 1 }
          { s.count e ctrFWD 1 with wire := s.wire ++ [g] }
      else s.count e ctrLOST 1
    | none =>
      if x.vacated ∨ (s.coord e.num).isNone = true ∨ s.hasLeft e.num f.hdr.netid = true then s.count e ctrLOST 1
      else if s.admits e f.hdr.tnt = false then s.tenantDrop e f
      else if badFields f.hdr then s.count e ctrLOST 1
      else (s.bufferFrag e f).settleFab e
  | _ =>
    if s.admits e f.hdr.tnt = false then s.tenantDrop e f
    else if badFields f.hdr then s.count e ctrLOST 1
    else (s.bufferFrag e f).settleFab e

/-- FRAGMENT_ARRIVAL: fragment `i` of the wire reaches its end. -/
def execFragmentArrival (i : Nat) (s : State) : Res := runEvent s fun st =>
  match st.wire[i]? with
  | some f => ({ st with wire := listErase st.wire i } : State).arriveFrag f
  | none => st

/-! ### Deadlines -/

/-- HELD_FRAGMENT_NACK: once for each deadline a fragment has been held for want of a buffer within its share (R372, R41). -/
def execHeldFragmentNack (ep : Ep) (i : Nat) (s : State) : Res := runEvent s fun st =>
  match (st.fab ep).held[i]? with
  | some h =>
    if st.bufferFree ep h.frag.hdr = false ∧ h.since + (h.nacks + 1) * st.deadline ep ≤ st.units then
      (st.modFab ep fun f => { f with held := listSet f.held i { h with nacks := h.nacks + 1 } }).sendNack ep h.frag.hdr
        h.frag.fidx 0 false true 0
    else st
  | none => st

/-- The last fragment index a buffer holds, for a NACK's header. -/
def DecBuf.lastIdx (b : DecBuf) : Nat := (b.frags.getLast?.map (·.1)).getD 0

/-- A destination loss (R377). -/
def State.destLoss (s : State) (e : Ep) (i : Nat) (b : DecBuf) : State :=
  let (x, y) := headerWords b.hdr b.lastIdx
  let s1 := s.modFab e fun f =>
    { f with bufs := listErase f.bufs i,
             filter := if isAck b.hdr then f.filter
               else f.filter ++ [{ hdr := b.hdr, status := .lost, attempt := b.hdr.attempt, since := s.units }] }
  ((s1.count e ctrLOSS 1).blackBox e 0x03 b.hdr.tnt x y).settleFab e

/-- Whether a buffer's deadline runs: not while fragments of its frame are held for want of room in the executor's queue
(10_channels.md R324), nor when it only waits to be decoded. -/
def State.deadlineRuns (s : State) (e : Ep) (b : DecBuf) : Bool :=
  (!b.full || s.spent e b.hdr) && !(s.fab e).held.any fun h => sameIdent h.frag.hdr b.hdr

/-- DECODE_DEADLINE_EXPIRY: a NACK with the present map, or a destination loss (R372). -/
def execDecodeDeadlineExpiry (ep : Ep) (i : Nat) (s : State) : Res := runEvent s fun st =>
  match (st.fab ep).bufs[i]? with
  | some b =>
    if st.deadlineRuns ep b = true ∧ b.deadline ≤ st.units then
      if b.nacks < st.retryLimit ep then
        (st.modFab ep fun f =>
          { f with bufs := listSet f.bufs i { b with nacks := b.nacks + 1, deadline := st.units + st.deadline ep } }).sendNack
          ep b.hdr b.lastIdx b.map false false 0
      else if (st.fab ep).filter.length < 256 then st.destLoss ep i b
      else st
    else st
  | none => st

/-- Units of 2^24 cycles at an end. -/
def State.filterLife (s : State) (e : Ep) : Nat := 2 ^ 24 * s.cycleLen (s.regTile e)

/-- FILTER_ENTRY_EXPIRY (R373). -/
def execFilterEntryExpiry (ep : Ep) (i : Nat) (s : State) : Res := runEvent s fun st =>
  match (st.fab ep).filter[i]? with
  | some g =>
    if g.since + st.filterLife ep ≤ st.units then
      (st.modFab ep fun f => { f with filter := listErase f.filter i }).settleFab ep
    else st
  | none => st

/-! ### Losses at the source (R377) -/

/-- A loss that goes to the fault domain of a network: the class and a number in EVAL. PID 0 is the network's own
account. -/
def State.lossFault (s : State) (e : Ep) (netid pid cls n : Nat) : State :=
  s.terminalNet e netid (if pid = 0 then none else some pid) cFRAGMENT_LOSS (BitVec.ofNat 64 (cls * 2 ^ 60 + n))

/-- The answer to a slot's far request is its loss. -/
def State.farLoss (s : State) (r : FarReq) : State :=
  s.modSlot r.tile r.slot fun x =>
    match x.pend with
    | .far t => if t % 2 ^ 32 = r.tag then { x with pend := .farDone 13 0 false, wait := none } else x
    | .elems p => if p.tag = some r.tag then { x with pend := .elems { p with tag := none, ans := some (13, 0, false) }, wait := none } else x
    | .copy c => { x with pend := .copy { c with pages := c.pages.map fun p => p.answered r.tag 13 0 }, wait := none }
    | _ => x

/-- The loss of an errand or of its REPLY. -/
def State.errandLoss (s : State) (t : Nat) (k : Fin 8) (tag : Nat) : State :=
  s.modSlot t k fun x => x.errComplete tag 0x13 0xFF 0 0

/-- The reel name a REEL message concerns. -/
def State.reelNameOf (s : State) (m : Msg) : Nat :=
  let op := bits m.hdr.arg 7 0
  if op = rCREATE ∨ op = rJOIN then bits (wordAt (toWords m.payload) 0) 31 0
  else
    let n := if m.hdr.dst.kind = .reel then m.hdr.dst.num else m.hdr.src.num
    match mapFind (s.reelSt n).entries (bits m.hdr.arg 15 8) with
    | some e => e.name.toNat
    | none => 0

/-- The answer to a copy that an end has sent on, passed to the end it came from (R375, R394). -/
def State.passDone (s : State) (e : Ep) (h : MsgHdr) (status reason : Nat) : State :=
  match (s.fab e).filter.find? fun g => sameIdent g.hdr h with
  | some g => s.sendDone e g.hdr status reason
  | none => s

/-- One copy of a probe has become `k`; where none is left the next launch is due at `next` (R345). -/
def Wait.spread (w : Wait) (id : BitVec 32) (k next : Nat) : Wait :=
  let gone := w.probes.any fun p => p.id == id && decide (p.live + k ≤ 1) && !p.acted
  { w with probes := w.probes.map fun p => if p.id = id then { p with live := p.live + k - 1 } else p,
           probeAt := if gone then some next else w.probeAt }

/-- The time of the next launch from a wait whose probe is over now. -/
def State.nextProbe (s : State) (t : Nat) (w : Wait) : Nat :=
  s.units + (w.kind.delay.getD 0) * (s.tile t).probeDelay.toNat * s.cycleLen t

/-- One copy of a probe sent on as `k` copies, or dropped, at the wait it came from. -/
def State.probeSpread (s : State) (id slot k : Nat) : State :=
  let t := id / 65536
  s.modSlot t (Fin.ofNat 8 slot) fun x =>
    { x with wait := x.wait.map fun w => w.spread (BitVec.ofNat 32 id) k (s.nextProbe t w) }

/-- What a source delivers for a lost message, by class (R377). -/
def State.sourceLoss (s : State) (e : Ep) (m : Msg) : State :=
  let h := m.hdr
  let s0 := s.count e ctrLOSS 1
  if h.cls = clsTOKENS then
    match h.stream with
    | .chan netid c => s0.lossFault e netid h.pid clsTOKENS c
    | .spill netid c => s0.terminalNet e netid none cSPILL_EXHAUSTED (BitVec.ofNat 64 c)
    | .implicitRep t k =>
      let w := wordAt (toWords m.payload) 0
      s0.farLoss { FarReq.ofMsg m with tile := t, slot := Fin.ofNat 8 k, tag := bits w 31 0 }
    | _ =>
      let r := FarReq.ofMsg m
      match r.spill with
      | some c => s0.terminalNet e r.netid none cSPILL_EXHAUSTED (BitVec.ofNat 64 c)
      | none =>
        if r.rupd then
          (s0.blackBox e 0x04 r.tnt (BitVec.ofNat 64 (2 ^ 63 + r.va)) (cFRAGMENT_LOSS.setWidth 64)).rupdDone r
        else s0.farLoss r
  else if h.cls = clsCOPY then
    match h.via with
    | some _ => s0.passDone e h 2 0
    | none => s0.copySettle h (some cFRAGMENT_LOSS)
  else if h.cls = clsERRAND then let (t, k, tag) := frameOrigin m; s0.errandLoss t k tag
  else if h.cls = clsREPLY then s0.errandLoss h.dst.num (Fin.ofNat 8 h.aslot) (bits h.arg 15 0)
  else if h.cls = clsREEL then s0.lossFault e h.netid h.pid clsREEL (s.reelNameOf m)
  else
    match bits h.arg 7 0 with
    | 0x05 => s0.probeSpread (ofBytes (m.payload.take 4)) (ofBytes ((m.payload.drop 4).take 2)) 0
    | 0x07 => s0.lossFault e h.netid h.pid clsCONTROL (16 * bits h.arg 23 8)
    | _ => s0.lossFault e h.netid h.pid clsTOKENS (bits h.arg 31 8)

/-- A shadow entry after a loss has been delivered: a COPY's stays for a replay (R392); any other is freed. -/
def State.fileLoss (s : State) (e : Ep) (i : Nat) (x : Shadow) : State :=
  let h := x.msg.hdr
  (s.modFab e fun f =>
    if h.cls = clsCOPY ∧ h.via = none then { f with shadow := listSet f.shadow i { x with lost := true, timer := none } }
    else { f with shadow := listErase f.shadow i }).sendNext e h.src h.slot h.cls

/-- SHADOW_TIMER_EXPIRY: a resend, or a source loss once RETRY_LIMIT resends have been made (R376). -/
def execShadowTimerExpiry (ep : Ep) (i : Nat) (s : State) : Res := runEvent s fun st =>
  match (st.fab ep).shadow[i]? with
  | some x =>
    match x.timer with
    | some d =>
      if d ≤ st.units then
        if x.resends < st.retryLimit ep then
          let a := x.attempt + 1
          let m := x.msg.hdr.m
          st.resend ep i x a true (List.range (dataCount x.msg.hdr.len)) ((List.range m).map fun j => (a * m + j) % 4)
        else (st.fileLoss ep i x).sourceLoss ep x.msg
      else st
    | none => st
  | none => st

/-! ### Acknowledgements (R374, R376, R489) -/

/-- What a DONE does to the shadow entry `x` at `j` (R374, R376, R396): the entry is freed, or, for tokens, waits for their
credits; a message reported lost is a loss; one already lost is known to have been accepted, and a replay does not send it
again (R392). The messages that waited for the room it makes are sent (R363). -/
def State.settleShadow (s : State) (e : Ep) (j : Nat) (x : Shadow) (status reason : Nat) : State :=
  let h := x.msg.hdr
  if status = 2 then (if x.lost then s else (s.fileLoss e j x).sourceLoss e x.msg)
  else
    let keep := 0 < x.credits ∨ (x.lost = true ∧ status = 0)
    let s1 := s.modFab e fun f =>
      if keep then { f with shadow := listSet f.shadow j { x with done := true, timer := none } }
      else { f with shadow := listErase f.shadow j }
    let s2 :=
      if h.cls ≠ clsCOPY then s1
      else match h.via with
        | some _ => s1.passDone e h status reason
        | none => s1.copySettle h (if status = 1 then some cREMOTE_VIOLATION else none)
    s2.sendNext e h.src h.slot h.cls

/-- `DONE` at its source: RELEASE is sent, and the shadow entry of the acknowledged message settled (R374, R489). -/
def execDone (ep : Ep) (i : Nat) (s : State) : Res := runEvent s fun st =>
  match (st.fab ep).inbox[i]? with
  | some m =>
    if m.hdr.cls = clsCONTROL ∧ bits m.hdr.arg 7 0 = 0x02 then
      let h := ackOf m
      let s1 := (st.modFab ep fun f => { f with inbox := listErase f.inbox i }).sendRelease ep { h with dst := m.hdr.src }
      match (st.fab ep).findShadow h with
      | some j =>
        match (st.fab ep).shadow[j]? with
        | some x => if x.done then s1 else s1.settleShadow ep j x (bits m.hdr.arg 15 8) (bits m.hdr.arg 23 16)
        | none => s1
      | none => s1
    else st
  | none => st

/-- RELEASE: the filter entry leaves; an OPEN buffer of the identity is freed and nothing delivered (R373, R489). A message that
was delivered here is not delivered again (R391); one reported lost may be, by a replay (R392). -/
def execRelease (ep : Ep) (i : Nat) (s : State) : Res := runEvent s fun st =>
  match (st.fab ep).inbox[i]? with
  | some m =>
    if m.hdr.cls = clsCONTROL ∧ bits m.hdr.arg 7 0 = 0x03 then
      let h := ackOf m
      (st.modFab ep fun f =>
        let here := (f.filter.any fun g => sameIdent g.hdr h && g.status != .lost) || f.tails.any fun t => t.uid == h.uid
        let old := f.tails.filter fun t => decide (st.units < t.till) && t.uid != h.uid
        { f with inbox := listErase f.inbox i, filter := f.filter.filter fun g => !sameIdent g.hdr h,
                 bufs := f.bufs.filter fun b => !sameIdent b.hdr h,
                 tails := if here then old ++ [{ uid := h.uid, till := st.units + st.filterLife ep }] else old }).settleFab ep
    else st
  | none => st

/-- A shadow entry's message addressed to another end. -/
def Shadow.readdressed (x : Shadow) (dest : Ep) : Shadow :=
  { x with msg := { x.msg with hdr := { x.msg.hdr with dst := dest } } }

/-- The messages in a source's send shadow for one end re-addressed to another: their later fragments go there (R393). -/
def State.redirected (s : State) (e old dest : Ep) : State :=
  s.modFab e fun f => { f with shadow := f.shadow.map fun x => if x.msg.hdr.dst = old then x.readdressed dest else x }

/-- NACK: a resend, a restart of the timer, a redirection, or RELEASE for a message whose entry is freed (R376, R393,
R489). -/
def execNack (ep : Ep) (i : Nat) (s : State) : Res := runEvent s fun st =>
  match (st.fab ep).inbox[i]? with
  | some m =>
    if m.hdr.cls = clsNACK then
      let h := ackOf m
      let q := m.hdr.arg
      let s1 := st.modFab ep fun f => { f with inbox := listErase f.inbox i }
      match (st.fab ep).findShadow h with
      | none => s1.sendRelease ep { h with dst := m.hdr.src }
      | some j =>
        match (st.fab ep).shadow[j]? with
        | none => s1
        | some x =>
          let map := bits q 19 0
          let data := (List.range (dataCount x.msg.hdr.len)).filter fun k => !map.testBit k
          if x.done ∨ x.lost = true ∨ h.attempt ≠ min x.attempt 3 then s1
          else if bit q 20 then
            let dest : Ep := ⟨.tile, bits q 34 22⟩
            (s1.redirected ep x.msg.hdr.dst dest).resend ep j (x.readdressed dest) x.attempt false data []
          else if bit q 21 then
            s1.modFab ep fun f =>
              { f with shadow := listSet f.shadow j { x with timer := some (st.units + 4 * st.deadline ep) } }
          else if x.resends < st.retryLimit ep then
            let rows := ((List.range 4).filter fun r => !map.testBit (16 + r)).take x.msg.hdr.m
            s1.resend ep j x (x.attempt + 1) true data rows
          else s1
    else st
  | none => st

end Sys2Proof.Machine
end

