-- ==== Sys2Proof/Machine/Links.lean ====
section
/-!
DEFINITION. Die-to-die links and fabric-port lane groups (01_machine.md R56, R57, R70; 11_fragments_and_errands.md R398;
14_counters_and_records.md R465, R466): rate steps, retraining, and flits that fail their link check; and the tenant bitmaps
of routers and lane groups (01_machine.md R47).
-/
namespace Sys2Proof.Machine

/-! ### Geometry (R70) -/

/-- The two router positions that link `n` joins, the lower coordinate first; none for a fabric port. -/
def linkEnds (n : Nat) : Option ((Nat × Nat) × (Nat × Nat)) :=
  let e := n / 32
  if e < 6 then
    let x := 32 * (e % 3) + 31
    let y := 32 * (e / 3) + n % 32
    some ((x, y), (x + 1, y))
  else if e < 10 then
    let x := 32 * (e - 6) + n % 32
    some ((x, 31), (x, 32))
  else none

/-- Whether a fragment that goes along its row first, then along its column, crosses a link (DESIGN CHOICE: notes/assumptions/22.md). -/
def State.crosses (s : State) (f : Frag) (n : Nat) : Bool :=
  match linkEnds n with
  | none => (f.hdr.dst.kind == .port && f.hdr.dst.num + 320 == n) || (f.hdr.sender.kind == .port && f.hdr.sender.num + 320 == n)
  | some ((x, y), (u, _)) =>
    match s.posOf f.hdr.sender, s.posOf f.hdr.dst with
    | some a, some b =>
      if x = u then b.1 == x && decide (a.2 ≤ 31) != decide (b.2 ≤ 31)
      else a.2 == y && decide (a.1 ≤ x) != decide (b.1 ≤ x)
    | _, _ => false

/-- The end in whose die's ring a link's entries are written, and at which a port's flits come in: the tile, or the station of
the edge row, at its lower router, and the first tile of the port's die; 324 numbers the Sorcel link (DESIGN CHOICE:
notes/assumptions/23.md). -/
def State.linkSource (s : State) (n : Nat) : Ep :=
  match linkEnds n with
  | some ((x, y), _) => match s.logical x y with
    | some t => ⟨.tile, t⟩
    | none => ⟨.edge, 32 * dieOf x y + x % 32⟩
  | none => ⟨.tile, 1024 * [0, 3, 4, 7].getD (n - 320) 0⟩

/-- The end whose image counts a fragment dropped on a link: the tile or station at the router that was to receive it
(R465). For a fabric port and the Sorcel link it is the one at the package's own router of the link, whichever way the fragment
goes (DESIGN CHOICE: notes/assumptions/23.md). -/
def State.linkReceiver (s : State) (f : Frag) (n : Nat) : Ep :=
  match linkEnds n with
  | none => s.linkSource n
  | some ((x, y), (u, v)) =>
    let far := match s.posOf f.hdr.dst with
      | some b => if x = u then decide (32 ≤ b.2) else decide (u ≤ b.1)
      | none => true
    let p := if far then (u, v) else (x, y)
    if (f.hdr.sender.kind = .edge ∨ f.hdr.dst.kind = .edge) ∧ (p.2 = 0 ∨ p.2 = 63) then
      ⟨.edge, 32 * dieOf p.1 p.2 + p.1 % 32⟩
    else match s.logical p.1 p.2 with
      | some t => ⟨.tile, t⟩
      | none => ⟨.edge, 32 * dieOf p.1 p.2 + p.1 % 32⟩

/-! ### Routers (01_machine.md R47) -/

/-- Whether a partition's rectangle meets the tile column of a die that holds a position. -/
def Partition.meetsColumn (p : Partition) (x y : Nat) : Bool :=
  decide (4 * p.rx ≤ x ∧ x < 4 * (p.rx + p.rw)) && decide (4 * p.ry < 32 * (y / 32) + 32 ∧ 32 * (y / 32) < 4 * (p.ry + p.rh))

/-- Whether an end lies in a tenant's partition rectangle (R15, R16). -/
def State.inRect (s : State) (tnt : Nat) (e : Ep) : Bool :=
  match s.posOf e with
  | some (x, y) => s.mgr.parts.any fun p => p.tnt == tnt && p.holds x y
  | none => false

/-- Whether a message travels on the edge plane: to or from an edge station or a port, or out of its tenant's rectangle
(R19, R48; 13_system_tables.md R446), or with a strip's bytes for a far scratchpad page (19_program_remote_copy.md R487). -/
def State.onEdgePlane (s : State) (h : MsgHdr) : Bool :=
  (h.cls == clsCOPY && h.lim != 0) || [h.sender, h.dst].any fun e => e.kind == .edge || e.kind == .port || !s.inRect h.tnt e

/-- The membership bitmap of the router of an end, of the plane a message travels on (R47; 13_system_tables.md R445): a
tile-plane router admits the partition that holds its block; the edge-plane router of a die's tile column the tenants that hold
a tile in that column; those of the edge row, and the lane groups of the links, the tenants that hold a partition. -/
def State.routerAdmits (s : State) (router : Ep) (h : MsgHdr) : Bool :=
  h.tnt == 0 || s.mgr.parts.any fun p => p.tnt == h.tnt &&
    match router.kind, s.posOf router with
    | .edge, _ => true
    | .port, _ => true
    | _, some (x, y) => if s.onEdgePlane h then p.meetsColumn x y else p.holds x y
    | _, none => false

/-- The link whose lane group a router names: port 0 to 3 a fabric port, 4 the Sorcel link, 1024 + n die-to-die link n. -/
def laneLink (n : Nat) : Nat := if n < 1024 then 320 + n else n - 1024

/-- A fragment discarded at a router, counted and recorded; at a lane group by the end whose router was to receive it
(14_counters_and_records.md R465). -/
def State.routerDrop (s : State) (router : Ep) (f : Frag) : State :=
  match router.kind with
  | .port => s.tenantDrop (s.linkReceiver f (laneLink router.num)) f
  | _ => s.tenantDrop router f

/-- ROUTER_FRAGMENT: fragment `i` passes the router of an end, of the plane it travels on, or the lane group of a link or port.
One whose tenant bit is clear there is discarded. -/
def execRouterFragment (i : Nat) (router : Ep) (s : State) : Res := runEvent s fun st =>
  match st.wire[i]? with
  | some f =>
    if st.routerAdmits router f.hdr then st else ({ st with wire := listErase st.wire i } : State).routerDrop router f
  | none => st

/-! ### Rate steps (R398) -/

/-- Time a link may take to retrain: 4 microseconds, in units. -/
def retrainUnits : Nat := 4000 * Config.tickUnits

/-- A link moved to a rate step: it retrains, the flits it has not delivered are held, and the black box is written. -/
def State.linkStep (s : State) (n : Nat) (step : Nat) (down : Bool) : State :=
  let held := s.wire.filter fun f => s.crosses f n
  let s1 := s.modLink n fun (l : Link) =>
    { l with step := BitVec.ofNat 2 step, downs := if down then l.downs + 1 else l.downs,
             ups := if down then l.ups else l.ups + 1, retrain := some (s.units + retrainUnits),
             heldFlits := l.heldFlits ++ held, cleanSince := l.cleanSince.map fun _ => s.units }
  ({ s1 with wire := s.wire.filter fun f => !s.crosses f n } : State).blackBox (s.linkSource n) 0x0A 0 (BitVec.ofNat 64 n)
    (BitVec.ofNat 64 step)

/-- Whether every lane's latest margin is at or above the threshold. -/
def Link.clean (l : Link) (n : Nat) : Bool :=
  (List.range Config.linkLanes).all fun i => decide (Config.marginThreshold n ≤ ((mapFind l.margins i).getD 0).toNat)

/-- A lane's eye margin measured. -/
def State.measure (s : State) (n lane : Nat) (margin : BitVec 8) : State :=
  s.modLink n fun (l : Link) =>
    let l1 := { l with margins := mapSet l.margins lane margin }
    { l1 with cleanSince := if l1.clean n then some (l.cleanSince.getD s.units) else none }

/-- Whether the package region's bit 3 delegates the return to a higher rate to the host (R57). -/
def State.linkAssisted (s : State) : Bool := bit (s.mgr.pkg.assist.getD 0) 3

/-- LINK_STEP_DOWN: a lane's margin measured; below the threshold, the link drops one step, and in host-assisted mode the
host is asked. -/
def execLinkStepDown (link lane : Nat) (margin : BitVec 8) (s : State) : Res := runEvent s fun st =>
  if link < 324 then
    let s1 := st.measure link lane margin
    let l := s1.link link
    if margin.toNat < Config.marginThreshold link ∧ l.step.toNat < 3 then
      let s2 := (s1.linkStep link (l.step.toNat + 1) true).modLink link fun (x : Link) => { x with auto := false }
      if s2.linkAssisted then
        s2.askHost 3 0 0
          (toBytes 2 link ++ toBytes 6 (l.step.toNat + 1) ++
            ((List.range Config.linkLanes).take 480).map fun i => (mapFind l.margins i).getD 0)
          (.link link)
      else s2
    else s1
  else st

/-- A link one step higher, where it is not at the full rate. -/
def State.linkUp (s : State) (n : Nat) : State :=
  let k := (s.link n).step.toNat
  if k = 0 then s else s.linkStep n (k - 1) false

/-- LINK_STEP_UP: after one second of clean margin, where the return is the hardware's (R56 bit 3). -/
def execLinkStepUp (link : Nat) (s : State) : Res := runEvent s fun st =>
  let l := st.link link
  match l.cleanSince with
  | some t =>
    if (st.linkAssisted = false ∨ l.auto = true) ∧ t + 10 ^ 9 * Config.tickUnits ≤ st.units then st.linkUp link else st
  | none => st

/-- RETRAIN_COMPLETE: the link is trained at its new step and delivers the flits it held. -/
def execRetrainComplete (link : Nat) (s : State) : Res := runEvent s fun st =>
  let l := st.link link
  match l.retrain with
  | some _ =>
    let s1 : State := { st with wire := st.wire ++ l.heldFlits }
    s1.modLink link fun (x : Link) => { x with retrain := none, heldFlits := [] }
  | none => st

/-- LINK_FLIT_RETRY: fragment `i` fails its check on a link, 324 the Sorcel link: retried there up to three times, then dropped
and counted. The Sorcel link has no link block (14_counters_and_records.md R466). -/
def execLinkFlitRetry (i link : Nat) (s : State) : Res := runEvent s fun st =>
  match st.wire[i]? with
  | some f =>
    if link ≤ 324 then
      let k := if f.link = link then f.retries else 0
      if k < 3 then
        let s1 : State := { st with wire := listSet st.wire i { f with retries := k + 1, link := link } }
        if link < 324 then s1.modLink link fun (l : Link) => { l with retries := l.retries + 1 } else s1
      else
        let s1 : State := { st with wire := listErase st.wire i }
        s1.count (s1.linkReceiver f link) ctrLOST 1
    else st
  | none => st

end Sys2Proof.Machine
end

