-- ==== Sys2Proof/Machine/PageMove.lean ====
section
/-!
DEFINITION. The manager's package DRAM, and page migration (09_memory_ordering.md R321, R322; 13_system_tables.md R441,
R442; 11_fragments_and_errands.md R394).
-/
namespace Sys2Proof.Machine

/-! ### Package DRAM held by the manager -/

/-- DRAM in use: the manager's own pages, mapped pages, spill pages, and pages that
migrations move to. -/
def State.dramUsed (s : State) : List (Nat × Nat) :=
  (s.mgr.parts.flatMap fun p => p.owned ++ p.maps.filterMap fun m =>
    match s.walk p.tnt m.pid m.va with
    | .leaf l => if l.tgt = 0 then some (l.pa, 2 ^ pageBits l.level) else none
    | _ => none) ++ (s.mgr.nets.flatMap fun n => n.spillPages.map fun a => (a, 65536)) ++ s.mgr.migs.map fun g => (g.newPa, 2 ^ pageBits g.level)

/-- Whether two ranges share a byte. -/
def overlaps (a n b m : Nat) : Bool := decide (a < b + m) && decide (b < a + n)

/-- The highest free range of a size at or below `a`, not below `lo`: one step down past each range in use. -/
def fitBelow (used : List (Nat × Nat)) (size lo : Nat) : Nat → Nat → Option Nat
  | 0, _ => none
  | n + 1, a =>
    match used.find? fun u => overlaps a size u.1 u.2 with
    | none => some a
    | some u =>
      let b := u.1 / size * size
      if b < lo + size then none else fitBelow used size lo n (b - size)

/-- A free range of `size` bytes, aligned to its size, from the top of a stack (DESIGN CHOICE: notes/assumptions/19.md). -/
def State.findDram (s : State) (stack size : Nat) : Option Nat :=
  let used := s.dramUsed
  let lo := stack * 2 ^ 36
  fitBelow used size lo (used.length + 1) (lo + (48 * 2 ^ 30 - size))

/-- A DRAM range scrubbed to zero with its poison bits. -/
def State.scrubDram (s : State) (a n : Nat) : State :=
  { s with dram := Mem.zero s.dram a n,
           dramPoison := s.dramPoison.filter fun g => !overlaps (32 * g) 32 a n,
           dramErrs := s.dramErrs.filter fun g => !overlaps (32 * g) 32 a n }

/-! ### Migration -/

/-- A leaf with its home die and page moved, and MIG as given. -/
def Leaf.moved (l : Leaf) (pa home : Nat) (mig : Bool) : Word :=
  setBit (setBits (setBits l.raw 55 16 (pa / 2 ^ 16)) 14 12 home) 7 mig

/-- An entry written where its table holds it. -/
def State.writeEntry (s : State) (a : Nat) (e : Word) : State := { s with dram := Mem.store s.dram a 8 e.toNat }

/-- A page's bytes and poison bits copied to another place in DRAM; errors found on the way become poison. -/
def State.copyPage (s : State) (a b n : Nat) : State :=
  let s1 := s.scrubDram b n
  let cells := s1.dram.filter fun c => decide (a ≤ c.1 ∧ c.1 < a + n)
  let psn := (s1.dramPoison ++ s1.dramErrs).filter fun g => overlaps (32 * g) 32 a n
  { s1 with dram := cells.foldl (fun m c => Mem.write m (c.1 - a + b) c.2) s1.dram,
            dramPoison := psn.foldl (fun l g => setInsert l (g - a / 32 + b / 32)) s1.dramPoison }

/-- The far address a message is for: a frame's TARGET, a strip's destination, or a request's address. -/
def farVaOf (m : Msg) : Nat :=
  if m.hdr.cls = clsERRAND then match addrForm (frameTarget m.payload) with
    | .far va => va
    | _ => 2 ^ 57
  else if m.hdr.cls = clsCOPY then (if (CopyArg.ofBits m.hdr.arg).far then copyVa m else 2 ^ 57)
  else (FarReq.ofMsg m).va

/-- Whether a message is for a page. -/
def Migration.holds (g : Migration) (m : Msg) : Bool :=
  let pid := if m.hdr.cls = clsERRAND then framePid m.payload else m.hdr.pid
  m.hdr.tnt == g.tnt && pid == g.pid && farVaOf m < 2 ^ 57 && pageBase g.level (farVaOf m) == g.va

/-- What waits in a station's executor queue for a page: not started, it is queued for the new home in its order (R321). -/
def State.pullQueued (s : State) (g : Migration) : State × List Msg :=
  (s.edges.map (·.1)).foldl (fun r n =>
    let q := (r.1.edge n).execQ
    let w := (r.1.edge n).resumed
    (r.1.modEdge n fun x => { x with execQ := q.filter fun e => !g.holds e.msg, resumed := w.filter fun m => !g.holds m },
     r.2 ++ (q.filter fun e => g.holds e.msg).map (·.msg) ++ w.filter g.holds)) (s, [])

/-- An access still to be performed on a page of package DRAM that has moved: where it now reaches. -/
def Reach.moved (r : Reach) (a b n : Nat) : Reach :=
  if r.mem = some 0 ∧ a ≤ r.lo ∧ r.hi ≤ a + n then { r with lo := r.lo - a + b, hi := r.hi - a + b } else r

/-- The updates and errand frames a slot of the page's process has sent, with their places after the page's move: a later access of
the slot meets them there (R307, R322). -/
def Slot.reachMoved (x : Slot) (g : Migration) (a : Nat) : Slot :=
  if x.tenant.toNat = g.tnt ∧ x.pid.toNat = g.pid then
    let f := fun (r : Reach) => r.moved a g.newPa (2 ^ pageBits g.level)
    { x with rupds := x.rupds.map fun u => (u.1, f u.2), errOut := x.errOut.map fun o => { o with reach := f o.reach } }
  else x

/-- The same for every slot of the package. -/
def State.reachMoved (s : State) (g : Migration) (a : Nat) : State :=
  { s with tiles := s.tiles.map fun p => (p.1, { p.2 with slots := p.2.slots.map fun x => x.reachMoved g a }) }

/-- PAGE_MIGRATION: the manager freezes the page of a PID at a far address, bound for a stack. The old home answers every
request in the step that applies it, so nothing is left to drain; what it has not started is queued. -/
def execPageMigration (tnt pid va stack : Nat) (s : State) : Res := runEvent s fun st =>
  match st.walk tnt pid va with
  | .leaf l =>
    if (st.migOf tnt pid va).isSome = true ∨ va ≠ pageBase l.level va ∨ 16 ≤ stack ∨ l.tgt = 2 then st
    else
      let pa := if l.tgt = 0 then st.findDram stack (2 ^ pageBits l.level) else some l.pa
      match pa with
      | some p =>
        let g : Migration := { tnt := tnt, pid := pid, va := va, level := l.level, newPa := p, newHome := stack / 2,
                               state := .frozen, queue := [], since := 0 }
        let (s1, ms) := st.pullQueued g
        (s1.writeEntry l.at' (setBit l.raw 7 true)).modMgr fun m => { m with migs := m.migs ++ [{ g with queue := ms }] }
      | none => st
  | _ => st

/-- What the old home's queue holds sent to the new home (R394); it goes on in its place where the two are one station. -/
def State.forwardQueued (s : State) (old new : Leaf) (m : Msg) : State :=
  let va := farVaOf m
  let here : Ep := ⟨.edge, old.station va⟩
  if new.station va = old.station va then s.goOn here m else s.forwardMsg here ⟨.edge, new.station va⟩ m

/-- MIGRATION_COPY: the page and its poison bits copied, the entry switched, and the queue forwarded in arrival order. -/
def execMigrationCopy (i : Nat) (s : State) : Res := runEvent s fun st =>
  match st.mgr.migs[i]? with
  | some g =>
    match g.state, st.walk g.tnt g.pid g.va with
    | .frozen, .leaf l =>
      let s1 := if l.tgt = 0 then (st.copyPage l.pa g.newPa (2 ^ pageBits l.level)).reachMoved g l.pa else st
      let l1 : Leaf := { l with raw := l.moved g.newPa g.newHome true }
      let g1 : Migration := { g with state := .switched, queue := [], since := st.time }
      let s2 := (s1.writeEntry l.at' l1.raw).modMgr fun m => { m with migs := listSet m.migs i g1 }
      g.queue.foldl (fun s' m => s'.forwardQueued l l1 m) s2
    | _, _ => st
  | none => st

/-- MIGRATION_COMPLETE: 2^24 ticks after the switch MIG is cleared and the forwarding record discarded. -/
def execMigrationComplete (i : Nat) (s : State) : Res := runEvent s fun st =>
  match st.mgr.migs[i]? with
  | some g =>
    if g.state = .switched ∧ g.since + 2 ^ 24 ≤ st.time then
      let s1 := st.modMgr fun m => { m with migs := listErase m.migs i }
      match st.walk g.tnt g.pid g.va with
      | .leaf l => s1.writeEntry l.at' (setBit l.raw 7 false)
      | _ => s1
    else st
  | none => st

end Sys2Proof.Machine
end

