-- ==== Sys2Proof/Machine/Reel.lean ====
section
/-!
DEFINITION. Reels at a station (12_reels.md): entries and member slots, joining and leaving, arrivals, phase completion,
votes and reductions, departures, and the REEL messages a station takes.
-/
namespace Sys2Proof.Machine

/-! ### Homes (R403) -/

/-- The station list of a partition. -/
def Partition.stations (p : Partition) : List Nat :=
  (List.range 32).filter fun n =>
    let x0 := 32 * (n / 4 % 4) + 16 * (n % 2)
    let y0 := 32 * (n / 16) + 16 * (n % 4 / 2)
    decide (4 * p.rx < x0 + 16) && decide (x0 < 4 * (p.rx + p.rw)) && decide (4 * p.ry < y0 + 16) &&
      decide (y0 < 4 * (p.ry + p.rh))

/-- The home of a reel name of a network. -/
def State.reelHome (s : State) (tnt netid name : Nat) : Nat :=
  let h := (netid ^^^ (name * 0x9E3779B1)) % 2 ^ 32
  match s.part tnt with
  | some p => p.stations.getD (h % p.stations.length) 0
  | none => 0

/-! ### Kinds (R405, R425) -/

def kMIXED : Nat := 63

/-- A phase's kind after an arrival of kind `k`. -/
def kindAfter (cur k : Nat) : Nat := if k = 0 then cur else if cur = 0 ∨ cur = k then k else kMIXED

/-- Whether a kind is a vote's. -/
def isVote (k : Nat) : Bool := decide (1 ≤ k) && decide (k ≤ 3)

/-- Whether a kind is a reduction's: 4 + 3 * op + type. -/
def isRed (k : Nat) : Bool := decide (4 ≤ k) && decide (k ≤ 12)

/-- One node of a reduction (R424). -/
def redNode (op ty : Nat) (a b : Nat) : Nat :=
  match ty with
  | 0 =>
    if op = 0 then (a + b) % 2 ^ 64
    else if op = 1 then (if signExtend a 64 ≤ signExtend b 64 then a else b)
    else (if signExtend a 64 < signExtend b 64 then b else a)
  | _ =>
    let f := if ty = 1 then fFP32 else fBF16
    if op = 0 then (fpAdd f 0 0 false a b).1 else (fpMinMax f (op == 2) a b).1

/-- Bits of a reduction's type. -/
def redWidth (ty : Nat) : Nat := if ty = 0 then 64 else if ty = 1 then 32 else 16

/-! ### The tables of a station -/

/-- The entry of a reel name. -/
def ReelSt.named (x : ReelSt) (netid name : Nat) : Option (Nat × ReelEntry) :=
  x.entries.find? fun e => e.2.netid.toNat == netid && e.2.name.toNat == name

/-- Members of an entry. -/
def ReelSt.of (x : ReelSt) (k : Nat) : List (Nat × Member) := x.members.filter fun m => m.2.entry == k

/-- The member a handle's fields and its process name, in an entry of the process's own network (R410). -/
def ReelSt.member (x : ReelSt) (k rank pid netid : Nat) : Option (Nat × Member) :=
  match mapFind x.entries k with
  | some e =>
    if e.netid.toNat = netid then
      x.members.find? fun m => m.2.entry == k && m.2.rank == rank && m.2.pid.toNat == pid
    else none
  | none => none

def ReelSt.setEntry (x : ReelSt) (k : Nat) (e : ReelEntry) : ReelSt := { x with entries := mapSet x.entries k e }
def ReelSt.setMember (x : ReelSt) (n : Nat) (m : Member) : ReelSt := { x with members := mapSet x.members n m }
def ReelSt.dropMember (x : ReelSt) (n : Nat) : ReelSt := { x with members := mapErase x.members n }

/-- An entry with no member and KEEP = 0 is freed (R417). -/
def ReelSt.tidy (x : ReelSt) (k : Nat) : ReelSt :=
  match mapFind x.entries k with
  | some e => if e.keep = false ∧ x.of k = [] then { x with entries := mapErase x.entries k } else x
  | none => x

/-- An entry as it is created (R411, R412). -/
def ReelEntry.fresh (tnt netid name scope : Nat) (keep : Bool) : ReelEntry where
  tnt := BitVec.ofNat 10 tnt
  netid := BitVec.ofNat 32 netid
  name := BitVec.ofNat 32 name
  scope := BitVec.ofNat 2 scope
  keep := keep
  phase := 0
  counted := 0
  arrived := 0
  early := 0
  departed := 0
  pkind := 0
  yes := 0
  votes := 0
  eyes := 0
  evotes := 0
  epkind := 0
  lastRes := 0
  lastDep := 0
  lastMix := false
  gang := false

/-! ### Answers -/

/-- The reel name of an entry of a station. -/
def State.reelName (s : State) (n k : Nat) : Nat :=
  match mapFind (s.reelSt n).entries k with
  | some e => e.name.toNat
  | none => 0

/-- STATUS (R434): the status, the phase first counted, the scope and the name asked for; RANK is the one asked for. -/
def State.reelStatus (s : State) (n : Nat) (m : Msg) (status first scope entry : Nat) : State :=
  let w := toWords m.payload
  s.sendReel ⟨.reel, n⟩ ⟨.tile, (wordAt w 3).toNat % 8192⟩ ((wordAt w 4).toNat % 8) m.hdr.tnt rSTATUS entry
    (bits (wordAt w 0) 57 48)
    [BitVec.ofNat 64 status, BitVec.ofNat 64 first, BitVec.ofNat 64 scope, wordAt w 0 &&& 0xFFFFFFFF] true m.hdr.pid
    m.hdr.netid

/-- A RESULT (R434). Bits [63:56] of its last word say which request it answers: 0 an arrival or a wait for a handle's
phase, 1 GWAIT, 2 GINFO (DESIGN CHOICE: notes/assumptions/31.md). -/
def State.reelResult (s : State) (n k : Nat) (e : ReelEntry) (w : ReelWaiter) (kind : Nat) (words : List Word) : State :=
  s.sendReel ⟨.reel, n⟩ ⟨.tile, w.tile⟩ w.slot e.tnt.toNat rRESULT k w.rank
    (words.take 3 ++ [wordAt words 3 ||| BitVec.ofNat 64 (kind * 2 ^ 56)]) true w.pid e.netid.toNat

/-- PHASE, LASTRES, LASTDEP, LASTMIX. -/
def ReelEntry.result (e : ReelEntry) (phase : Word) : List Word :=
  [phase, e.lastRes, e.lastDep.setWidth 64, BitVec.ofNat 64 (b2n e.lastMix)]

/-- Whether GWAIT's phase `t` has completed at an entry (R421). -/
def ReelEntry.past (e : ReelEntry) (t : BitVec 32) : Bool := decide ((e.phase - t - 1).toNat < 2 ^ 31)

/-- A waiter answered: it waited on a handle's phase, or on GWAIT's. -/
def State.answer (s : State) (n k : Nat) (e : ReelEntry) (w : ReelWaiter) : State :=
  if w.op = rWAIT then s.reelResult n k e w 1 (e.result (e.phase.setWidth 64))
  else s.reelResult n k e w 0 (e.result (w.phase.setWidth 64))

/-! ### Phase completion (R418) -/

/-- The vote or reduction of a phase that completes (R423-R425): LASTRES and LASTMIX. -/
def phaseResult (e : ReelEntry) (ms : List Member) : Word × Bool :=
  if e.pkind = kMIXED then (0, true)
  else if e.pkind = 1 then (b2w (e.yes == e.votes), false)
  else if e.pkind = 2 then (b2w (decide (0 < e.yes)), false)
  else if e.pkind = 3 then (BitVec.ofNat 64 e.yes, false)
  else if isRed e.pkind then
    let op := (e.pkind - 4) / 3
    let ty := (e.pkind - 4) % 3
    let vals := (List.range 1024).map fun i =>
      (ms.find? fun m => m.rank == i && m.hasVal && !m.vnext).map fun m => m.val.toNat % 2 ^ redWidth ty
    (BitVec.ofNat 64 ((tree (redNode op ty) vals).getD 0), false)
  else (0, false)

/-- A member as a phase opens. -/
def Member.opened (m : Member) : Member :=
  { m with state := .counted, arr := m.early, early := 0, hasVal := m.hasVal && m.vnext, vnext := false, ekind := 0,
           ey := 0, en := 0 }

/-- The open phase of entry `k` completed, and the next one opened. -/
def State.completePhase (s : State) (n k : Nat) (e : ReelEntry) : State :=
  let x := s.reelSt n
  let ms := (x.of k).map (·.2)
  let (res, mix) := phaseResult e ms
  let stay := (x.of k).filter fun m => m.2.state != .leaving
  let counted := stay.foldl (fun a m => a + m.2.weight) 0
  let e1 := { e with phase := e.phase + 1, lastRes := res, lastDep := e.departed, lastMix := mix, counted := counted,
                     arrived := e.early, early := 0, pkind := e.epkind, yes := e.eyes, votes := e.evotes, epkind := 0,
                     eyes := 0, evotes := 0, gang := false }
  let done := x.waiters.filter fun w => w.entry == k && (if w.op = rWAIT then e1.past w.phase else w.phase == e.phase)
  let x1 : ReelSt :=
    { x with entries := mapSet x.entries k e1,
             members := (x.members.filter fun m => !(m.2.entry == k && m.2.state == .leaving)).map fun m =>
               if m.2.entry = k then (m.1, m.2.opened) else m,
             waiters := x.waiters.filter fun w => !done.contains w }
  let s1 := s.modReel n fun _ => x1.tidy k
  done.foldl (fun s' w => s'.answer n k e1 w) s1

/-- The phases of entry `k` that are complete, at most `f` of them. -/
def State.tryComplete (s : State) (n k : Nat) : Nat → State
  | 0 => s
  | f + 1 =>
    match mapFind (s.reelSt n).entries k with
    | some e => if e.arrived = e.counted ∧ 0 < e.counted then (s.completePhase n k e).tryComplete n k f else s
    | none => s

/-! ### Leaving (R413, R429, R430) -/

/-- A member removed at once. -/
def State.removeMember (s : State) (n k i : Nat) (e : ReelEntry) : State :=
  s.modReel n fun x => ((x.setEntry k e).dropMember i).tidy k

/-- EPKIND once a member is gone. -/
def epkindWithout (x : ReelSt) (k i cur : Nat) : Nat :=
  if (x.of k).any fun m => m.1 != i && m.2.ekind != 0 then cur else 0

/-- A member leaves (R413). -/
def State.leaveReel (s : State) (n k i : Nat) (m : Member) : State :=
  let x := s.reelSt n
  match mapFind x.entries k with
  | none => s
  | some e =>
    match m.state with
    | .pending =>
      s.removeMember n k i { e with early := e.early - m.early, eyes := e.eyes - m.ey, evotes := e.evotes - m.en,
                                    epkind := epkindWithout x k i e.epkind }
    | _ =>
      if m.state = .counted ∧ m.arr = 0 ∧ m.early = 0 then
        (s.removeMember n k i { e with counted := e.counted - m.weight }).tryComplete n k 4
      else
        let rest := m.weight - m.arr
        (s.modReel n fun y =>
          (y.setEntry k { e with arrived := e.arrived + rest }).setMember i
            { m with state := .leaving, arr := m.weight }).tryComplete n k 4

/-- A departure (R429): the member leaves, then DEPARTED counts it. -/
def State.departReel (s : State) (n k i : Nat) (m : Member) : State :=
  (s.leaveReel n k i m).modReel n fun x =>
    match mapFind x.entries k with
    | some e => x.setEntry k { e with departed := e.departed + 1 }
    | none => x

/-! ### Creating and joining (R411, R414, R416) -/

/-- Member slots a network uses, and its entries (R404). -/
def State.slotUse (s : State) (netid : Nat) : Nat :=
  s.reels.foldl (fun a r => a + (r.2.members.filter fun m => match mapFind r.2.entries m.2.entry with
    | some e => e.netid.toNat == netid
    | none => false).length) 0

def State.entryUse (s : State) (netid : Nat) : Nat :=
  s.reels.foldl (fun a r => a + (r.2.entries.filter fun e => e.2.netid.toNat == netid).length) 0

/-- Why a CREATE or JOIN finds no space: 0 entry, 1 member slot, 2 budget (01_machine.md R72). -/
def State.reelWant (s : State) (n netid : Nat) (create : Bool) : Option Nat :=
  let x := s.reelSt n
  if create ∧ (freeKey x.entries 0 256).isNone = true then some 0
  else if (freeKey x.members 0 4096).isNone then some 1
  else if s.netLeft (·.vslots) s.slotUse (fun _ => 0) netid = 0 then some 2
  else if create ∧ s.netLeft (·.reelent) s.entryUse (fun _ => 0) netid = 0 then some 2
  else none

/-- NOSPACE answered, or the host asked in its place (R416). -/
def State.noSpace (s : State) (n : Nat) (m : Msg) (want : Option Nat) : State :=
  let w := toWords m.payload
  match want with
  | some k =>
    if bit (s.assistBits m.hdr.tnt) 2 then
      let tag := s.mgr.nextTag.toNat
      (s.askHost 2 m.hdr.tnt m.hdr.netid (toBytes 4 (bits (wordAt w 0) 31 0) ++ [BitVec.ofNat 8 n, BitVec.ofNat 8 k])
        (.reel n)).modReel n fun x => { x with asked := x.asked ++ [(tag, m)] }
    else s.reelStatus n m 4 0 0 0
  | none => s.reelStatus n m 4 0 0 0

/-- A member slot as CREATE or JOIN takes it. -/
def joinMember (m : Msg) (k : Nat) (st : MemberState) (first : BitVec 32) : Member :=
  let w := toWords m.payload
  { entry := k, pid := (wordAt w 2).setWidth 16, tile := (wordAt w 3).toNat % 8192, slot := (wordAt w 4).toNat % 8,
    rank := bits (wordAt w 0) 57 48, weight := bits (wordAt w 0) 47 32, state := st, arr := 0, early := 0, val := 0,
    hasVal := false, vnext := false, ekind := 0, ey := 0, en := 0, first := first, made := bits m.hdr.arg 7 0 == rCREATE }

/-- A CREATE or JOIN at its station. A repeated request of one process, rank and name is answered as the first was; a member
slot that is leaving still holds its rank. -/
def State.reelJoin (s : State) (n : Nat) (m : Msg) (create : Bool) : State :=
  let x := s.reelSt n
  let w := toWords m.payload
  let name := bits (wordAt w 0) 31 0
  let rank := bits (wordAt w 0) 57 48
  let pid := (wordAt w 2).toNat % 65536
  match x.named m.hdr.netid name with
  | some (k, e) =>
    match x.member k rank pid m.hdr.netid with
    | some (_, o) =>
      if create = o.made ∧ o.state ≠ .leaving then s.reelStatus n m 0 o.first.toNat e.scope.toNat k
      else s.reelStatus n m (if create then 2 else 1) 0 0 0
    | none =>
      if create then s.reelStatus n m 2 0 0 0
      else if (x.of k).any (fun o => o.2.rank == rank) then s.reelStatus n m 1 0 0 0
      else if 1024 ≤ (x.of k).length then s.noSpace n m none
      else match s.reelWant n m.hdr.netid false, freeKey x.members 0 4096 with
        | none, some i =>
          let now := e.arrived == 0
          let first := if now then e.phase else e.phase + 1
          let o := joinMember m k (if now then .counted else .pending) first
          let e1 := if now then { e with counted := e.counted + o.weight } else e
          (s.modReel n fun y => (y.setEntry k e1).setMember i o).reelStatus n m 0 first.toNat e.scope.toNat k
        | want, _ => s.noSpace n m want
  | none =>
    if create then
      match s.reelWant n m.hdr.netid true, freeKey x.entries 0 256, freeKey x.members 0 4096 with
      | none, some k, some i =>
        let sc := (wordAt w 1).toNat % 4
        let o := joinMember m k .counted 0
        let e := { ReelEntry.fresh m.hdr.tnt m.hdr.netid name sc false with counted := o.weight }
        (s.modReel n fun y => (y.setEntry k e).setMember i o).reelStatus n m 0 0 sc k
      | want, _, _ => s.noSpace n m want
    else s.reelStatus n m 3 0 0 0

/-! ### Arrivals and waits (R419-R425) -/

/-- A request through a handle that names no member slot of its process: discarded, counted and recorded (R410). -/
def State.badHandle (s : State) (n : Nat) (m : Msg) : State :=
  (s.count ⟨.reel, n⟩ ctrDISCARD 1).blackBox ⟨.reel, n⟩ 0x08 m.hdr.tnt (BitVec.ofNat 64 m.hdr.act)
    (BitVec.ofNat 64 m.hdr.pid)

/-- A waiter kept; an earlier request of the member for the same is replaced. -/
def ReelSt.await (x : ReelSt) (w : ReelWaiter) : ReelSt :=
  { x with waiters := (x.waiters.filter fun v => !(v.entry == w.entry && v.pid == w.pid && v.rank == w.rank &&
      v.op == w.op)) ++ [w] }

/-- An arrival of a member toward the open phase (`next` false) or the one after it. -/
def arrive (e : ReelEntry) (o : Member) (next : Bool) (n kind : Nat) (v : Word) : ReelEntry × Member :=
  if next then
    ({ e with early := e.early + n, epkind := kindAfter e.epkind kind,
              eyes := if isVote kind then e.eyes + v.toNat else e.eyes,
              evotes := if isVote kind then e.evotes + n else e.evotes },
     { o with early := o.early + n, ekind := if kind = 0 then o.ekind else if isVote kind then 1 else 2,
              ey := if isVote kind then o.ey + v.toNat else o.ey, en := if isVote kind then o.en + n else o.en,
              val := if isRed kind then v else o.val, hasVal := o.hasVal || isRed kind, vnext := o.vnext || isRed kind })
  else
    ({ e with arrived := e.arrived + n, pkind := kindAfter e.pkind kind,
              yes := if isVote kind then e.yes + v.toNat else e.yes,
              votes := if isVote kind then e.votes + n else e.votes },
     { o with arr := o.arr + n, val := if isRed kind then v else o.val, hasVal := o.hasVal || isRed kind })

/-- ARRIVE at its station: words phase, n, kind, y or value, WAIT. -/
def State.reelArrive (s : State) (n : Nat) (m : Msg) : State :=
  let x := s.reelSt n
  let w := toWords m.payload
  let k := bits m.hdr.arg 15 8
  match mapFind x.entries k, x.member k (bits m.hdr.arg 25 16) m.hdr.pid m.hdr.netid with
  | some e, some (i, o) =>
    let p := (wordAt w 0).toNat % 32
    let open' := e.phase.toNat % 32 == p
    let next := (e.phase + 1).toNat % 32 == p
    if open' || next then
      let (e1, o1) := arrive e o next (wordAt w 1).toNat (wordAt w 2).toNat (wordAt w 3)
      let v : ReelWaiter := { entry := k, pid := m.hdr.pid, tile := o.tile, slot := o.slot, rank := o.rank,
                              phase := if next then e.phase + 1 else e.phase, op := rARRIVE }
      (s.modReel n fun y =>
        let y1 := (y.setEntry k e1).setMember i o1
        if wordAt w 4 = 1 then y1.await v else y1).tryComplete n k 4
    else s.badHandle n m
  | _, _ => s.badHandle n m

/-- WAIT at its station: words phase, and 1 for GWAIT. -/
def State.reelWait (s : State) (n : Nat) (m : Msg) : State :=
  let x := s.reelSt n
  let w := toWords m.payload
  let k := bits m.hdr.arg 15 8
  match mapFind x.entries k, x.member k (bits m.hdr.arg 25 16) m.hdr.pid m.hdr.netid with
  | some e, some (_, o) =>
    let v : ReelWaiter := { entry := k, pid := m.hdr.pid, tile := o.tile, slot := o.slot, rank := o.rank,
                            phase := e.phase, op := rARRIVE }
    if wordAt w 1 = 1 then
      let v1 := { v with phase := (wordAt w 0).setWidth 32, op := rWAIT }
      if e.past v1.phase then s.answer n k e v1 else s.modReel n fun y => y.await v1
    else
      let p := (wordAt w 0).toNat % 32
      if e.phase.toNat % 32 = p then s.modReel n fun y => y.await v
      else if (e.phase + 1).toNat % 32 = p then s.modReel n fun y => y.await { v with phase := e.phase + 1 }
      else if (e.phase - 1).toNat % 32 = p then s.answer n k e { v with phase := e.phase - 1 }
      else s.badHandle n m
  | _, _ => s.badHandle n m

/-- The members counted for the open phase. -/
def ReelSt.countedOf (x : ReelSt) (k : Nat) : List Member :=
  ((x.of k).map (·.2)).filter fun m => m.state != .pending

/-- INFO at its station. -/
def State.reelInfo (s : State) (n : Nat) (m : Msg) : State :=
  let x := s.reelSt n
  let k := bits m.hdr.arg 15 8
  match mapFind x.entries k, x.member k (bits m.hdr.arg 25 16) m.hdr.pid m.hdr.netid with
  | some e, some (_, o) =>
    let v : ReelWaiter := { entry := k, pid := m.hdr.pid, tile := o.tile, slot := o.slot, rank := o.rank,
                            phase := e.phase, op := rINFO }
    s.reelResult n k e v 2 [e.phase.setWidth 64, BitVec.ofNat 64 (x.countedOf k).length, e.departed.setWidth 64, 0]
  | _, _ => s.badHandle n m

/-- Gang notice at a station (R432). -/
def State.reelGang (s : State) (n : Nat) (m : Msg) : State :=
  let x := s.reelSt n
  let k := bits m.hdr.arg 15 8
  match mapFind x.entries k, x.member k (bits m.hdr.arg 25 16) m.hdr.pid m.hdr.netid with
  | some e, some _ =>
    if e.gang then s
    else
      let s1 := s.modReel n fun y => y.setEntry k { e with gang := true }
      ((x.of k).filter fun o => o.2.pid.toNat != m.hdr.pid).foldl (fun s' o =>
        s'.sendReel ⟨.reel, n⟩ ⟨.tile, o.2.tile⟩ o.2.slot e.tnt.toNat rGANG k o.2.rank [o.2.pid.setWidth 64] true
          o.2.pid.toNat e.netid.toNat) s1
  | _, _ => s.badHandle n m

/-- A CPY.MC strip's member set (R297): the tiles of the members counted for the open phase, handed to the copy that
awaits it. -/
def State.reelExpand (s : State) (n : Nat) (m : Msg) : State :=
  let x := s.reelSt n
  let k := bits m.hdr.arg 15 8
  match mapFind x.entries k, x.member k (bits m.hdr.arg 25 16) m.hdr.pid m.hdr.netid with
  | some _, some (_, o) =>
    let ts := ((x.countedOf k).map (·.tile)).foldl setInsert []
    s.modSlot o.tile (Fin.ofNat 8 o.slot) fun y =>
      match y.pend with
      | .copy c => { y with pend := .copy { c with members := some ts }, wait := none }
      | _ => y
  | _, _ => s.badHandle n m

/-- MOVED (R433): words PID, tile, slot. -/
def State.reelMoved (s : State) (n : Nat) (m : Msg) : State :=
  let w := toWords m.payload
  let k := bits m.hdr.arg 15 8
  let pid := (wordAt w 0).toNat % 65536
  let rank := bits m.hdr.arg 25 16
  let t := (wordAt w 1).toNat % 8192
  let j := (wordAt w 2).toNat % 8
  match (s.reelSt n).member k rank pid m.hdr.netid with
  | some (i, o) =>
    s.modReel n fun y =>
      let y1 := y.setMember i { o with tile := t, slot := j }
      { y1 with waiters := y1.waiters.map fun v =>
          if v.entry = k ∧ v.pid = pid ∧ v.rank = rank then { v with tile := t, slot := j } else v }
  | none => s.badHandle n m

/-! ### The rows -/

/-- The message at index `i` of a station's inbox, taken, when it is the first REEL message there and has operation code
`op`; `f` is its effect (R434). -/
def stationRow (op : Nat) (ep : Ep) (i : Nat) (s : State) (f : State → Nat → Msg → State) : Res := runEvent s fun st =>
  let box := (st.fab ep).inbox
  match box[i]? with
  | some m =>
    if ep.kind = .reel ∧ m.hdr.cls = clsREEL ∧ bits m.hdr.arg 7 0 = op
        ∧ findIdx (fun o : Msg => o.hdr.cls == clsREEL) box = some i then
      f (st.takeMsg ep i m) ep.num m
    else st
  | none => st

/-- REEL_CREATE (R411). -/
def execReelCreate (ep : Ep) (i : Nat) (s : State) : Res := stationRow rCREATE ep i s fun st n m => st.reelJoin n m true

/-- REEL_JOIN (R411, R414). -/
def execReelJoin (ep : Ep) (i : Nat) (s : State) : Res := stationRow rJOIN ep i s fun st n m => st.reelJoin n m false

/-- The member a LEAVE or DEPART names, its PID in the payload. -/
def State.leaver (s : State) (n : Nat) (m : Msg) : Option (Nat × Member) :=
  (s.reelSt n).member (bits m.hdr.arg 15 8) (bits m.hdr.arg 25 16) ((wordAt (toWords m.payload) 0).toNat % 65536) m.hdr.netid

/-- REEL_LEAVE (R413). -/
def execReelLeave (ep : Ep) (i : Nat) (s : State) : Res := stationRow rLEAVE ep i s fun st n m =>
  match st.leaver n m with
  | some (j, o) => st.leaveReel n o.entry j o
  | none => st.badHandle n m

/-- REEL_ARRIVE (R419). -/
def execReelArrive (ep : Ep) (i : Nat) (s : State) : Res := stationRow rARRIVE ep i s fun st n m => st.reelArrive n m

/-- REEL_WAIT (R421, R419). -/
def execReelWait (ep : Ep) (i : Nat) (s : State) : Res := stationRow rWAIT ep i s fun st n m => st.reelWait n m

/-- REEL_INFO (R426). -/
def execReelInfo (ep : Ep) (i : Nat) (s : State) : Res := stationRow rINFO ep i s fun st n m => st.reelInfo n m

/-- REEL_DEPART (R429). -/
def execReelDepart (ep : Ep) (i : Nat) (s : State) : Res := stationRow rDEPART ep i s fun st n m =>
  match st.leaver n m with
  | some (j, o) => st.departReel n o.entry j o
  | none => st.badHandle n m

/-- REEL_MOVED (R433). -/
def execReelMoved (ep : Ep) (i : Nat) (s : State) : Res := stationRow rMOVED ep i s fun st n m => st.reelMoved n m

/-- REEL_EXPAND (R297). -/
def execReelExpand (ep : Ep) (i : Nat) (s : State) : Res := stationRow rEXPAND ep i s fun st n m => st.reelExpand n m

/-- REEL_GANG: at a station, the notice sent on; at a member's tile, TMP for its slot (R432). -/
def execReelGang (ep : Ep) (i : Nat) (s : State) : Res :=
  if ep.kind = .tile then runEvent s fun st =>
    match (st.fab ep).inbox[i]? with
    | some m =>
      if m.hdr.cls = clsREEL ∧ bits m.hdr.arg 7 0 = rGANG then
        let k := Fin.ofNat 8 m.hdr.aslot
        let x := st.slot ep.num k
        let s1 := st.takeMsg ep i m
        if x.run ≠ .empty ∧ x.pid.toNat = m.hdr.pid then s1.modTile ep.num fun y => y.setPending (32 + k.val) else s1
      else st
    | none => st
  else stationRow rGANG ep i s fun st n m => st.reelGang n m

/-- The key of an answer: which request it answers, its station and entry, and the phase of a handle's wait. -/
def reelKey (kind station entry phase : Nat) : Nat :=
  ((kind * 64 + station) * 256 + entry) * 32 + (if kind = 0 then phase % 32 else 0)

/-- An answer handed to the slot that awaits it. -/
def State.reelAnswer (s : State) (ep : Ep) (i op : Nat) (key : Msg → Nat) (ans : Msg → List Word) : State :=
  match (s.fab ep).inbox[i]? with
  | some m =>
    if ep.kind = .tile ∧ m.hdr.cls = clsREEL ∧ bits m.hdr.arg 7 0 = op then
      (s.takeMsg ep i m).modSlot ep.num (Fin.ofNat 8 m.hdr.aslot) fun x =>
        if x.pend = .reel op (key m) then { x with pend := .reelDone op (ans m), wait := none } else x
    else s
  | none => s

/-- REEL_STATUS: the answer to a CREATE or JOIN at the slot that awaits it (R411). -/
def execReelStatus (ep : Ep) (i : Nat) (s : State) : Res := runEvent s fun st =>
  st.reelAnswer ep i rSTATUS (fun m => (wordAt (toWords m.payload) 3).toNat)
    (fun m => toWords m.payload ++ [BitVec.ofNat 64 (bits m.hdr.arg 15 8), BitVec.ofNat 64 m.hdr.src.num])

/-- REEL_RESULT: a station's answer at the slot that awaits it (R422). -/
def execReelResult (ep : Ep) (i : Nat) (s : State) : Res := runEvent s fun st =>
  st.reelAnswer ep i rRESULT (fun m =>
      let w := toWords m.payload
      reelKey (bits (wordAt w 3) 63 56) m.hdr.src.num (bits m.hdr.arg 15 8) (wordAt w 0).toNat)
    (fun m => let w := toWords m.payload
      w.take 3 ++ [wordAt w 3 &&& 0x00FFFFFFFFFFFFFF])

end Sys2Proof.Machine
end

