-- ==== Sys2Proof/Machine/Park.lean ====
section
/-!
DEFINITION. The ready queue, park records and the watch list, and the SCHED instructions but MIGRATE and FWDSET
(01_machine.md R33-R36; 07_control_registers.md R250-R252; 18_program_task_kernel.md R484-R486).
-/
namespace Sys2Proof.Machine

/-! ### Waking a record (R35, R36) -/

/-- FLAGS of a record. -/
def Tile.recFlags (x : Tile) (a : Nat) : Nat := Mem.load x.mem (a + 2) 2

def Tile.setRecFlags (x : Tile) (a v : Nat) : Tile := { x with mem := Mem.store x.mem (a + 2) 2 v }

def Tile.unwatch (x : Tile) (a : Nat) : Tile := { x with watch := x.watch.filter fun w => w.addr != a }

/-- A record woken: READY, WATCHED cleared, its address appended to the FIFO of its priority, WAKE raised. A record
already ready changes nothing (R36). -/
def Tile.wakeRecord (x : Tile) (a : Nat) : Tile :=
  let fl := x.recFlags a
  if fl % 2 = 1 then x
  else
    let x1 := (x.unwatch a).setRecFlags a (fl / 4 * 4 + 1)
    let p := Fin.ofNat 4 (Mem.load x.mem (a + 4) 1)
    let full := decide (32 ≤ x.ready[p].length)
    let old := if bit x.supStatus 48 then b2n (bit x.wakeEval 63) else 0
    let ev : Word := BitVec.ofNat 64 (a % 65536 + max (b2n full) old * 2 ^ 63)
    let x2 := if full then x1 else { x1 with ready := x1.ready.set p (x1.ready[p] ++ [BitVec.ofNat 64 a]) }
    ({ x2 with wakeEval := ev } : Tile).setPending 48 |>.perf 0x0016 none 1

/-- A watched record whose condition has come to hold: woken while its WATCHED is set, otherwise taken off the list
(R251). -/
def Tile.fireRecord (x : Tile) (a : Nat) : Tile :=
  if x.recFlags a / 2 % 2 = 1 then x.wakeRecord a else x.unwatch a

/-- A token or end token delivered to the receive end process `pid` holds at `port` (R484). A watched record's PID is read as the
token arrives (DESIGN CHOICE: notes/assumptions/67.md). -/
def Tile.delivered (x : Tile) (pid port : Nat) : Tile :=
  (x.watch.filter fun w => Mem.load x.mem w.addr 2 == pid && (w.wait == 1 || w.wait == 3) && w.port == port).foldl
    (fun y w => y.fireRecord w.addr) x

/-- Whether a receive end holds a data token, present or spilled, whatever its turn, or its end token (R484). -/
def RecvEnd.holds (r : RecvEnd) : Bool :=
  !r.held.isEmpty || !r.spilled.isEmpty || !r.early.isEmpty || !r.ahead.isEmpty || r.endRec.isSome

/-- Whether the receive end a process holds at a port has a data token or its end token (R484). -/
def Tile.portReady (x : Tile) (pid port : Nat) : Bool :=
  x.ends.any fun e => match e.2 with
    | .recv r => r.pid == pid && r.port == port && !r.dead && r.holds
    | .send _ => false

/-- PARK_DEADLINE_EXPIRY (R35, R251). -/
def execParkDeadlineExpiry (tile i : Nat) (s : State) : Res := runEvent s fun st =>
  match (st.tile tile).watch[i]? with
  | some w =>
    if (w.wait = 2 ∨ w.wait = 3) ∧ w.deadline ≤ st.time then st.modTile tile fun x => x.fireRecord w.addr else st
  | none => st

/-! ### Operands (R252) -/

/-- A record address: the range, then the alignment. -/
def recAddr (a : Word) : Except Stop Nat :=
  if a.toNat < 0xC0000 ∨ 0xCFFC0 < a.toNat then .error (.trap cADDRESS_FORM a)
  else if a.toNat % 64 ≠ 0 then .error (.trap cMISALIGN a)
  else .ok a.toNat

/-- A slot number: bits [2:0], the others 0, or ILLEGAL; `notMe` refuses the issuing slot. -/
def slotArg (s : State) (enc : Nat) (notMe : Bool) (q : Word) : Except Stop (Fin 8) :=
  if 8 ≤ q.toNat ∨ (notMe = true ∧ q.toNat = s.cur.slot.val) then .error (.trap cILLEGAL (BitVec.ofNat 64 enc))
  else .ok (Fin.ofNat 8 q.toNat)

/-- The save area of R250: 64-byte aligned, wholly in scratchpad. -/
def saveArea (q : Word) : Except Stop Nat :=
  if q.toNat % 64 ≠ 0 ∨ 0xC0000 < q.toNat + 0xF540 then
    .error (.trap cENGINE_FAULT (BitVec.ofNat 64 (2 ^ 56 + q.toNat % 2 ^ 56)))
  else .ok q.toNat

/-- The slot number and, for a vector slot with a non-zero register, the save area of SLOTGO and SLOTSTOP. -/
def slotAndArea (s : State) (enc : Nat) (q area : Word) : Except Stop (Fin 8 × Option Nat) :=
  match slotArg s enc true q with
  | .error e => .error e
  | .ok k =>
    if s.me.prv < 1 then .error (.trap cPRIVILEGE (BitVec.ofNat 64 enc))
    else if k.val < 2 ∧ area ≠ 0 then
      match saveArea area with
      | .ok a => .ok (k, some a)
      | .error e => .error e
    else .ok (k, none)

/-! ### The long-vector save area (R250) -/

def VecCtx.saveBytes (c : VecCtx) : List Byte :=
  (c.v.toList.flatMap fun r => toBytes 1024 r.toNat) ++ (c.x.toList.flatMap fun r => toBytes 512 r.toNat)
  ++ (c.m.toList.flatMap fun r => toBytes 512 r.toNat) ++ (c.acc.toList.flatMap fun r => toBytes 4096 r.toNat)
  ++ (c.rs.toList.flatMap fun r => toBytes 128 r.toNat) ++ toBytes 512 c.xm.toNat ++ toBytes 512 c.fmask.toNat
  ++ toBytes 8 c.vl.toNat ++ toBytes 8 c.vt.toNat ++ toBytes 8 c.xclass.toNat ++ c.pois.toList
  ++ [c.accPois.setWidth 8] ++ List.replicate 7 0

/-- The context a save area holds at `a`, VT and VL as their words stand. -/
def VecCtx.raw (m : Memory) (a : Nat) : VecCtx where
  v := Vector.ofFn fun i => BitVec.ofNat 8192 (Mem.load m (a + 1024 * i.val) 1024)
  x := Vector.ofFn fun i => BitVec.ofNat 4096 (Mem.load m (a + 0x8000 + 512 * i.val) 512)
  m := Vector.ofFn fun i => BitVec.ofNat 4096 (Mem.load m (a + 0xC000 + 512 * i.val) 512)
  acc := Vector.ofFn fun i => BitVec.ofNat 32768 (Mem.load m (a + 0xD000 + 4096 * i.val) 4096)
  rs := Vector.ofFn fun i => BitVec.ofNat 1024 (Mem.load m (a + 0xF000 + 128 * i.val) 128)
  xm := BitVec.ofNat 4096 (Mem.load m (a + 0xF100) 512)
  fmask := BitVec.ofNat 4096 (Mem.load m (a + 0xF300) 512)
  vl := BitVec.ofNat 13 (Mem.load m (a + 0xF500) 8)
  vt := BitVec.ofNat 32 (Mem.load m (a + 0xF508) 8)
  xclass := BitVec.ofNat 3 (Mem.load m (a + 0xF510) 8)
  pois := Vector.ofFn fun i => Mem.read m (a + 0xF518 + i.val)
  accPois := BitVec.ofNat 2 (Mem.load m (a + 0xF538) 1)

/-- The context a save area holds at `a`: its VT word follows the rule of R186, so that no reserved bit is stored
(DEDUCED: notes/assumptions/54.md). -/
def VecCtx.restore (m : Memory) (a : Nat) : VecCtx :=
  (VecCtx.raw m a).setVt (BitVec.ofNat 64 (Mem.load m (a + 0xF508) 8))

/-! ### SCHED -/

/-- RQPUSH (R252). -/
def execRqpush (t d rs : BitVec 5) (s : State) : Res :=
  runBody s (needPrv (rEnc t 0 0x1B d rs) 1 fun st =>
    match recAddr (st.g rs) with
    | .error e => .error e
    | .ok a =>
      let p := Fin.ofNat 4 (st.g t).toNat
      if 32 ≤ st.myTile.ready[p].length then .ok ((st.setG d 1).adv 4)
      else
        let s1 := st.updTile fun x =>
          let m := Mem.store x.mem (a + 4) 1 (Mem.load x.mem (a + 4) 1 / 4 * 4 + p.val)
          ({ x with mem := m, ready := x.ready.set p (x.ready[p] ++ [BitVec.ofNat 64 a]) } : Tile).setRecFlags a
            (x.recFlags a / 2 * 2 + 1)
        .ok ((s1.setG d 0).adv 4))

/-- The highest-priority non-empty FIFO (R33). -/
def Tile.readyHead (x : Tile) : Option (Fin 4 × Word × List Word) :=
  (List.finRange 4).findSome? fun p => match x.ready[p] with
    | h :: r => some (p, h, r)
    | [] => none

/-- RQPOP (R252). -/
def execRqpop (d : BitVec 5) (s : State) : Res :=
  runBody s (needPrv (rEnc 0 1 0x1B d 0) 1 fun st =>
    match st.myTile.readyHead with
    | some (p, h, r) => .ok (((st.updTile fun x => { x with ready := x.ready.set p r }).setG d h).adv 4)
    | none => .ok ((st.setG d 0).adv 4))

/-- SLOTGO: a stopped slot starts at its image's PC, its long-vector context restored from g t (R250, R252). -/
def execSlotgo (t rs : BitVec 5) (s : State) : Res :=
  runBody s fun st =>
    match slotAndArea st (rEnc t 2 0x1B 0 rs) (st.g rs) (st.g t) with
    | .error e => .error e
    | .ok (k, area) =>
      if (st.slot st.cur.tile k).run = .stopped then
        let start := fun (x : State) => x.modSlot st.cur.tile k fun y => { y with run := .running, wait := none, pend := .none }
        match area with
        | none => .ok ((start st).adv 4)
        | some a =>
          match st.readTile st.cur.tile a 0xF540 with
          | .error e => .error e
          | .ok (s1, _, psn) =>
            let c := VecCtx.restore s1.myTile.mem a
            .ok (start ((s1.notePoison psn).updTile fun x => x.modVec k fun _ => c) |>.adv 4)
      else .ok (st.adv 4)

/-- Gang notices of a slot that is stopped, when its network's effective gang bit is 1 (12_reels.md R432). -/
def State.gangNotices (s : State) (t : Nat) (k : Fin 8) : State :=
  if s.effNet (·.gang) (s.slot t k).netid.toNat = 1 then s.noticeHomes t k rGANG [(s.slot t k).pid.setWidth 64] else s

/-- A running slot told to stop; it is stopped once what it has issued completes (R252). -/
def State.stopSlot (s : State) (t : Nat) (k : Fin 8) : State :=
  if (s.slot t k).run = .running then
    (s.gangNotices t k).modSlot t k fun y => Slot.tidyStop { y with run := .stopping }
  else s

/-- A slot that SLOTSTOP or MIGRATE stops told to: one that DEBUG_HALT holds is at its boundary, and is stopped once its updates
and errand frames are answered (R507); one that is to halt halts first. -/
def State.stopNamed (s : State) (t : Nat) (k : Fin 8) : State :=
  if (s.slot t k).run = .halted then s.modSlot t k fun y => Slot.tidyStop { y with run := .stopping } else s.stopSlot t k

/-- Whether a slot told to stop has still to do so. -/
def Slot.yetToStop (x : Slot) : Bool := x.run == .stopping || x.run == .halting

/-- SLOTSTOP: the issuer waits until the slot has stopped, then its long-vector context is saved to g t (R250, R252). -/
def execSlotstop (t rs : BitVec 5) (s : State) : Res :=
  runBody s fun st =>
    match slotAndArea st (rEnc t 3 0x1B 0 rs) (st.g rs) (st.g t) with
    | .error e => .error e
    | .ok (k, area) =>
      let s1 := st.stopNamed st.cur.tile k
      if (s1.slot st.cur.tile k).yetToStop then .error (.waitIn (s1.updMe fun y => { y with pend := .begun }) .issue)
      else
        let s2 := s1.updMe fun y => { y with pend := .none }
        match area with
        | some a => .ok ((s2.slotWrite st.cur.tile st.cur.tile a (s2.myTile.vecs[vecIdx k].saveBytes) false).adv 4)
        | none => .ok (s2.adv 4)

/-- TIMERSET (R248, R252). -/
def execTimerset (t rs : BitVec 5) (s : State) : Res :=
  let enc := rEnc t 6 0x1B 0 rs
  runBody s fun st =>
    match slotArg st enc false (st.g rs) with
    | .error e => .error e
    | .ok k => needPrv enc 1 (fun x =>
        let v := if x.g t = 0 then none else some (x.time + (x.g t).toNat)
        .ok ((x.updTile fun y => { y with timers := y.timers.set k v }).adv 4)) st

/-- PARKWAIT (R251, R252). -/
def execParkwait (d rs : BitVec 5) (s : State) : Res :=
  runBody s (needPrv (rEnc 0 7 0x1B d rs) 1 fun st =>
    match recAddr (st.g rs) with
    | .error e => .error e
    | .ok a =>
      let x := st.myTile
      let w := Mem.load x.mem (a + 5) 1
      let port := Mem.load x.mem (a + 6) 1 % 16
      let dl := Mem.load x.mem (a + 16) 8
      let pid := Mem.load x.mem a 2
      let due := ((w == 2 || w == 3) && decide (dl ≤ st.time)) || ((w == 1 || w == 3) && x.portReady pid port)
      if due then .ok (((st.updTile fun y => y.wakeRecord a).setG d 1).adv 4)
      else
        let l := x.watch.filter fun r => r.addr != a
        let l1 := if 32 ≤ l.length then l.filter fun r => x.recFlags r.addr / 2 % 2 == 1 else l
        if 32 ≤ l1.length then .ok (((st.updTile fun y => { y with watch := l1 }).setG d 2).adv 4)
        else
          let r : WatchRec := { addr := a, pid := pid, wait := w, port := port, deadline := dl, lastProbe := none }
          .ok (((st.updTile fun y =>
            ({ y with watch := l1 ++ [r] } : Tile).setRecFlags a (x.recFlags a / 4 * 4 + 2 + x.recFlags a % 2)).setG d 0).adv 4))

end Sys2Proof.Machine
end

