-- ==== Sys2Proof/Machine/Tokens.lean ====
section
/-!
DEFINITION. Messages of a channel at its ends: TOKENS, CREDIT and the consumer-ended notice (10_channels.md R329-R332,
R340, R352; 11_fragments_and_errands.md R365, R374, R375).
-/
namespace Sys2Proof.Machine

/-! ### The ends of a channel at a place -/

/-- The receive end of a channel at a tile. -/
def State.findRecv (s : State) (t netid chan : Nat) : Option (Nat × RecvEnd) :=
  (s.tile t).ends.findSome? fun p => match p.2 with
    | .recv e => if e.netid = netid ∧ e.chan = chan then some (p.1, e) else none
    | .send _ => none

/-- The send end of a channel at a tile. -/
def State.findSend (s : State) (t netid chan : Nat) : Option (Nat × SendEnd) :=
  (s.tile t).ends.findSome? fun p => match p.2 with
    | .send e => if e.netid = netid ∧ e.chan = chan then some (p.1, e) else none
    | .recv _ => none

/-- The server pair of a request channel, or of its reply channel, at a station. -/
def State.findPair (s : State) (n netid chan : Nat) : Option (Nat × ServerPair) :=
  match findIdx (fun p : ServerPair => p.netid == netid && p.chan == chan / 2 * 2) (s.edge n).pairs with
  | some i => (s.edge n).pairs[i]?.map fun p => (i, p)
  | none => none

def State.setPair (s : State) (n i : Nat) (p : ServerPair) : State :=
  s.modEdge n fun x => { x with pairs := listSet x.pairs i p }

/-- The channel a message names. -/
def MsgHdr.chanOf (h : MsgHdr) : Option (Nat × Nat) :=
  match h.stream with
  | .chan netid c => some (netid, c)
  | _ => none

/-! ### TOKENS -/

/-- The whole number of the token with 32-bit number `q` at an end whose next is `next`; none for one already received. -/
def tokenNumber (next q : Nat) : Option Nat :=
  let d := (q + 2 ^ 32 - next % 2 ^ 32) % 2 ^ 32
  if d < 2 ^ 31 then some (next + d) else none

/-- Whether a token's number is already received or held, on the tile or in the spill (R375). -/
def RecvEnd.knows (e : RecvEnd) (q : Nat) : Bool :=
  decide (q < e.nextSeq) || (mapFind e.held q).isSome || e.spilled.any (fun x => x.1 == q) ||
    e.early.any (fun x => x.1 == q) || (mapFind e.ahead q).isSome

/-- One arriving token: into the channel area, or towards the spill beyond the declared slots (R330, R352). -/
def State.arriveToken (s : State) (t i q : Nat) (v : Word) (psn : Bool) : State :=
  match mapFind (s.tile t).ends i with
  | some (.recv e) =>
    if e.knows q then s
    else if q < e.nextSeq + e.decl then s.modTile t fun x => x.placeToken i e q v psn
    else s.setEnd t i (.recv { e with early := e.early ++ [(q, v, psn)] })
  | _ => s

/-- A TOKENS message at the receive end `i` of a tile. -/
def State.tokensAt (s : State) (t i : Nat) (e : RecvEnd) (m : Msg) : State :=
  let code := bits m.hdr.arg 42 41
  if e.dead ∨ code = 3 then s
  else
    match tokenNumber e.nextSeq (tokSeq m.hdr) with
    | none => s
    | some q =>
      let s1 :=
        if code = 0 then
          ((toWords m.payload).zipIdx.foldl (fun s' v => s'.arriveToken t i (q + v.2) v.1 (bit m.hdr.arg 40)) s).spillTidy t i
        else s.setEnd t i (.recv { e with endRec := some (q, code == 2) })
      s1.modTile t fun x => x.delivered e.pid e.port

/-- A TOKENS message of a request channel at its server. A pair that has ended discards it (R340, R358). -/
def State.tokensAtServer (s : State) (n i : Nat) (p : ServerPair) (m : Msg) : State :=
  if p.ended ∨ bits m.hdr.arg 42 41 ≠ 0 then s
  else
    match tokenNumber p.nextIn (tokSeq m.hdr) with
    | none => s
    | some q =>
      let new := (toWords m.payload).zipIdx.map fun v => (q + v.2, v.1, bit m.hdr.arg 40)
      let fresh := new.filter fun x => !p.toks.any fun y => y.1 == x.1
      s.setPair n i { p with toks := p.toks ++ fresh }

/-- TOKENS: tokens of a channel placed by sequence number; an end token recorded (R331, R375). Tokens for an end that is
released are taken and dropped. -/
def execTokens (ep : Ep) (i : Nat) (s : State) : Res := runEvent s fun st =>
  match (st.fab ep).inbox[i]? with
  | some m =>
    match m.hdr.chanOf with
    | some (netid, c) =>
      if m.hdr.cls = clsTOKENS then
        let s1 := st.takeMsg ep i m
        match ep.kind with
        | .tile => match st.findRecv ep.num netid c with
          | some (j, e) => s1.tokensAt ep.num j e m
          | none => s1
        | .edge => match st.findPair ep.num netid c with
          | some (j, p) => s1.tokensAtServer ep.num j p m
          | none => s1
        | _ => s1
      else st
    | none => st
  | none => st

/-! ### A server's replies (R357, R359) -/

/-- Messages of a reply channel's token runs. -/
def State.serverRuns (s : State) (n : Nat) (p : ServerPair) : Nat → List (List Word × Bool) → State
  | _, [] => s
  | q, (l, psn) :: r =>
    (s.sendTok ⟨.edge, n⟩ p.repPeer 0 p.tnt (.chan p.netid (p.chan + 1)) (p.chan + 1) q 0 psn (ofWords l) true p.pid
      p.netid).serverRuns n p (q + l.length) r

/-- The replies left after `k` of their tokens have been sent. -/
def dropTokens : Nat → List (List (Word × Bool)) → List (List (Word × Bool))
  | _, [] => []
  | k, r :: rest => if k < r.length then r.drop k :: rest else dropTokens (k - r.length) rest

/-- Reply tokens sent as credits allow; the broken end token after the last reply of a pair that has ended (R357,
R358). -/
def State.serverFlush (s : State) (n i : Nat) : State :=
  match (s.edge n).pairs[i]? with
  | some p =>
    let all := p.out.flatten
    if p.repGone then s.setPair n i { p with out := [] }
    else
      let now := all.take p.credits
      let k := now.length
      let left := dropTokens k p.out
      let fin := p.ended && left.isEmpty && !p.endSent
      let p1 := { p with out := left, credits := p.credits - k, nextOut := (p.nextOut + k) % 2 ^ 32,
                         endSent := p.endSent || fin }
      let s1 := (s.setPair n i p1).serverRuns n p p.nextOut (tokenRuns now)
      if fin then
        s1.sendTok ⟨.edge, n⟩ p.repPeer 0 p.tnt (.chan p.netid (p.chan + 1)) (p.chan + 1) p1.nextOut 2 false (toBytes 8 0)
          true p.pid p.netid
      else s1
  | none => s

/-! ### CREDIT -/

/-- Returned credits matched to the messages in the shadow, oldest first; an acknowledged message with none left is
freed (R374). -/
def returnCredits (stream : Stream) : Nat → List Shadow → List Shadow
  | _, [] => []
  | n, x :: r =>
    if x.msg.hdr.cls = clsTOKENS ∧ x.msg.hdr.stream = stream ∧ 0 < x.credits then
      let k := min n x.credits
      let rest := returnCredits stream (n - k) r
      if x.done ∧ x.credits = k then rest else { x with credits := x.credits - k } :: rest
    else x :: returnCredits stream n r

/-- How far a cumulative count has advanced; an older one changes nothing (R365). -/
def creditGain (old new : Nat) : Nat :=
  let d := (new % 2 ^ 64 + 2 ^ 64 - old % 2 ^ 64) % 2 ^ 64
  if d < 2 ^ 63 then d else 0

/-- CREDIT (R329, R365). -/
def execCredit (ep : Ep) (i : Nat) (s : State) : Res := runEvent s fun st =>
  match (st.fab ep).inbox[i]? with
  | some m =>
    if m.hdr.cls = clsCONTROL ∧ bits m.hdr.arg 7 0 = 0x01 then
      let s1 := st.takeMsg ep i m
      let new := ofBytes (m.payload.take 8)
      match m.hdr.chanOf with
      | some (netid, c) =>
        match ep.kind with
        | .tile => match st.findSend ep.num netid c with
          | some (j, e) =>
            let k := creditGain e.cumul new
            (s1.setEnd ep.num j (.send { e with credits := e.credits + k, cumul := e.cumul + k, room := max e.room (e.cap + m.hdr.act) })).modFab ep fun f =>
              { f with shadow := returnCredits m.hdr.stream k f.shadow }
          | none => s1
        | .edge => match st.findPair ep.num netid c with
          | some (j, p) =>
            let k := creditGain p.cumul new
            ((s1.setPair ep.num j { p with credits := p.credits + k, cumul := p.cumul + k }).modFab ep fun f =>
              { f with shadow := returnCredits m.hdr.stream k f.shadow }).serverFlush ep.num j
          | none => s1
        | _ => s1
      | none => s1
    else st
  | none => st

/-! ### ENDED -/

/-- ENDED: the consumer-ended notice reaches the send end (R340); a server discards its replies (01_machine.md R43). -/
def execEnded (ep : Ep) (i : Nat) (s : State) : Res := runEvent s fun st =>
  match (st.fab ep).inbox[i]? with
  | some m =>
    if m.hdr.cls = clsCONTROL ∧ bits m.hdr.arg 7 0 = 0x04 then
      let s1 := st.takeMsg ep i m
      match m.hdr.chanOf with
      | some (netid, c) =>
        match ep.kind with
        | .tile => match st.findSend ep.num netid c with
          | some (j, e) => s1.setEnd ep.num j (.send { e with noticed := true })
          | none => s1
        | .edge => match st.findPair ep.num netid c with
          | some (j, p) => (s1.setPair ep.num j { p with repGone := true }).serverFlush ep.num j
          | none => s1
        | _ => s1
      | none => s1
    else st
  | none => st

end Sys2Proof.Machine
end

