-- ==== Sys2Proof/Machine/Units.lean ====
section
/-!
DEFINITION. The end of a process, a network or a partition (01_machine.md R42, R43; 07_control_registers.md R244, R506;
10_channels.md R339, R340; 12_reels.md R417, R429, R430), and its report to the host (01_machine.md R71).
-/
namespace Sys2Proof.Machine

/-! ### Reports (R71) -/

/-- A FAULT_REPORT. -/
def State.faultReport (s : State) (tag tnt netid pid unit cause : Nat) (eval : Word) (tile slot : Nat) (cycle : Word) :
    State :=
  s.hostSend 0x8003 tag tnt
    (toBytes 4 netid ++ toBytes 2 pid ++ toBytes 1 unit ++ toBytes 1 cause ++ toBytes 8 eval.toNat ++ toBytes 2 tile ++
      toBytes 1 slot ++ toBytes 5 0 ++ toBytes 8 cycle.toNat ++ toBytes 8 s.time)

/-! ### A process -/

/-- The slot of a placed process. -/
def Proc.k (p : Proc) : Fin 8 := Fin.ofNat 8 p.slot

/-- A send end of an ended process: the broken end token follows every token sent before (R339). -/
def State.breakSends (s : State) (p : Proc) : State :=
  (s.tile p.tile).ends.foldl (fun s' e => match e.2 with
    | .send x =>
      if x.netid = p.netid ∧ x.pid = p.pid ∧ x.state ≠ .closed then
        (s'.setEnd p.tile e.1 (.send { x with state := .closed })).putEnd p.tile x 2
      else s'
    | .recv _ => s') s

/-- A receive end of an ended process: what it holds is discarded, and the send end is told (R340). -/
def State.killRecvs (s : State) (p : Proc) : State :=
  (s.tile p.tile).ends.foldl (fun s' e => match e.2 with
    | .recv x =>
      if x.netid = p.netid ∧ x.pid = p.pid ∧ x.dead = false then
        (s'.setEnd p.tile e.1 (.recv { x with dead := true, held := [], early := [], ahead := [], spilled := [] })).sendControl
          ⟨.tile, p.tile⟩ x.peer x.slot p.tnt 0x04 x.chan (.chan x.netid x.chan) (toBytes 8 0) p.pid p.netid
      else s'
    | .send _ => s') s

/-- A leave, or for a fault a departure, to the home of each reel that holds the process as a member (R429, R430); a member
that is leaving already departs too. -/
def State.departReels (s : State) (p : Proc) (fault : Bool) : State :=
  s.reels.foldl (fun s' r => r.2.members.foldl (fun s'' m =>
    match mapFind r.2.entries m.2.entry with
    | some e =>
      if e.netid.toNat = p.netid ∧ m.2.pid.toNat = p.pid ∧ (fault = true ∨ m.2.state ≠ .leaving) then
        s''.sendReel ⟨.tile, p.tile⟩ ⟨.reel, r.1⟩ p.slot p.tnt (if fault then rDEPART else rLEAVE) m.2.entry m.2.rank
          [BitVec.ofNat 64 p.pid] true p.pid p.netid
      else s''
    | none => s'') s') s

/-- The records of a process: its watch-list entries and ready-queue entries leave. -/
def Tile.dropRecords (x : Tile) (pid : Nat) : Tile :=
  { x with watch := x.watch.filter fun w => w.pid != pid,
           ready := Vector.ofFn fun i => x.ready[i].filter fun a => Mem.load x.mem a.toNat 2 != pid }

/-- A poisoned process of a network, kept by lowest PID (07_control_registers.md R244). -/
def Network.notePoison (n : Network) (pid : Nat) (cir : Word) (tile slot : Nat) (cycle : Word) : Network :=
  match n.poisoned with
  | some (q, _) => if q < pid then n else { n with poisoned := some (pid, cir, tile, slot, cycle) }
  | none => { n with poisoned := some (pid, cir, tile, slot, cycle) }

/-- The slot of an ended process freed, its context discarded (R43 effect 1, R506); a supervisor's tile goes back to the
default supervisor (01_machine.md R25). -/
def State.freeSlot (s : State) (p : Proc) : State :=
  let x := s.slot p.tile p.k
  let s1 := if x.errRec = 0 then s
    else s.blackBox ⟨.tile, p.tile⟩ 0x09 p.tnt (BitVec.ofNat 64 (bits x.errRec 15 0)) x.errRec
  let cyc := BitVec.ofNat 64 (s.cycle p.tile)
  let s2 := s1.modMgr fun m =>
    { m with procs := m.procs.filter fun (q : Proc) => !(q.netid == p.netid && q.pid == p.pid),
             nets := if bit x.cir 0 then m.nets.map fun (n : Network) =>
                if n.netid = p.netid then n.notePoison p.pid x.cir p.tile p.slot cyc else n
               else m.nets }
  s2.modTile p.tile fun y =>
    let y1 := y.modSlot p.k fun _ => Slot.reset
    let y2 := if p.slot < 2 then y1.modVec p.k fun _ => VecCtx.reset else y1
    let y3 := if p.sup then { y2 with supSlot := 7, defSup := true } else y2
    y3.dropRecords p.pid

/-- A process ended: the effects of R43 in order. -/
def State.endProcess (s : State) (p : Proc) (fault : Bool) : State :=
  (((s.freeSlot p).breakSends p).killRecvs p).departReels p fault

/-! ### A network -/

/-- What an end forgets of a network that is released (10_channels.md R324). -/
def Fabric.forget (f : Fabric) (netid : Nat) : Fabric :=
  { f with bufs := f.bufs.filter fun b => b.hdr.netid != netid,
           held := f.held.filter fun h => h.frag.hdr.netid != netid,
           inbox := f.inbox.filter fun m => m.hdr.netid != netid || isAck m.hdr }

def ExecEntry.netid : ExecEntry → Nat
  | .frame m => m.hdr.netid
  | .combine m => m.hdr.netid
  | .far m => m.hdr.netid

def Tile.forget (x : Tile) (netid : Nat) : Tile :=
  { x with ends := x.ends.filter fun e => e.2.netid != netid,
           execQ := x.execQ.filter fun e => e.netid != netid, fab := x.fab.forget netid }

def EdgeSt.forget (x : EdgeSt) (netid : Nat) : EdgeSt :=
  { x with pairs := x.pairs.filter fun p => p.netid != netid,
           execQ := x.execQ.filter fun e => e.netid != netid,
           resumed := x.resumed.filter fun m => m.hdr.netid != netid, fab := x.fab.forget netid }

def ReelSt.forget (x : ReelSt) (netid : Nat) : ReelSt :=
  let gone := fun k => match mapFind x.entries k with
    | some e => e.netid.toNat == netid
    | none => false
  { x with entries := x.entries.filter fun e => e.2.netid.toNat != netid,
           members := x.members.filter fun m => !gone m.2.entry,
           waiters := x.waiters.filter fun w => !gone w.entry,
           asked := x.asked.filter fun a => a.2.hdr.netid != netid, fab := x.fab.forget netid }

/-- The leaf entry of a far address for a PID, written; nothing where no entry is there. -/
def State.clearLeaf (s : State) (tnt pid va : Nat) : State :=
  match s.walk tnt pid va with
  | .leaf l => s.writeEntry l.at' 0
  | _ => s

/-- A network's spill region unmapped for each of its processes. -/
def State.dropSpill (s : State) (n : Network) : State :=
  (List.range n.nproc).foldl (fun s' i => (List.range n.spillPages.length).foldl (fun s'' j =>
    s''.clearLeaf n.tnt (n.pidBase + i) (n.spillBase + 65536 * j)) s') s

/-- A network's channels, spill region, reels and decode buffers released (R43). -/
def State.releaseNet (s : State) (n : Network) : State :=
  let s1 := s.dropSpill n
  ({ s1 with tiles := s1.tiles.map fun x => (x.1, x.2.forget n.netid),
             edges := s1.edges.map fun x => (x.1, x.2.forget n.netid),
             reels := s1.reels.map fun x => (x.1, x.2.forget n.netid) } : State).modMgr fun m =>
    { m with nets := m.nets.filter fun (x : Network) => x.netid != n.netid }

/-- NETWORK_END, or the POISON report of R244 in its place (R62, R71). -/
def State.netEnd (s : State) (n : Network) : State :=
  match n.poisoned with
  | some (pid, cir, tile, slot, cycle) =>
    s.faultReport n.tag.toNat n.tnt n.netid pid 1 cPOISON.toNat cir tile slot cycle
  | none => s.hostSend 0x8002 n.tag.toNat n.tnt (toBytes 4 n.netid ++ toBytes 4 n.nproc ++ toBytes 8 s.time)

/-- A network none of whose processes is left: reported when its last process ended without a fault, and released. -/
def State.closeNet (s : State) (netid : Nat) (fault : Bool) : State :=
  match s.net netid with
  | some n =>
    if s.mgr.procs.any fun p => p.netid == netid then s
    else (if fault then s else s.netEnd n).releaseNet n
  | none => s

/-! ### A partition -/

/-- A tile scrubbed (13_system_tables.md R445). -/
def Tile.scrub (x : Tile) : Tile :=
  { x with mem := [], start := 0, poison := 0, errs := 0, bfmt := Tile.reset.bfmt, vecs := Tile.reset.vecs,
           ready := Tile.reset.ready, watch := [] }

/-- A partition's tiles, and the DRAM pages mapped in it, scrubbed to zero (R43). -/
def State.scrubPart (s : State) (p : Partition) : State :=
  let s1 := (s.partTiles p).foldl (fun s' t => s'.modTile t Tile.scrub) s
  p.maps.foldl (fun s' m => match s'.walk p.tnt m.pid m.va with
    | .leaf l => if l.tgt = 0 then s'.scrubDram l.pa (2 ^ pageBits l.level) else s'
    | _ => s') s1

/-! ### Ending a unit (R42) -/

/-- The processes of a unit: 0 one process, 1 a network's, 2 a partition's. -/
def State.unitProcs (s : State) (unit netid pid tnt : Nat) : List Proc :=
  s.mgr.procs.filter fun p =>
    if unit = 0 then p.netid == netid && p.pid == pid else if unit = 1 then p.netid == netid else p.tnt == tnt

/-- A slot of an ending unit told to stop. -/
def Slot.toEnd (x : Slot) : Slot :=
  if x.run = .running ∨ x.run = .halting then Slot.tidyStop { x with run := .stopping } else x

/-- Whether nothing of a slot is outstanding, so that its process can end (07_control_registers.md R507, R388). -/
def Slot.ended (x : Slot) : Bool :=
  decide (x.run ≠ .running) && decide (x.run ≠ .stopping) && x.rupds.isEmpty && x.errOut.isEmpty

def State.stopProcs (s : State) (ps : List Proc) : State :=
  ps.foldl (fun s' p => s'.modSlot p.tile p.k Slot.toEnd) s

def State.allEnded (s : State) (ps : List Proc) : Bool := ps.all fun p => (s.slot p.tile p.k).ended

/-- The processes of a unit ended, then the networks released, then for a partition the scrub. -/
def State.endUnit (s : State) (unit tnt : Nat) (ps : List Proc) (nets : List Nat) (fault : Bool) : State :=
  let s1 := ps.foldl (fun s' p => s'.endProcess p fault) s
  let s2 := nets.foldl (fun s' n => s'.closeNet n fault) s1
  if unit = 2 then
    match s2.part tnt with
    | some p => s2.scrubPart p
    | none => s2
  else s2

/-- The unit that an end ends, as FDOM named it when the fault was delivered (13_system_tables.md R444); none where
nothing of it is left to end (R42). -/
def State.unitOf (s : State) (r : EndReq) : Option Nat :=
  if r.unit = 0 ∧ s.mgr.procs.all (fun p => p.netid != r.netid || some p.pid != r.pid) = true then none
  else if (s.net r.netid).isNone then none
  else some r.unit

/-- The networks of a unit. -/
def State.unitNets (s : State) (unit netid tnt : Nat) : List Nat :=
  if unit = 2 then (s.mgr.nets.filter fun n => n.tnt == tnt).map (·.netid) else [netid]

/-- UNIT_END: the manager acts on the oldest end. The unit's slots stop, and once nothing of them is outstanding the unit
ends and a terminal fault is reported. -/
def execUnitEnd (s : State) : Res := runEvent s fun st =>
  match st.mgr.ends with
  | [] => st
  | r :: rest =>
    let drop := fun (x : State) => x.modMgr fun m => { m with ends := rest }
    match st.net r.netid, st.unitOf r with
    | some n, some unit =>
      let ps := st.unitProcs unit r.netid (r.pid.getD 0xFFFF) n.tnt
      let s1 := st.stopProcs ps
      if s1.allEnded ps then
        let s2 := (drop s1).endUnit unit n.tnt ps (st.unitNets unit r.netid n.tnt) r.fault
        if r.fault then
          s2.faultReport n.tag.toNat n.tnt (if unit = 2 then 0 else r.netid) (r.pid.getD 0xFFFF) unit r.cause.toNat r.eval r.tile
            (match r.slot with
              | some k => k.val
              | none => 0xFF) r.cycle
        else s2
      else s1
    | _, _ => drop st

end Sys2Proof.Machine
end

