-- ==== Sys2Proof/Machine/Manager.lean ====
section
/-!
DEFINITION. Messages of the supervisor channel as the network manager takes them (01_machine.md R59-R63, R66, R68), region
control blocks (13_system_tables.md R443), and MANAGE (R70): partitions, fields, mappings, rebinding, reading and halting.
-/
namespace Sys2Proof.Machine

/-! ### Messages (R60, R61) -/

/-- A host message: header and payload, 496 bytes as its slot holds them. -/
structure HMsg where
  kind : Nat
  len : Nat
  tag : Nat
  tnt : Nat
  res : Bool
  pay : List Byte
  deriving DecidableEq, Repr

def HMsg.ofBytes (b : List Byte) : HMsg :=
  let f := fun a n => Sys2Proof.Machine.ofBytes ((b.drop a).take n)
  { kind := f 0 2, len := f 2 2, tag := f 4 4, tnt := f 8 2 % 1024, res := f 8 2 / 1024 != 0 || f 10 6 != 0,
    pay := b.drop 16 }

/-- A payload field of `n` bytes at offset `a`. -/
def HMsg.u (m : HMsg) (a n : Nat) : Nat := Sys2Proof.Machine.ofBytes ((m.pay.drop a).take n)

/-- The bytes of the slot of message `n` of the supervisor channel (10_channels.md R360). -/
def State.hostSlot (s : State) (n : Nat) : List Byte :=
  Mem.readBytes s.host (s.mgr.scAt.toNat + 0x40 + 512 * (n % 64)) 512

/-- Message `n` of the supervisor channel, as its slot holds it (10_channels.md R361). -/
def State.hostMsg (s : State) (n : Nat) : HMsg := HMsg.ofBytes (s.hostSlot n)

/-- Messages the host has written. The manager reads the channel from READY on (20_device.md R499). -/
def State.hostCount (s : State) : Nat :=
  if bits s.dev.bootStatus 3 0 = 2 then s.hostWord s.mgr.scAt.toNat 8 else 0

/-- The message at the head: as it was read, where the manager has it in hand, else as its slot holds it (10_channels.md R361). -/
def State.headMsg (s : State) : Option HMsg :=
  match s.mgr.reading with
  | some b => some (HMsg.ofBytes b)
  | none => if s.mgr.taken < s.hostCount then some (s.hostMsg s.mgr.taken) else none

/-- TAKEN past the message handled, and past the ASSIST_ANSWERs behind it handled ahead (R60). -/
def pastAhead (ahead : List Nat) : Nat → Nat → Nat
  | 0, n => n
  | k + 1, n => if n ∈ ahead then pastAhead ahead k (n + 1) else n

/-- The message at the head handled. -/
def State.takeHost (s : State) : State :=
  let n := pastAhead s.mgr.ahead s.mgr.ahead.length (s.mgr.taken + 1)
  (s.hostStore (s.mgr.scAt.toNat + 8) 8 n).modMgr fun m =>
    { m with taken := n, ahead := m.ahead.filter fun x => decide (n ≤ x), waiting := false,
             reading := none, decodeAns := none }

/-- The message at the head handled and its ACK sent: TAKEN advances once the ACK is written to the return channel (R60). -/
def State.takeAcked (s : State) : State :=
  if s.mgr.out = [] then s.takeHost else s.modMgr fun m => { m with acking := m.out.length }

/-- RETURN_CHANNEL_ROOM (10_channels.md R361): the oldest held message written once a slot is free; where it is the ACK of the
message at the head, that is handled. -/
def execReturnChannelRoom (s : State) : Res := runEvent s fun st =>
  match st.mgr.out with
  | m :: r =>
    if st.hostRoom then
      let s1 := (st.hostPut m).modMgr fun x => { x with out := r, acking := x.acking - 1 }
      if st.mgr.acking = 1 then s1.takeHost else s1
    else st
  | [] => st

/-- Whether the manager may handle the message at the head: none is in hand whose ACK is still to be written, and the return
channel takes an ACK at once (R60, R65). -/
def State.mayHandle (s : State) : Bool := decide (s.mgr.acking = 0) && decide (s.mgr.out = []) && s.hostRoom

/-- Statuses of R63. -/
def aOK : Nat := 0
def aBAD_KIND : Nat := 1
def aBAD_TENANT : Nat := 2
def aNO_BUDGET : Nat := 3
def aBAD_IMAGE : Nat := 4
def aBAD_EDITION : Nat := 5
def aBAD_FIELD : Nat := 6

/-- What handling a message comes to: its effect with NETID and VALUE of the ACK, a refusal, or a wait. -/
inductive Handled where
  | done (s : State) (netid value : Nat)
  | refuse (status : Nat)
  | wait (s : State)

/-- Payload bytes that a layout of `len` bytes names as res, not all zero. -/
def HMsg.resUsed (m : HMsg) (res : List Nat) : Bool := res.any fun i => m.u i 1 != 0

/-- The message at the head handled, if `mine` holds of it: the header, the tenant (R66), LEN and the res bytes, then `f`;
and its ACK. The order of the checks is the model's (DEDUCED: notes/assumptions/20.md). -/
def State.hostRow (s : State) (mine : HMsg → Bool) (tenant : State → HMsg → Bool) (len : HMsg → Nat) (res : HMsg → List Nat)
    (f : State → HMsg → Handled) : State :=
  match s.headMsg with
  | none => s
  | some m =>
    if mine m && s.mayHandle then
      let answer := fun (st : State) (status netid value : Nat) => (st.ack m.tag m.tnt status netid value).takeAcked
      if m.kind = 0 ∨ 7 < m.kind ∨ m.res = true then answer s aBAD_KIND 0 0
      else if m.kind = 5 ∧ (m.u 0 2 = 0 ∨ 10 < m.u 0 2) then answer s aBAD_KIND 0 0
      else if tenant s m = false then answer s aBAD_TENANT 0 0
      else if m.len ≠ len m ∨ m.resUsed (res m) = true then answer s aBAD_FIELD 0 0
      else match f s m with
        | .done st netid value => answer st aOK netid value
        | .refuse status => answer s status 0 0
        | .wait st => st.modMgr fun x => { x with waiting := true, reading := some (s.mgr.reading.getD (s.hostSlot s.mgr.taken)) }
    else s

/-- A message that must name a current partition. -/
def needPart (s : State) (m : HMsg) : Bool := m.tnt != 0 && (s.part m.tnt).isSome

/-- A message that must carry TNT 0. -/
def needPkg (_ : State) (m : HMsg) : Bool := m.tnt == 0

/-- A MANAGE row: operation `op`, LEN `len`, res bytes beside 2 to 7. -/
def State.manageRow (s : State) (op : Nat) (tenant : State → HMsg → Bool) (len : Nat) (res : List Nat)
    (f : State → HMsg → Handled) : State :=
  s.hostRow (fun m => m.kind == 5 && m.u 0 2 == op) tenant (fun _ => len) (fun _ => [2, 3, 4, 5, 6, 7] ++ res) f

/-! ### Region control blocks (13_system_tables.md R443) -/

/-- A field's value, or inherit for all ones in its `n` bytes. -/
def rcbField (n v : Nat) : Option Nat := if v = 2 ^ (8 * n) - 1 then none else some v

/-- The fields of a block's bytes. -/
def Rcb.ofBytes (b : List Byte) : Rcb :=
  let f := fun a n => rcbField n (Sys2Proof.Machine.ofBytes ((b.drop a).take n))
  let asst := Sys2Proof.Machine.ofBytes ((b.drop 53).take 1)
  { tiles := f 16 4, reelent := f 20 4, vslots := f 24 4, tracebw := f 28 4, dram := f 32 8, spill := f 40 8,
    dshare := f 48 1, prio := f 49 1, fdom := f 50 1, issue := f 51 1, gang := f 52 1,
    assist := if asst / 128 % 2 = 1 then none else some (BitVec.ofNat 6 asst) }

/-- Whether a byte-wide field's value is out of its range. -/
def byteBad (off v : Nat) : Bool :=
  v != 0xFF && match off with
    | 48 => v == 0 || decide (32 < v)
    | 49 => decide (3 < v)
    | 50 => decide (2 < v)
    | 51 => decide (1 < v)
    | 52 => decide (1 < v)
    | _ => false

/-- A block of a level that breaks R443: its level, a res byte, or a value out of range. -/
def blockBad (b : List Byte) (level : Nat) : Bool :=
  let u := fun a => ofBytes ((b.drop a).take 1)
  u 0 != level || u 1 != 0 || decide (4 ≤ u 3) || [4, 5, 6, 7, 54, 55, 60, 61, 62, 63].any (fun a => u a != 0) ||
    (List.range 48).any (fun i => u (80 + i) != 0) || u 53 / 64 % 2 == 1 ||
    [48, 49, 50, 51, 52].any fun a => byteBad a (u a)

/-! ### Budgets (R40, R505) -/

/-- Whether a PID is one of a network's. -/
def Network.holds (n : Network) (pid : Nat) : Bool := decide (n.pidBase ≤ pid) && decide (pid < n.pidBase + n.nproc)

/-- DRAM charged to a network: the mapped pages of its PIDs. -/
def State.dramUse (s : State) (netid : Nat) : Nat :=
  match s.net netid with
  | some n => match s.part n.tnt with
    | some p => (p.maps.filter fun m => n.holds m.pid).foldl (fun k m => k + m.charge) 0
    | none => 0
  | none => 0

/-- DRAM charged to a partition itself: its directory and tables, and pages of PIDs that no network holds. -/
def State.dramDirect (s : State) (tnt : Nat) : Nat :=
  match s.part tnt with
  | some p =>
    p.owned.foldl (fun k o => k + o.2) 0 +
      (p.maps.filter fun m => !s.mgr.nets.any fun n => n.tnt == tnt && n.holds m.pid).foldl (fun k m => k + m.charge) 0
  | none => 0

/-- Distinct tiles of a network's processes. -/
def State.tileUse (s : State) (netid : Nat) : Nat :=
  (((s.mgr.procs.filter fun p => p.netid == netid).map (·.tile)).foldl setInsert []).length

/-- Whether the DRAM pools that a partition's use draws on hold it (R41). -/
def State.dramFits (s : State) (tnt : Nat) : Bool :=
  (s.mgr.nets.all fun n => n.tnt != tnt || match n.rcb.dram with
    | some v => decide (s.dramUse n.netid ≤ v)
    | none => true) &&
  match s.part tnt with
  | some p => match p.rcb.dram with
    | some v => decide (s.partTaken (·.dram) s.dramUse s.dramDirect p ≤ v)
    | none => decide (s.mgr.parts.foldl (fun k q =>
        k + (q.rcb.dram).getD (s.partTaken (·.dram) s.dramUse s.dramDirect q)) 0 ≤ s.mgr.pkg.dram.getD 0)
  | none => true

/-- What is left of each budget's pool above a partition, then above a network; the field and its use. -/
def State.poolFields (s : State) : List ((Rcb → Option Nat) × (Nat → Nat) × (Nat → Nat)) :=
  [((·.tiles), s.tileUse, fun _ => 0), ((·.reelent), s.entryUse, fun _ => 0), ((·.vslots), s.slotUse, fun _ => 0),
   ((·.dram), s.dramUse, s.dramDirect), ((·.spill), s.spillUse, fun _ => 0)]

/-- The budgets that are limits per tile, and a network's current use of each at a tile (R40). -/
def State.tileFields (s : State) : List ((Rcb → Option Nat) × (Nat → Nat → Nat)) :=
  [((·.tracebw), s.traceUse), ((·.dshare), fun t => s.bufUse ⟨.tile, t⟩)]

/-- Whether every budget value of a partition's block can be carved from the package's pool. Of a budget that is a limit per
tile, nothing else takes at a tile of the partition: a tile lies in one partition. -/
def State.carvePart (s : State) (r : Rcb) : Bool :=
  (s.poolFields.all fun q => match q.1 r with
    | some v => decide (v ≤ s.pkgLeft q.1 q.2.1 q.2.2)
    | none => true) && s.tileFields.all fun q => match q.1 r with
    | some v => decide (v ≤ (q.1 s.mgr.pkg).getD 0)
    | none => true

/-- Whether every budget value of a network's block can be carved from its partition's pool. -/
def State.carveNet (s : State) (tnt : Nat) (r : Rcb) : Bool :=
  (s.poolFields.all fun q => match q.1 r with
    | some v => decide (v ≤ s.partLeft q.1 q.2.1 q.2.2 tnt)
    | none => true) && s.tileFields.all fun q => match q.1 r with
    | some v => (match s.part tnt with
      | some p => s.partTiles p
      | none => []).all fun t => decide (v ≤ s.tilePool q.1 (q.2 t) tnt)
    | none => true

/-! ### CREATE and DESTROY (R445) -/

/-- The partition a block describes. -/
def partOfBlock (b : List Byte) : Partition :=
  let u := fun a n => ofBytes ((b.drop a).take n)
  { tnt := u 2 2 % 1024, rx := u 56 1, ry := u 57 1, rw := u 58 1, rh := u 59 1, rcb := Rcb.ofBytes b, ptdir := u 64 8,
    owned := [], maps := [] }

/-- Whether two partitions' rectangles share a block. -/
def Partition.meets (p q : Partition) : Bool := overlaps p.rx p.rw q.rx q.rw && overlaps p.ry p.rh q.ry q.rh

/-- Bytes of a PID directory. -/
def dirBytes : Nat := 65536 * 8

/-- Where a new partition's PID directory lies: at PTDIR, or where the manager chooses for a PTDIR of 0
(DESIGN CHOICE: notes/assumptions/21.md). -/
def State.placeDir (s : State) (at' : Nat) : Option Nat :=
  if at' = 0 then s.findDram 0 dirBytes
  else if at' % 4096 = 0 ∧ at' / 2 ^ 40 = 0 ∧ at' % 2 ^ 36 + dirBytes ≤ 48 * 2 ^ 30
      ∧ s.dramUsed.any (fun u => overlaps at' dirBytes u.1 u.2) = false then some at'
  else none

/-- CREATE. -/
def State.createPart (s : State) (m : HMsg) : Handled :=
  let b := (m.pay.drop 8).take 128
  let p := partOfBlock b
  let mgrBlock := match s.coord s.managerTile with
    | some (x, y) => decide (p.rx ≤ x / 4 ∧ x / 4 < p.rx + p.rw ∧ p.ry ≤ y / 4 ∧ y / 4 < p.ry + p.rh)
    | none => false
  if blockBad b 1 ∨ p.tnt = 0 ∨ (s.part p.tnt).isSome = true ∨ p.rw = 0 ∨ p.rh = 0 ∨ 32 < p.rx + p.rw ∨ 16 < p.ry + p.rh
      ∨ mgrBlock = true ∨ s.mgr.parts.any (·.meets p) = true ∨ s.carvePart p.rcb = false then .refuse aBAD_FIELD
  else match s.placeDir p.ptdir with
    | none => .refuse (if p.ptdir = 0 then aNO_BUDGET else aBAD_FIELD)
    | some d =>
      let q := { p with ptdir := d, owned := [(d, dirBytes)] }
      let s1 := s.modMgr fun x => { x with parts := x.parts ++ [q] }
      if s1.dramFits q.tnt then
        .done ((s1.partTiles q).foldl (fun st t => st.modTile t Tile.scrub) (s1.scrubDram d dirBytes)) 0 0
      else .refuse aNO_BUDGET

/-- MANAGE_CREATE. A message of no kind the table lists, or a MANAGE of no operation it lists, is answered here. -/
def execManageCreate (s : State) : Res := runEvent s fun st =>
  st.hostRow (fun m => (m.kind == 5 && (m.u 0 2 == 1 || m.u 0 2 == 0 || decide (10 < m.u 0 2))) || m.kind == 0 ||
      decide (7 < m.kind)) needPkg (fun _ => 136) (fun _ => [2, 3, 4, 5, 6, 7]) State.createPart

/-- DESTROY: every network ends, then the partition is scrubbed and removed. -/
def State.destroyPart (s : State) (m : HMsg) : Handled :=
  let tnt := m.u 8 2
  match s.part tnt with
  | none => .refuse aBAD_FIELD
  | some _ =>
    let ps := s.unitProcs 2 0 0 tnt
    let s1 := s.stopProcs ps
    if s1.allEnded ps then
      let s2 := s1.endUnit 2 tnt ps (s1.unitNets 2 0 tnt) true
      let owned := match s2.part tnt with
        | some p => p.owned
        | none => []
      .done ((owned.foldl (fun st o => st.scrubDram o.1 o.2) s2).modMgr fun x =>
        { x with parts := x.parts.filter fun (p : Partition) => p.tnt != tnt,
                 migs := x.migs.filter fun (g : Migration) => g.tnt != tnt }) 0 0
    else .wait s1

/-- MANAGE_DESTROY. -/
def execManageDestroy (s : State) : Res := runEvent s fun st => st.manageRow 2 needPkg 10 [] State.destroyPart

/-! ### SETFIELD -/

/-- Width of a settable field by its offset. -/
def fieldWidth : Nat → Option Nat
  | 16 => some 4
  | 20 => some 4
  | 24 => some 4
  | 28 => some 4
  | 32 => some 8
  | 40 => some 8
  | 48 => some 1
  | 49 => some 1
  | 50 => some 1
  | 51 => some 1
  | 52 => some 1
  | 53 => some 1
  | _ => none

/-- A block's fields with one written. -/
def Rcb.setAt (r : Rcb) (off v : Nat) : Rcb :=
  match off with
  | 16 => { r with tiles := rcbField 4 v }
  | 20 => { r with reelent := rcbField 4 v }
  | 24 => { r with vslots := rcbField 4 v }
  | 28 => { r with tracebw := rcbField 4 v }
  | 32 => { r with dram := rcbField 8 v }
  | 40 => { r with spill := rcbField 8 v }
  | 48 => { r with dshare := rcbField 1 v }
  | 49 => { r with prio := rcbField 1 v }
  | 50 => { r with fdom := rcbField 1 v }
  | 51 => { r with issue := rcbField 1 v }
  | 52 => { r with gang := rcbField 1 v }
  | _ => { r with assist := if v / 128 % 2 = 1 then none else some (BitVec.ofNat 6 v) }

/-- A block with every budget but the one at an offset left out, to check its new value alone. -/
def Rcb.only (off v : Nat) : Rcb :=
  ({ tiles := none, reelent := none, vslots := none, tracebw := none, dram := none, spill := none, dshare := none,
     prio := none, fdom := none, issue := none, gang := none, assist := none } : Rcb).setAt off v

def State.setPartRcb (s : State) (tnt : Nat) (r : Rcb) : State :=
  s.modMgr fun x => { x with parts := x.parts.map fun (p : Partition) => if p.tnt = tnt then { p with rcb := r } else p }

def State.setNetRcb (s : State) (netid : Nat) (r : Rcb) : State :=
  s.modMgr fun x => { x with nets := x.nets.map fun (n : Network) => if n.netid = netid then { n with rcb := r } else n }

/-- SETFIELD (R70). A budget is checked against what its parent has left beside the node itself (R40). -/
def State.setField (s : State) (m : HMsg) : Handled :=
  let netid := m.u 8 4
  let off := m.u 12 1
  let v := m.u 16 8
  match fieldWidth off with
  | none => .refuse aBAD_FIELD
  | some w =>
    let badByte := if off = 53 then v / 64 % 2 == 1 else byteBad off v
    if 2 ^ (8 * w) ≤ v ∨ badByte = true then .refuse aBAD_FIELD
    else if netid = 0xFFFFFFFF then
      match s.part m.tnt with
      | none => .refuse aBAD_FIELD
      | some p =>
        let s0 := s.setPartRcb m.tnt (p.rcb.setAt off 0)
        if s0.carvePart (Rcb.only off v) then .done (s.setPartRcb m.tnt (p.rcb.setAt off v)) 0 0
        else .refuse aBAD_FIELD
    else
      match s.net netid with
      | none => .refuse aBAD_FIELD
      | some n =>
        if n.tnt ≠ m.tnt ∨ off = 53 then .refuse aBAD_FIELD
        else
          let s0 := s.setNetRcb netid (n.rcb.setAt off 0)
          if s0.carveNet n.tnt (Rcb.only off v) then .done (s.setNetRcb netid (n.rcb.setAt off v)) 0 0
          else .refuse aBAD_FIELD

/-- MANAGE_SETFIELD. -/
def execManageSetfield (s : State) : Res :=
  runEvent s fun st => st.manageRow 3 needPart 24 [13, 14, 15] State.setField

/-! ### MAP and UNMAP (R70, R441) -/

def State.modPart (s : State) (tnt : Nat) (f : Partition → Partition) : State :=
  s.modMgr fun x => { x with parts := x.parts.map fun p => if p.tnt = tnt then f p else p }

/-- A page-table page built for a partition, scrubbed and charged to it. -/
def State.newTable (s : State) (tnt size : Nat) : Option (State × Nat) :=
  (s.findDram 0 size).map fun a => ((s.scrubDram a size).modPart tnt fun p => { p with owned := p.owned ++ [(a, size)] }, a)

/-- The tables from a level's table down to `target`'s, built where they are missing, and the leaf written. -/
def State.buildLeaf (s : State) (tnt va target : Nat) (leaf : Word) : Nat → Nat → Nat → Option State
  | n, level, table =>
    let a := table + 8 * levelIndex va level
    if level = target then some (s.writeEntry a leaf)
    else match n with
      | 0 => none
      | k + 1 =>
        let e : Word := BitVec.ofNat 64 (Mem.load s.dram a 8)
        if bit e 0 then s.buildLeaf tnt va target leaf k (level + 1) (bits e 55 8 * 2 ^ 8)
        else match s.newTable tnt (if level + 1 = 4 then 256 else 4096) with
          | some (s1, b) => (s1.writeEntry a (BitVec.ofNat 64 (b + 1))).buildLeaf tnt va target leaf k (level + 1) b
          | none => none

/-- A leaf written for a PID, with what tables it needs. -/
def State.mapLeaf (s : State) (tnt pid va level : Nat) (leaf : Word) : Option State :=
  match s.part tnt with
  | none => none
  | some p =>
    match rootOf s.dram p.ptdir pid with
    | some r => s.buildLeaf tnt va level leaf 4 0 r
    | none => match s.newTable tnt 4096 with
      | some (s1, r) => (s1.writeEntry (p.ptdir + 8 * pid) (BitVec.ofNat 64 (r + 1))).buildLeaf tnt va level leaf 4 0 r
      | none => none

/-- Whether a mapping of a page may stand beside what is mapped: it overlaps no leaf of another level, no page of the
manager's, and no DRAM page of another partition. -/
def State.mapOk (s : State) (p : Partition) (pid va level : Nat) (leaf : Word) : Bool :=
  let l : Leaf := { raw := leaf, level := level, at' := 0 }
  let n := 2 ^ pageBits level
  let others := p.maps.filter fun m => m.pid == pid && m.level != level && overlaps m.va (2 ^ pageBits m.level) va n
  let spill := s.mgr.nets.any fun x => x.tnt == p.tnt && x.holds pid && level != 4 &&
    overlaps (x.spillBase / 65536 * 65536) (65536 * x.spillPages.length) va n
  let owned := s.mgr.parts.flatMap (·.owned) ++ s.mgr.nets.flatMap fun x => x.spillPages.map fun a => (a, 65536)
  let foreign := { s with mgr := { s.mgr with parts := s.mgr.parts.filter fun (q : Partition) => q.tnt != p.tnt } }.dramUsed
  others.isEmpty && !spill && (l.tgt != 0 || !(owned ++ foreign).any fun u => overlaps l.pa n u.1 u.2)

/-- A mapping made: the target page scrubbed, the leaf written, the charge recorded; none where the pools or the DRAM
cannot hold it. -/
def State.mapPage (s : State) (tnt pid va level : Nat) (leaf : Word) : Option State :=
  let l : Leaf := { raw := leaf, level := level, at' := 0 }
  let n := 2 ^ pageBits level
  let s0 := if l.tgt = 0 then s.scrubDram l.pa n else s
  match s0.mapLeaf tnt pid va level leaf with
  | none => none
  | some s1 =>
    let g : Mapping := { pid := pid, va := va, level := level, charge := if l.tgt = 0 then n else 0 }
    let s2 := s1.modPart tnt fun p =>
      { p with maps := (p.maps.filter fun m => !(m.pid == pid && m.va == va && m.level == level)) ++ [g] }
    if s2.dramFits tnt then some s2 else none

/-- Whether a leaf operand is a valid leaf of a level. -/
def leafOperand (leaf : Word) (level : Nat) : Bool :=
  decide (2 ≤ level) && decide (level ≤ 4) && bit leaf 0 && bit leaf 1 && leafOk leaf level

/-- MAP. A page in migration is mapped once that is over. -/
def State.mapRequest (s : State) (m : HMsg) : Handled :=
  let pid := m.u 8 2
  let level := m.u 10 1
  let va := m.u 16 8
  let leaf : Word := BitVec.ofNat 64 (m.u 24 8)
  match s.part m.tnt with
  | none => .refuse aBAD_FIELD
  | some p =>
    if leafOperand leaf level = false ∨ 2 ^ 57 ≤ va ∨ va % 2 ^ pageBits level ≠ 0 ∨ s.mapOk p pid va level leaf = false then
      .refuse aBAD_FIELD
    else if (s.migOf m.tnt pid va).isSome then .wait s
    else match s.mapPage m.tnt pid va level leaf with
      | some s1 => .done s1 0 0
      | none => .refuse aNO_BUDGET

/-- MANAGE_MAP. -/
def execManageMap (s : State) : Res :=
  runEvent s fun st => st.manageRow 4 needPart 32 [11, 12, 13, 14, 15] State.mapRequest

/-- Whether a PID's leaf at an address is one that LAUNCH wrote for a page of its network's spill region, and is still there
(10_channels.md R351). -/
def State.spillLeafAt (s : State) (tnt pid va : Nat) : Bool :=
  (s.mgr.nets.any fun x => x.tnt == tnt && x.holds pid &&
    (List.range x.spillPages.length).any fun j => va == x.spillBase / 65536 * 65536 + 65536 * j) &&
  match s.walk tnt pid va with
  | .leaf l => l.level == 4
  | _ => false

/-- UNMAP, of a leaf a MAP or an install wrote or of one of the spill region's. -/
def State.unmapRequest (s : State) (m : HMsg) : Handled :=
  let pid := m.u 8 2
  let va := m.u 16 8
  match s.part m.tnt with
  | none => .refuse aBAD_FIELD
  | some p =>
    if (p.maps.any fun g => g.pid == pid && g.va == va) || s.spillLeafAt m.tnt pid va then
      if (s.migOf m.tnt pid va).isSome then .wait s
      else
        .done ((s.clearLeaf m.tnt pid va).modPart m.tnt fun q =>
          { q with maps := q.maps.filter fun g => !(g.pid == pid && g.va == va) }) 0 0
    else .refuse aBAD_FIELD

/-- MANAGE_UNMAP. -/
def execManageUnmap (s : State) : Res :=
  runEvent s fun st => st.manageRow 5 needPart 24 [10, 11, 12, 13, 14, 15] State.unmapRequest

/-! ### READ -/

/-- A fabric counter image (14_counters_and_records.md R465). -/
def Fabric.image (f : Fabric) : List Byte := f.ctrs.toList.flatMap fun w => toBytes 8 w.toNat

/-- A link block (14_counters_and_records.md R466). -/
def Link.image (l : Link) : List Byte :=
  toBytes 8 l.step.toNat ++ toBytes 8 l.downs.toNat ++ toBytes 8 l.ups.toNat ++ toBytes 8 l.retries.toNat ++
    (List.range Config.linkLanes).map fun i => (mapFind l.margins i).getD 0

/-- A black-box entry's bytes, and its tenant. -/
def bboxBytes (e : Vector Word 4) : List Byte := e.toList.flatMap fun w => toBytes 8 w.toNat
def bboxTnt (e : Vector Word 4) : Nat := bits e[1] 47 32

/-- The rings of every die: count, then entries from oldest to newest; of one tenant only, when it is not 0 (R477). -/
def State.bboxImage (s : State) (tnt : Nat) : List Byte :=
  s.bbox.toList.flatMap fun r =>
    toBytes 8 r.count.toNat ++ (r.entries.filter fun e => tnt == 0 || bboxTnt e == tnt).flatMap bboxBytes

/-- A reel entry's image (R70). -/
def reelImage (x : ReelSt) (k : Nat) : List Byte :=
  match mapFind x.entries k with
  | none => List.replicate 64 0
  | some e =>
    toBytes 4 e.netid.toNat ++ toBytes 4 e.name.toNat ++ toBytes 4 e.phase.toNat ++ toBytes 2 (x.of k).length ++
      toBytes 1 (1 + b2n e.keep * 2 + e.scope.toNat * 4 + b2n e.gang * 16 + b2n e.lastMix * 32) ++ toBytes 1 e.pkind ++
      toBytes 4 e.counted ++ toBytes 4 e.arrived ++ toBytes 4 e.early ++ toBytes 4 e.departed.toNat ++
      toBytes 8 e.lastRes.toNat ++ toBytes 4 e.lastDep.toNat ++ toBytes 4 e.yes ++ toBytes 4 e.votes ++
      toBytes 4 e.eyes ++ toBytes 4 e.evotes ++ toBytes 1 e.epkind ++ toBytes 3 0

/-- The object a READ names; none for a number out of range. -/
def State.readObject (s : State) (object number tnt : Nat) : Option (List Byte) :=
  match object with
  | 0 => if (s.coord number).isSome then some (s.tile number).fab.image else none
  | 1 =>
    if number < 256 then some (s.edge number).fab.image
    else if number < 288 then some (s.reelSt (number - 256)).fab.image
    else none
  | 2 => if number < 324 then some (s.link number).image else none
  | 3 => if number = 0 then some (s.bboxImage tnt) else none
  | 4 => if number < 8192 then some (reelImage (s.reelSt (number / 256)) (number % 256)) else none
  | _ => none

/-- Whether a partition may read an object. -/
def State.mayRead (s : State) (tnt object number : Nat) : Bool :=
  match object with
  | 0 => (s.partOf number).map (·.tnt) == some tnt
  | 3 => true
  | 4 => match mapFind (s.reelSt (number / 256)).entries (number % 256) with
    | some e => e.tnt.toNat == tnt
    | none => false
  | _ => false

/-- READ. -/
def State.readRequest (s : State) (m : HMsg) : Handled :=
  let object := m.u 8 1
  let number := m.u 10 2
  match s.readObject object number m.tnt with
  | some b => .done { s with host := Mem.writeBytes s.host (m.u 16 8) b } 0 b.length
  | none => .refuse aBAD_FIELD

/-- MANAGE_READ (R66, R70). -/
def execManageRead (s : State) : Res := runEvent s fun st =>
  st.manageRow 7 (fun x m => m.tnt == 0 || (needPart x m && (decide (4 < m.u 8 1) || x.mayRead m.tnt (m.u 8 1) (m.u 10 2))))
    24 [9, 12, 13, 14, 15] State.readRequest

/-- MANAGE_BBCLEAR (R476). -/
def execManageBbclear (s : State) : Res := runEvent s fun st =>
  st.manageRow 8 needPkg 8 [] fun x _ => .done { x with bbox := Vector.replicate 8 { count := 0, entries := [] } } 0 0

/-! ### HALT and RESUME (07_control_registers.md R243) -/

/-- The slot a HALT or RESUME names, in the tenant's partition. -/
def State.haltSlot (s : State) (m : HMsg) : Option (Nat × Fin 8) :=
  let t := m.u 8 2
  let k := m.u 10 1
  if (s.partOf t).map (·.tnt) = some m.tnt ∧ k < 8 then some (t, Fin.ofNat 8 k) else none

/-- MANAGE_HALT: a running slot halts, at once or at the boundary after the instruction it is in; in any other state nothing
changes. -/
def execManageHalt (s : State) : Res := runEvent s fun st =>
  st.manageRow 9 needPart 11 [] fun x m => match x.haltSlot m with
    | some (t, k) =>
      if (x.slot t k).run = .running then
        .done (x.modSlot t k fun y => Slot.tidyStop { y with run := .halting }) 0 0
      else .done x 0 0
    | none => .refuse aBAD_FIELD

/-- MANAGE_RESUME: a halted slot runs again at its EPC; one that has still to halt goes on (DESIGN CHOICE:
notes/assumptions/20.md). -/
def execManageResume (s : State) : Res := runEvent s fun st =>
  st.manageRow 10 needPart 11 [] fun x m => match x.haltSlot m with
    | some (t, k) =>
      if (x.slot t k).run = .halted then .done (x.modSlot t k fun y => { y with run := .running, pc := pcOf y.epc }) 0 0
      else if (x.slot t k).run = .halting then .done (x.modSlot t k fun y => { y with run := .running }) 0 0
      else .done x 0 0
    | none => .refuse aBAD_FIELD

end Sys2Proof.Machine
end

