-- ==== Sys2Proof/Machine/ReelOps.lean ====
section
/-!
DEFINITION. The reel instructions (12_reels.md R408-R426).
-/
namespace Sys2Proof.Machine

/-- A reel instruction's word (R408). -/
def reelEnc (t : BitVec 4) (op sub ty m : Nat) (d rs : BitVec 5) : Nat :=
  rEnc (t.setWidth 5) (op * 128 + sub * 16 + ty * 2 + m) 0x18 d rs

def State.handle (s : State) (h : BitVec 4) : Handle := Handle.ofWord s.me.handles[h.toFin]

def State.setHandle (s : State) (h : BitVec 4) (x : Handle) : State :=
  s.updMe fun y => { y with handles := y.handles.set h.toFin x.toWord }

/-- GROUP_FAULT with a reason (R410). -/
def groupFault (s : State) (h : BitVec 4) (reason : Nat) : Stop :=
  let x := s.handle h
  .trap cGROUP_FAULT (BitVec.ofNat 64 (reason * 2 ^ 56 + h.toNat * 2 ^ 52 + (if x.v then s.reelName x.station x.entry else 0)))

/-- A request sent on a handle's account, and the answer awaited. -/
def askReel (s : State) (x : Handle) (op : Nat) (words : List Word) (ans key : Nat) (wait : WaitKind) : Stop :=
  let s1 := s.slotReel s.cur.tile s.cur.slot x op words false
  .waitIn (s1.updMe fun y => { y with pend := .reel ans key }) wait

/-- The wait on a handle's phase. -/
def phaseWait (x : Handle) : WaitKind := .reel x.station x.entry x.phase

/-- WAIT for a handle's phase (R419, R422). -/
def askPhase (s : State) (x : Handle) : Stop :=
  askReel s x rWAIT [BitVec.ofNat 64 x.phase, 0] rRESULT (reelKey 0 x.station x.entry x.phase) (phaseWait x)

/-- The handle at the phase after its own, its W bit as it was. -/
def Handle.next (x : Handle) : Handle := { x with phase := (x.phase + 1) % 32, arrived := 0 }

/-- Whether a handle is full (R407). -/
def Handle.full (x : Handle) : Bool := x.arrived == x.weight

/-- What an arriving instruction is (R420-R424): the weight and contribution it arrives with as a function of the room,
whether it is GBAR, whether it waits, its kind, and how it writes the station's answer. -/
structure ArriveOp where
  gbar : Bool
  waits : Bool
  kind : Nat
  /-- From the room: the weight and the contribution. -/
  give : State → Nat → Nat × Word
  /-- From PHASE, LASTRES, LASTDEP and LASTMIX: the registers written. -/
  fin : State → List Word → State

/-- The station's answer taken (R419, Await). -/
def takeResult (h : BitVec 4) (o : ArriveOp) (s : State) (ans : List Word) : State :=
  (o.fin ((s.setHandle h { (s.handle h).next with w := false }).updMe fun y => { y with pend := .none }) ans).adv 4

/-- The arrival sent once the handle's own phase is known: `x` is the handle that arrives (R419). -/
def sendArrival (h : BitVec 4) (o : ArriveOp) (s : State) (x : Handle) (n : Nat) (v : Word) : Except Stop State :=
  if s.released = false then .error (.wait .issue)
  else
    let x1 := { x with arrived := x.arrived + n }
    let words := [BitVec.ofNat 64 x.phase, BitVec.ofNat 64 n, BitVec.ofNat 64 o.kind, v, b2w o.waits]
    if o.waits then
      let s1 := s.setHandle h { x1 with w := true }
      if n = 0 then .error (askPhase s1 x1)
      else .error (askReel s1 x1 rARRIVE words rRESULT (reelKey 0 x1.station x1.entry x1.phase) (phaseWait x1))
    else
      let s1 := if n = 0 then s else s.slotReel s.cur.tile s.cur.slot x rARRIVE words false
      .ok (((s1.setHandle h x1).updMe fun y => { y with pend := .none }).adv 4)

/-- The common steps of GARR, GBAR, GVOTE and GRED (R419). -/
def arriveBody (h : BitVec 4) (o : ArriveOp) : Body := fun s =>
  let x := s.handle h
  if !x.v then .error (groupFault s h 0x01)
  else if x.w then
    match s.me.pend with
    | .reelDone _ ans => .ok (takeResult h o s ans)
    | .reel _ _ => .error (.wait (phaseWait x))
    | _ => .error (askPhase s x)
  else
    let renew := x.full && !o.gbar
    let room := if renew then x.weight else x.weight - x.arrived
    let (n, v) := o.give s room
    if room < n ∨ (isVote o.kind = true ∧ n < v.toNat) then .error (groupFault s h 0x02)
    else if n = 0 ∧ o.waits = false then .ok (s.adv 4)
    else if renew then
      match s.me.pend with
      | .reelDone _ _ => sendArrival h o s x.next n v
      | .reel _ _ => .error (.wait (phaseWait x))
      | _ => .error (askPhase s x)
    else sendArrival h o s x n v

/-- The active elements of a mask below VL (R420, R423). -/
def maskCount (s : State) (k : BitVec 3) : Nat := countOnes s.vec.vl.toNat (s.vec.fmask &&& s.vec.mask k).toNat

/-- A mask form: vector slots alone, and not while VT.BAD = 1 (R409). -/
def maskForm (enc : Nat) (b : Body) : Body := needVec enc fun s =>
  if s.vec.bad then .error (.trap cILLEGAL (BitVec.ofNat 64 enc)) else b s

/-! ### GNEW, GJOIN, GLEAVE (R411-R413) -/

/-- The handle a STATUS of OK binds. -/
def boundHandle (jw : Word) (ans : List Word) : Handle :=
  { v := true, scope := (wordAt ans 2).toNat % 4, station := (wordAt ans 5).toNat % 32, entry := (wordAt ans 4).toNat % 256,
    rank := bits jw 57 48, weight := bits jw 47 32, arrived := 0, w := false, phase := (wordAt ans 1).toNat % 32 }

/-- GNEW and GJOIN. -/
def joinBody (h : BitVec 4) (op scope : Nat) (d rs : BitVec 5) : Body := fun s =>
  let jw := s.g rs
  match s.me.pend with
  | .reelDone _ ans =>
    let s1 := s.updMe fun y => { y with pend := .none }
    let s2 := if wordAt ans 0 = 0 then s1.setHandle h (boundHandle jw ans) else s1
    .ok ((s2.setG d (wordAt ans 0)).adv 4)
  | .reel _ _ => .error (.wait .station)
  | _ =>
    if (s.handle h).v then .ok ((s.setG d 6).adv 4)
    else if bits jw 47 32 = 0 ∨ bits jw 63 58 ≠ 0 then .ok ((s.setG d 5).adv 4)
    else
      let x := s.me
      let name := bits jw 31 0
      let home := s.reelHome x.tenant.toNat x.netid.toNat name
      let hd : Handle := { v := true, scope := scope, station := home, entry := 0, rank := bits jw 57 48, weight := 0,
                           arrived := 0, w := false, phase := 0 }
      .error (askReel s hd op [jw, BitVec.ofNat 64 scope, x.pid.setWidth 64, BitVec.ofNat 64 s.cur.tile,
        BitVec.ofNat 64 s.cur.slot.val] rSTATUS name .station)

/-- GNEW (R411). -/
def execGnew (h : BitVec 4) (c : BitVec 3) (d rs : BitVec 5) (s : State) : Res :=
  runBody s (joinBody h rCREATE c.toNat d rs)

/-- GJOIN (R411, R414). -/
def execGjoin (h : BitVec 4) (d rs : BitVec 5) (s : State) : Res := runBody s (joinBody h rJOIN 0 d rs)

/-- GLEAVE: the handle is unbound at once and the leave sent (R413). -/
def execGleave (h : BitVec 4) (d : BitVec 5) (s : State) : Res :=
  runBody s fun st =>
    let x := st.handle h
    if x.v then
      let s1 := st.slotReel st.cur.tile st.cur.slot x rLEAVE [st.me.pid.setWidth 64] false
      .ok (((s1.updMe fun y => { y with handles := y.handles.set h.toFin 0 }).setG d 0).adv 4)
    else .ok ((st.setG d 7).adv 4)

/-! ### GARR, GBAR, GWAIT, GVOTE, GRED, GINFO -/

/-- GARR by the weight in a register (R420). -/
def execGarr (h : BitVec 4) (rs : BitVec 5) (s : State) : Res :=
  runBody s (arriveBody h { gbar := false, waits := false, kind := 0, give := fun st _ => ((st.g rs).toNat, 0),
                            fin := fun st _ => st })

/-- GARR by a mask's active elements (R420). -/
def execGarrMask (h : BitVec 4) (k : BitVec 3) (s : State) : Res :=
  runBody s (maskForm (reelEnc h 3 0 0 1 0 (k.setWidth 5)) (arriveBody h
    { gbar := false, waits := false, kind := 0, give := fun st _ => (maskCount st k, 0), fin := fun st _ => st }))

/-- GBAR (R421). -/
def execGbar (h : BitVec 4) (d : BitVec 5) (s : State) : Res :=
  runBody s (arriveBody h { gbar := true, waits := true, kind := 0, give := fun _ room => (room, 0),
                            fin := fun st ans => st.setG d (wordAt ans 0) })

/-- GWAIT: no arrival; a full handle whose phase has completed advances (R421). -/
def execGwait (h : BitVec 4) (d rs : BitVec 5) (s : State) : Res :=
  runBody s fun st =>
    let x := st.handle h
    let t : BitVec 32 := (st.g rs).setWidth 32
    let kind : WaitKind := .reel x.station x.entry t.toNat
    if !x.v then .error (groupFault st h 0x01)
    else
      let ask := askReel st x rWAIT [t.setWidth 64, 1] rRESULT (reelKey 1 x.station x.entry 0) kind
      match st.me.pend with
      | .reelDone _ ans =>
        let p : BitVec 32 := (wordAt ans 0).setWidth 32
        if (p - t - 1).toNat < 2 ^ 31 then
          let s1 := st.updMe fun y => { y with pend := .none }
          let s2 := if x.full ∧ p.toNat % 32 = (x.phase + 1) % 32 then s1.setHandle h x.next else s1
          .ok ((s2.setG d (p.setWidth 64)).adv 4)
        else .error ask
      | .reel _ _ => .error (.wait kind)
      | _ => .error ask

/-- The word a GVOTE writes (R423). -/
def voteWord (ans : List Word) : Word :=
  BitVec.ofNat 64 (bits (wordAt ans 1) 31 0 + bits (wordAt ans 2) 15 0 * 2 ^ 32 + bits (wordAt ans 3) 0 0 * 2 ^ 63)

/-- GVOTE by a predicate (R423). -/
def voteBody (kind : Nat) (h : BitVec 4) (d rs : BitVec 5) : Body :=
  arriveBody h { gbar := false, waits := true, kind := kind,
                 give := fun st room => (room, if st.g rs ≠ 0 then BitVec.ofNat 64 room else 0),
                 fin := fun st ans => st.setG d (voteWord ans) }

/-- GVOTE by a mask (R423). -/
def voteMaskBody (kind sub : Nat) (h : BitVec 4) (d : BitVec 5) (k : BitVec 3) : Body :=
  maskForm (reelEnc h 6 sub 0 1 d (k.setWidth 5)) (arriveBody h
    { gbar := false, waits := true, kind := kind, give := fun st room => (room, BitVec.ofNat 64 (maskCount st k)),
      fin := fun st ans => st.setG d (voteWord ans) })

/-- GVOTE.ALL (R423). -/
def execGvoteAll (h : BitVec 4) (d rs : BitVec 5) (s : State) : Res := runBody s (voteBody 1 h d rs)

/-- GVOTE.ANY (R423). -/
def execGvoteAny (h : BitVec 4) (d rs : BitVec 5) (s : State) : Res := runBody s (voteBody 2 h d rs)

/-- GVOTE.COUNT (R423). -/
def execGvoteCount (h : BitVec 4) (d rs : BitVec 5) (s : State) : Res := runBody s (voteBody 3 h d rs)

/-- GVOTE.ALL by a mask (R423). -/
def execGvoteAllMask (h : BitVec 4) (d : BitVec 5) (k : BitVec 3) (s : State) : Res := runBody s (voteMaskBody 1 0 h d k)

/-- GVOTE.ANY by a mask (R423). -/
def execGvoteAnyMask (h : BitVec 4) (d : BitVec 5) (k : BitVec 3) (s : State) : Res := runBody s (voteMaskBody 2 1 h d k)

/-- GVOTE.COUNT by a mask (R423). -/
def execGvoteCountMask (h : BitVec 4) (d : BitVec 5) (k : BitVec 3) (s : State) : Res :=
  runBody s (voteMaskBody 3 2 h d k)

/-- GRED: the result to g d, the departed count and MIXED to g s (R424); d = s other than g0 is ILLEGAL (R409). -/
def redBody (op : Nat) (h : BitVec 4) (y : BitVec 3) (d rs : BitVec 5) : Body := fun s =>
  if d = rs ∧ d ≠ 0 then .error (.trap cILLEGAL (BitVec.ofNat 64 (reelEnc h 7 op y.toNat 0 d rs)))
  else arriveBody h
    { gbar := false, waits := true, kind := 4 + 3 * op + y.toNat,
      give := fun st room => (room, BitVec.ofNat 64 ((st.g rs).toNat % 2 ^ redWidth y.toNat)),
      fin := fun st ans => (st.setG d (wordAt ans 1)).setG rs
        (BitVec.ofNat 64 (bits (wordAt ans 2) 31 0 + bits (wordAt ans 3) 0 0 * 2 ^ 63)) } s

/-- GRED.SUM (R424). -/
def execGredSum (h : BitVec 4) (y : BitVec 3) (d rs : BitVec 5) (s : State) : Res := runBody s (redBody 0 h y d rs)

/-- GRED.MIN (R424). -/
def execGredMin (h : BitVec 4) (y : BitVec 3) (d rs : BitVec 5) (s : State) : Res := runBody s (redBody 1 h y d rs)

/-- GRED.MAX (R424). -/
def execGredMax (h : BitVec 4) (y : BitVec 3) (d rs : BitVec 5) (s : State) : Res := runBody s (redBody 2 h y d rs)

/-- GINFO (R426). -/
def execGinfo (h : BitVec 4) (d : BitVec 5) (s : State) : Res :=
  runBody s fun st =>
    let x := st.handle h
    if !x.v then .error (groupFault st h 0x01)
    else match st.me.pend with
      | .reelDone _ ans =>
        let v := BitVec.ofNat 64 (bits (wordAt ans 0) 31 0 + bits (wordAt ans 1) 10 0 * 2 ^ 32 + bits (wordAt ans 2) 15 0 * 2 ^ 48)
        .ok (((st.updMe fun y => { y with pend := .none }).setG d v).adv 4)
      | .reel _ _ => .error (.wait .station)
      | _ => .error (askReel st x rINFO [0] rRESULT (reelKey 2 x.station x.entry 0) .station)

end Sys2Proof.Machine
end

