-- ==== Sys2Proof/Machine/Probe.lean ====
section
/-!
DEFINITION. Deadlock probes and channel growth (10_channels.md R345-R353; 16_program_split_rejoin.md R480): launching a
probe, the edges it follows, its verdicts, growth requests, spill claims and the replies to spill requests.
-/
namespace Sys2Proof.Machine

/-! ### The probe (R348) -/

structure Probe where
  id : Nat
  slot : Nat
  art : Bool
  trunc : Bool
  hops : Nat
  best : Nat
  bestCap : Nat
  lowest : Nat
  edges : List Word
  deriving DecidableEq, Repr

/-- Bytes 0 to 23. -/
def Probe.head (p : Probe) : List Byte :=
  toBytes 4 p.id ++ toBytes 2 p.slot ++ toBytes 2 (b2n p.art + b2n p.trunc * 2) ++ toBytes 4 p.hops ++ toBytes 4 p.best
    ++ toBytes 4 p.bestCap ++ toBytes 4 p.lowest

def Probe.bytes (p : Probe) : List Byte :=
  let b := p.head ++ List.replicate 40 0 ++ ofWords p.edges
  b ++ List.replicate (512 - b.length) 0

def Probe.ofBytes (b : List Byte) : Probe :=
  let f := fun a n => Sys2Proof.Machine.ofBytes ((b.drop a).take n)
  { id := f 0 4, slot := f 4 2 % 8, art := f 6 2 % 2 == 1, trunc := f 6 2 / 2 % 2 == 1, hops := f 8 4, best := f 12 4,
    bestCap := f 16 4, lowest := f 20 4, edges := toWords ((b.drop 64).take (8 * min (f 8 4) 56)) }

/-- A wait-for edge: kind 0 read, 1 write, 2 reel; its place and the process it leads to. -/
structure Edge where
  kind : Nat
  cap : Nat
  name : Nat
  dst : Ep
  pid : Nat
  deriving DecidableEq, Repr

def Edge.word (e : Edge) : Word := BitVec.ofNat 64 (e.kind * 2 ^ 62 + e.cap % 2 ^ 30 * 2 ^ 32 + e.name)

/-- LOWEST of a probe that has crossed no channel's edge. -/
def noChan : Nat := 2 ^ 24 - 1

/-- LOWEST as a verdict gives it: 0 for a cycle of reel edges (DESIGN CHOICE: notes/assumptions/32.md). -/
def Probe.low (p : Probe) : Nat := if p.lowest = noChan ∧ p.edges.all (fun w => bits w 63 62 == 2) = true then 0 else p.lowest

/-- The probe after it crosses an edge. -/
def Probe.cross (p : Probe) (e : Edge) : Probe :=
  let better := e.kind == 1 && (!p.art || decide (e.cap < p.bestCap) || (e.cap == p.bestCap && decide (e.name < p.best)))
  { p with
    hops := p.hops + 1
    art := p.art || e.kind == 1
    best := if better then e.name else p.best
    bestCap := if better then e.cap else p.bestCap
    lowest := if e.kind = 2 then p.lowest else min p.lowest e.name
    trunc := p.trunc || decide (56 ≤ p.edges.length)
    edges := if p.edges.length < 56 then p.edges ++ [e.word] else p.edges }

/-! ### Edges (R346) -/

/-- Whether a receive end still lacks one of `n` tokens. -/
def RecvEnd.lacks (e : RecvEnd) (n : Nat) : Bool := decide (e.avail n < n) && !e.endAfter (e.avail n)

/-- Read edges of the receives named: none towards a memory server. -/
def State.recvEdges (s : State) (t : Nat) (l : List (Nat × Nat)) : List Edge :=
  l.filterMap fun i => match mapFind (s.tile t).ends i.1 with
    | some (.recv e) =>
      if e.lacks i.2 ∧ e.peer.kind = .tile then
        (s.findSend e.peer.num e.netid e.chan).map fun p =>
          { kind := 0, cap := 0, name := e.chan, dst := e.peer, pid := p.2.pid }
      else none
    | _ => none

/-- The write edge of a send that needs `n` credits, with the channel's current capacity, which its consumer tile sets (R348,
R480). -/
def State.sendEdges (s : State) (t i n : Nat) : List Edge :=
  match mapFind (s.tile t).ends i with
  | some (.send e) =>
    if e.credits < n ∧ e.noticed = false ∧ e.peer.kind = .tile then
      match s.findRecv e.peer.num e.netid e.chan with
      | some (_, r) => [{ kind := 1, cap := r.cap, name := e.chan, dst := e.peer, pid := r.pid }]
      | none => []
    else []
  | _ => []

/-- The edges of a process resident in a slot. -/
def State.slotEdges (s : State) (t : Nat) (k : Fin 8) : List Edge :=
  let x := s.slot t k
  if x.run = .running then
    match x.wait with
    | some w => match w.kind with
      | .recv l => s.recvEdges t l
      | .send i n l => s.recvEdges t l ++ s.sendEdges t i n
      | .reel st en _ => match x.pend with
        | .reelDone _ _ => []
        | _ => match mapFind (s.reelSt st).entries en with
          | some r => [{ kind := 2, cap := 0, name := r.name.toNat, dst := ⟨.reel, st⟩, pid := x.pid.toNat }]
          | none => []
      | _ => []
    | none => []
  else []

/-- The edges of a watched park record: WAIT 1 on its port. -/
def State.recordEdges (s : State) (t : Nat) (w : WatchRec) : List Edge :=
  if w.wait = 1 then
    match (s.tile t).ends.find? (fun e => match e.2 with
      | .recv r => r.pid == w.pid && r.port == w.port
      | .send _ => false) with
    | some (i, _) => s.recvEdges t [(i, 1)]
    | none => []
  else []

/-- Whether a slot's wait still launches probes: it lacks what it waits for (R345). -/
def State.stillWaits (s : State) (t : Nat) (k : Fin 8) : Bool :=
  let x := s.slot t k
  let lacks := fun (l : List (Nat × Nat)) => l.any fun i => match mapFind (s.tile t).ends i.1 with
    | some (.recv e) => e.lacks i.2
    | _ => false
  x.run == .running && match x.wait with
    | some w => match w.kind with
      | .recv l => lacks l
      | .send i n l => lacks l || match mapFind (s.tile t).ends i with
        | some (.send e) => decide (e.credits < n) && !e.noticed
        | _ => false
      | .reel _ _ _ => match x.pend with
        | .reelDone _ _ => false
        | _ => true
      | _ => false
    | none => false

/-- A copy of a probe sent along each edge, from the account of `slot` (R346). -/
def State.sendProbes (s : State) (t : Nat) (slot : Nat) (netid : Nat) (p : Probe) (es : List Edge) : State :=
  es.foldl (fun s' e =>
    let st : Stream := if e.kind = 2 then .none else .chan netid e.name
    s'.sendControl ⟨.tile, t⟩ e.dst slot (s.netTnt netid) 0x05 0 st (p.cross e).bytes e.pid netid) s

/-- One copy of a probe sent on as `k` copies, or dropped. -/
def State.spread (s : State) (p : Probe) (k : Nat) : State := s.probeSpread p.id p.slot k

/-- PROBE_LAUNCH (R345): a wait that has lasted its delay, while no growth it asked for is pending at the host. -/
def execProbeLaunch (tile : Nat) (slot : Fin 8) (s : State) : Res := runEvent s fun st =>
  let x := st.slot tile slot
  match x.wait with
  | some w =>
    let pending := st.mgr.assists.any fun a => match a.what with
      | .growth u k _ _ _ _ _ => u == tile && k == slot
      | _ => false
    match w.probeAt, w.kind.delay with
    | some d, some _ =>
      if d ≤ st.units ∧ st.stillWaits tile slot = true ∧ pending = false then
        let y := st.tile tile
        let id := tile % 65536 * 65536 + y.probeCtr.toNat
        let es := st.slotEdges tile slot
        let out : ProbeOut := { id := BitVec.ofNat 32 id, live := es.length, acted := false }
        let w1 := { w with probes := out :: w.probes, probeAt := if es = [] then some (st.nextProbe tile w) else none }
        let s1 := (st.modTile tile fun z => { z with probeCtr := z.probeCtr + 1 }.perf 0x0013 none 1).modSlot tile slot
          fun z => { z with wait := some w1 }
        let p : Probe := { id := id, slot := slot.val, art := false, trunc := false, hops := 0, best := 0, bestCap := 0,
                           lowest := noChan, edges := [] }
        s1.sendProbes tile slot.val x.netid.toNat p es
      else st
    | _, _ => st
  | none => st

/-! ### Growth (R350, R351, R480) -/

/-- A growth of the receive end `i` of a tile for a capacity that a probe saw: discarded unless it is still the current
one. -/
def State.growAt (s : State) (t i : Nat) (e : RecvEnd) (cap : Nat) : State :=
  if e.cap ≠ cap ∨ e.dead = true then s
  else if 2 ^ 24 < 2 * e.cap then s.terminalNet ⟨.tile, t⟩ e.netid none cSPILL_EXHAUSTED (BitVec.ofNat 64 e.chan)
  else
    let e1 := { e with cap := 2 * e.cap, claims := e.claims ++ [e.cap] }
    (s.setEnd t i (.recv e1)).sendSpill t e1
      (reqWords 0x05 0 8 (4 * e.cap) (s.spillAddr e.netid 0) ++ [amoWord 0 false, BitVec.ofNat 64 (8 * e.cap), 0]) false

/-- The tile of a channel's consumer. -/
def State.consumerTile (s : State) (netid chan : Nat) : Option Nat :=
  match s.net netid with
  | some n => match n.chans.find? fun c => c.id == chan with
    | some c => (s.mgr.procs.find? fun p => p.netid == netid && p.idx == c.cons).map (·.tile)
    | none => none
  | none => none

/-- A channel grown: at once where its consumer is this tile, otherwise by GROW (R350). -/
def State.growChannel (s : State) (t : Nat) (slot netid chan cap : Nat) : State :=
  match s.consumerTile netid chan with
  | some c =>
    if c = t then
      match s.findRecv t netid chan with
      | some (i, e) => s.growAt t i e cap
      | none => s
    else s.sendControl ⟨.tile, t⟩ ⟨.tile, c⟩ slot (s.netTnt netid) 0x06 chan (.chan netid chan) (toBytes 8 cap) 0 netid
  | none => s

/-- GROW at the consumer tile. -/
def execGrow (ep : Ep) (i : Nat) (s : State) : Res := runEvent s fun st =>
  match (st.fab ep).inbox[i]? with
  | some m =>
    if ep.kind = .tile ∧ m.hdr.cls = clsCONTROL ∧ bits m.hdr.arg 7 0 = 0x06 then
      let s1 := st.takeMsg ep i m
      match m.hdr.chanOf with
      | some (netid, c) => match s1.findRecv ep.num netid c with
        | some (j, e) => s1.growAt ep.num j e (ofBytes (m.payload.take 8))
        | none => s1
      | none => s1
    else st
  | none => st

/-- An extension inserted in claim order: the claims of one channel double, so by size. -/
def insertExt (o c : Nat) : List (Nat × Nat) → List (Nat × Nat)
  | [] => [(o, c)]
  | x :: r => if c < x.2 then (o, c) :: x :: r else x :: insertExt o c r

/-- The bytes a growth may claim of a network's spill region: its size, and no more than the budget leaves the network as it
stands, beside the regions of its siblings (R351; 01_machine.md R40; 13_system_tables.md R444). -/
def State.spillLimit (s : State) (netid : Nat) : Nat :=
  min (s.spillUse netid) (s.netLeft (·.spill) (fun n => if n = netid then 0 else s.spillUse n) (fun _ => 0) netid)

/-- A reply to a spill request at its consumer tile. -/
def State.spillReply (s : State) (ep : Ep) (i : Nat) (ok : Nat → Bool)
    (f : State → Nat → RecvEnd → Nat → Nat → Word → State) : State :=
  match (s.fab ep).inbox[i]? with
  | some m =>
    let w := toWords m.payload
    let tag := bits (wordAt w 0) 31 0
    match m.hdr.stream with
    | .spill netid c =>
      if ep.kind = .tile ∧ m.hdr.cls = clsTOKENS ∧ ok tag = true then
        let s1 := s.takeMsg ep i m
        match s1.findRecv ep.num netid c with
        | some (j, e) => f s1 j e tag (bits (wordAt w 0) 39 32) (wordAt w 2)
        | none => s1
      else s
    | _ => s
  | none => s

/-- SPILL_CLAIM_REPLY (R480): the extension joins the channel's, and its credits go to the send end; or the spill is
exhausted. -/
def execSpillClaimReply (ep : Ep) (i : Nat) (s : State) : Res := runEvent s fun st =>
  st.spillReply ep i (fun tag => tag % 4 == 0) fun s1 j e tag status v =>
    let c := tag / 4
    let t := ep.num
    if status ≠ 0 ∨ s1.spillLimit e.netid < v.toNat + 8 * c then
      s1.terminalNet ep e.netid none cSPILL_EXHAUSTED (BitVec.ofNat 64 e.chan)
    else
      let e1 := { e with exts := insertExt v.toNat c e.exts, claims := e.claims.erase c, returned := e.returned + c,
                         grown := e.grown + c }
      ((((s1.setEnd t j (.recv e1)).modTile t fun x => x.perf 0x0014 none 1).sendCredit t e1).spillTidy t j)

/-- SPILL_READ (R352): the oldest spilled token, read back into the channel area, or for an
instruction that needs it at once; or the acknowledgement of a spill
write. A fault of either exhausts the spill. -/
def execSpillRead (ep : Ep) (i : Nat) (s : State) : Res := runEvent s fun st =>
  st.spillReply ep i (fun tag => tag % 4 == 1 || tag % 4 == 2) fun s1 j e tag status v =>
    let t := ep.num
    if status ≠ 0 then s1.terminalNet ep e.netid none cSPILL_EXHAUSTED (BitVec.ofNat 64 e.chan)
    else if tag % 4 = 2 then s1
    else
      match e.spilled with
      | (q, _, psn) :: r =>
        let e1 := { e with spilled := r, reading := false }
        let s2 := if q < e.nextSeq + e.decl then s1.modTile t fun x => x.placeToken j e1 q v psn
          else s1.setEnd t j (.recv { e1 with ahead := e.ahead ++ [(q, v, psn)] })
        (s2.modTile t fun x => x.delivered e1.pid e1.port).spillTidy t j
      | [] => s1

/-! ### A probe on its way (R346, R347, R353) -/

/-- The verdict of a probe back at its origin (R349). -/
def State.verdict (s : State) (t : Nat) (k : Fin 8) (p : Probe) : State :=
  let netid := (s.slot t k).netid.toNat
  let tnt := s.netTnt netid
  if p.art then
    if bit (s.assistBits tnt) 1 then
      let writes := (p.edges.filter fun w => bits w 63 62 == 1).map fun w => (bits w 23 0, bits w 61 32)
      s.askHost 1 tnt netid (p.head ++ ofWords p.edges) (.growth t k p.best p.bestCap p.low netid writes)
    else s.growChannel t k.val netid p.best p.bestCap
  else s.terminalNet ⟨.tile, t⟩ netid none cDEADLOCK (BitVec.ofNat 64 (p.low % 2 ^ 24 + t % 65536 * 2 ^ 32))

/-- A copy back at its origin: acted on once, while the origin is still in the wait it was launched from, and the next launch is
due one delay later; discarded otherwise. -/
def State.probeReturn (s : State) (t : Nat) (k : Fin 8) (p : Probe) : State :=
  match (s.slot t k).wait with
  | some w =>
    let id := BitVec.ofNat 32 p.id
    if (w.probes.any fun y => y.id == id && !y.acted) = true ∧ s.stillWaits t k = true then
      let w1 := { w with probes := w.probes.map fun y => if y.id = id then { y with live := y.live - 1, acted := true } else y,
                         probeAt := some (s.nextProbe t w) }
      (s.modSlot t k fun x => { x with wait := some w1 }).verdict t k p
    else s.spread p 0
  | none => s

/-- The slot in which a PID of a network is resident. -/
def State.residentIn (s : State) (t pid netid : Nat) : Option (Fin 8) :=
  (List.finRange 8).find? fun k =>
    decide ((s.slot t k).run = RunState.running) && (s.slot t k).pid.toNat == pid && (s.slot t k).netid.toNat == netid

/-- A copy at a process's tile: through the resident context, or a watched record of its PID; otherwise dropped. A
station's copy looks for the context in the slot its member names. -/
def State.probeAtTile (s : State) (t : Nat) (m : Msg) (p : Probe) : State :=
  let h := m.hdr
  let id := BitVec.ofNat 32 p.id
  let slot := match h.chanOf with
    | some _ => s.residentIn t h.pid h.netid
    | none =>
      let k := Fin.ofNat 8 h.aslot
      if (s.slot t k).run = RunState.running ∧ (s.slot t k).pid.toNat = h.pid ∧ (s.slot t k).netid.toNat = h.netid then some k
      else none
  match slot with
  | some k =>
    if p.id / 65536 = t % 65536 ∧ p.slot = k.val then s.probeReturn t k p
    else if (s.slot t k).lastProbe = some id then s.spread p 0
    else
      let es := s.slotEdges t k
      ((s.modSlot t k fun x => { x with lastProbe := some id }).sendProbes t k.val h.netid p es).spread p es.length
  | none =>
    match findIdx (fun w : WatchRec => w.pid == h.pid) (s.tile t).watch with
    | some j => match (s.tile t).watch[j]? with
      | some w =>
        if w.lastProbe = some id then s.spread p 0
        else
          let es := s.recordEdges t w
          ((s.modTile t fun x => { x with watch := listSet x.watch j { w with lastProbe := some id } }).sendProbes t 0
            h.netid p es).spread p es.length
      | none => s.spread p 0
    | none => s.spread p 0

/-- Whether a member of an entry is counted for a phase and has not arrived (R346): a pending member is counted from the phase
after the open one (12_reels.md R414). -/
def Member.awaited (y : Member) (opened phase : BitVec 32) : Bool :=
  match y.state with
  | .counted => decide (y.arr < y.weight) || (phase != opened && decide (y.early < y.weight))
  | .pending => phase != opened && decide (y.early < y.weight)
  | .leaving => false

/-- A copy at a reel's home: on to each member counted for the awaited phase that has not arrived. -/
def State.probeAtReel (s : State) (n : Nat) (m : Msg) : State :=
  let x := s.reelSt n
  match x.waiters.find? fun w => w.tile == m.hdr.src.num && w.slot == m.hdr.slot && w.pid == m.hdr.pid with
  | some w => match mapFind x.entries w.entry with
    | some r =>
      let late := (x.of w.entry).filter fun y => y.2.awaited r.phase w.phase
      (late.foldl (fun s' y =>
        s'.sendControl ⟨.reel, n⟩ ⟨.tile, y.2.tile⟩ y.2.slot m.hdr.tnt 0x05 0 .none m.payload y.2.pid.toNat m.hdr.netid) s).spread
        (Probe.ofBytes m.payload) late.length
    | none => s.spread (Probe.ofBytes m.payload) 0
  | none => s.spread (Probe.ofBytes m.payload) 0

/-- PROBE: a copy follows the wait-for edges of what it has reached, or is back at its origin. -/
def execProbe (ep : Ep) (i : Nat) (s : State) : Res := runEvent s fun st =>
  match (st.fab ep).inbox[i]? with
  | some m =>
    if m.hdr.cls = clsCONTROL ∧ bits m.hdr.arg 7 0 = 0x05 then
      let s1 := st.takeMsg ep i m
      let p := Probe.ofBytes m.payload
      if 65535 ≤ p.hops then (s1.count ep ctrPROBEDROP 1).spread p 0
      else match ep.kind with
        | .tile => s1.probeAtTile ep.num m p
        | .reel => s1.probeAtReel ep.num m
        | _ => s1.spread p 0
    else st
  | none => st

end Sys2Proof.Machine
end

