-- ==== Sys2Proof/Machine/Assist.lean ====
section
/-!
DEFINITION. ASSIST_ANSWERs (01_machine.md R55-R58, R60, R73): which one the manager takes, and what it does for the
function that waits. An answer R56 does not allow has the effect of the hardware mode.
-/
namespace Sys2Proof.Machine

/-! ### Taking an answer (R60) -/

/-- Messages behind the head, up to `k` of them, from number `n`: the first ASSIST_ANSWER not handled yet. -/
def State.answerBehind (s : State) : Nat → Nat → Option Nat
  | 0, _ => none
  | k + 1, n => if (s.hostMsg n).kind = 6 ∧ n ∉ s.mgr.ahead then some n else s.answerBehind k (n + 1)

/-- The answer the manager takes next: the head, or, while the head waits, one behind it. -/
def State.nextAnswer (s : State) : Option (Nat × HMsg) :=
  match (if s.mgr.acking = 0 then s.headMsg else none) with
  | none => none
  | some m =>
    if m.kind = 6 then some (s.mgr.taken, m)
    else if s.mgr.waiting then
      (s.answerBehind (s.hostCount - s.mgr.taken - 1) (s.mgr.taken + 1)).map fun n => (n, s.hostMsg n)
    else none

/-- An answer handled: TAKEN passes it only together with the messages before it. -/
def State.takeAnswer (s : State) (n : Nat) : State :=
  if n = s.mgr.taken then s.takeHost else s.modMgr fun m => { m with ahead := n :: m.ahead }

/-- LEN of an answer by function and verdict. -/
def answerLen (func verdict : Nat) : Nat :=
  if verdict ≠ 1 then 8
  else match func with
    | 0 => 17
    | 1 => 12
    | 4 => 20
    | 5 => 10
    | _ => 8

/-- Whether an answer is discarded for its form: the header, the tenant, LEN, a res byte (R63, R66, R73). -/
def State.answerBad (s : State) (m : HMsg) : Bool :=
  m.res || !needPart s m || m.len != answerLen (m.u 0 1) (m.u 1 1) || m.resUsed [2, 3, 4, 5, 6, 7]

/-- An answer of the functions `mine` holds of; its request, its verdict and the message go to `f`. -/
def State.answerRow (s : State) (mine : Nat → Bool) (f : State → Assist → Nat → HMsg → State) : State :=
  match s.nextAnswer with
  | none => s
  | some (n, m) =>
    if mine (m.u 0 1) then
      let s1 := s.takeAnswer n
      match s.mgr.assists.find? fun a => a.tag.toNat == m.tag && a.func == m.u 0 1 with
      | some a =>
        if s.answerBad m then s1
        else f (s1.modMgr fun x => { x with assists := x.assists.filter fun (b : Assist) => b.tag != a.tag }) a (m.u 1 1) m
      | none => s1
    else s

/-! ### Translation (function 0) -/

/-- The host's leaf installed for the page that holds an address; none where it does not fit (R505). -/
def State.installLeaf (s : State) (tnt pid va : Nat) (m : HMsg) : Option State :=
  let leaf : Word := BitVec.ofNat 64 (m.u 8 8)
  let level := m.u 16 1
  match s.part tnt with
  | none => none
  | some p =>
    if leafOperand leaf level = false ∨ s.mapOk p pid (pageBase level va) level leaf = false
        ∨ (s.migOf tnt pid (pageBase level va)).isSome = true then none
    else s.mapPage tnt pid (pageBase level va) level leaf

/-- The state in which what asked for a page goes on: after INSTALL, or with the page that is there now, which an earlier
answer has given (R52); none after DENY, and where the page is missing and the answer gives none, as in hardware mode (R56). -/
def State.pageAnswered (s : State) (tnt pid va verdict : Nat) (m : HMsg) : Option State :=
  if verdict = 0 then none
  else match s.walk tnt pid va with
    | .leaf _ => some s
    | _ => if verdict = 1 then s.installLeaf tnt pid va m else none

/-- A request or frame that waited at a station goes on, with or without its page. -/
def State.resumeMiss (s : State) (st : Ep) (m : Msg) (there : Bool) : State :=
  if there then s.goOn st m else s.goWithout st m

/-- A slot whose element waited goes on; a page that is not there counts as refused. -/
def Slot.missAnswered (x : Slot) (va : Nat) (there : Bool) : Slot :=
  match x.pend with
  | .copy c =>
    if c.asked then { x with pend := .copy { c with asked := false, denied := if there then c.denied else va / 2 ^ 16 :: c.denied } }
    else x
  | _ => x

/-- A server pair whose request waited goes on. -/
def State.pairAnswered (s : State) (n netid chan va : Nat) (there : Bool) : State :=
  match s.findPair n netid chan with
  | some (i, p) => s.setPair n i { p with asking := false, denied := if there then p.denied else va / 2 ^ 16 :: p.denied }
  | none => s

def State.answerTranslation (s : State) (a : Assist) (verdict : Nat) (m : HMsg) : State :=
  let place := fun (pid va : Nat) => s.pageAnswered a.tnt pid va verdict m
  match a.what with
  | .translation st q va pid _ => match place pid va with
    | some s1 => s1.resumeMiss st q true
    | none => s.resumeMiss st q false
  | .element t k va pid =>
    let r := place pid va
    (r.getD s).modSlot t k fun x => if x.pid.toNat = pid then x.missAnswered va r.isSome else x
  | .drain t va =>
    let r := place 0 va
    (r.getD s).modTile t fun x =>
      let no := if r.isSome then x.trace.denied else va / 2 ^ 16 :: x.trace.denied
      { x with trace := { x.trace with asking := false, denied := no } }
  | .server n netid chan va pid =>
    let r := place pid va
    (r.getD s).pairAnswered n netid chan va r.isSome
  | _ => s

/-- ASSIST_ANSWER_TRANSLATION, and an answer of no function R73 lists, which is discarded. -/
def execAssistAnswerTranslation (s : State) : Res :=
  runEvent s fun st => st.answerRow (fun n => n == 0 || decide (5 < n)) State.answerTranslation

/-! ### Growth (function 1) -/

/-- The answer to a growth's request. The channel ID of GROW lies in [23:0] of bytes 8 to 11: a set bit above it names no channel
of the cycle (DESIGN CHOICE: notes/assumptions/56.md). -/
def State.answerGrowth (s : State) (a : Assist) (verdict : Nat) (m : HMsg) : State :=
  match a.what with
  | .growth t k best cap lowest netid edges =>
    if verdict = 0 then
      s.terminalNet ⟨.tile, t⟩ netid none cDEADLOCK (BitVec.ofNat 64 (lowest % 2 ^ 24 + t % 65536 * 2 ^ 32))
    else match (if verdict = 1 then edges.find? fun e => e.1 == m.u 8 4 else none) with
      | some (c, n) => s.growChannel t k.val netid c n
      | none => s.growChannel t k.val netid best cap
  | _ => s

/-- ASSIST_ANSWER_GROWTH: a write-blocked channel of the cycle grown, or DEADLOCK. -/
def execAssistAnswerGrowth (s : State) : Res := runEvent s fun st => st.answerRow (· == 1) State.answerGrowth

/-! ### Reels (function 2) -/

def State.answerReel (s : State) (a : Assist) (verdict : Nat) (_ : HMsg) : State :=
  match a.what with
  | .reel n =>
    match (s.reelSt n).asked.find? fun q => q.1 == a.tag.toNat with
    | some (tag, q) =>
      let s1 := s.modReel n fun x => { x with asked := x.asked.filter fun r => r.1 != tag }
      if verdict = 1 then s1.reelJoin n q (bits q.hdr.arg 7 0 == rCREATE) else s1.reelStatus n q 4 0 0 0
    | none => s
  | _ => s

/-- ASSIST_ANSWER_REEL: the request tried again, or NOSPACE. -/
def execAssistAnswerReel (s : State) : Res := runEvent s fun st => st.answerRow (· == 2) State.answerReel

/-! ### Links (function 3) -/

def State.answerLink (s : State) (a : Assist) (verdict : Nat) (_ : HMsg) : State :=
  match a.what with
  | .link n =>
    if verdict = 0 then s
    else if verdict = 1 then s.linkUp n
    else s.modLink n fun (l : Link) => { l with auto := true }
  | _ => s

/-- ASSIST_ANSWER_LINK: the rate held, or raised one step. -/
def execAssistAnswerLink (s : State) : Res := runEvent s fun st => st.answerRow (· == 3) State.answerLink

/-! ### Decode tables (function 4) -/

def State.answerDecode (s : State) (_ : Assist) (verdict : Nat) (m : HMsg) : State :=
  let sent := if verdict = 1 then Mem.readBytes s.host (m.u 8 8) (m.u 16 4) else []
  let image := if verdict = 0 then [] else if sent = [] then Config.decodeImage else sent
  s.modMgr fun x => { x with decodeAns := some image }

/-- ASSIST_ANSWER_DECODE: the table kept, or an image for the LAUNCH that waits. -/
def execAssistAnswerDecode (s : State) : Res := runEvent s fun st => st.answerRow (· == 4) State.answerDecode

/-! ### Voltas (function 5) -/

/-- The target handed to the MIGRATE that waits; no tile's number leaves the choice to the hardware. -/
def State.answerMigration (s : State) (a : Assist) (verdict : Nat) (m : HMsg) : State :=
  match a.what with
  | .migration t k => s.modSlot t k fun x => match x.pend with
    | .volta tag none => if tag = a.tag.toNat then { x with pend := .volta tag (some (if verdict = 1 then m.u 8 2 else 0xFFFF)) }
      else x
    | _ => x
  | _ => s

/-- ASSIST_ANSWER_MIGRATION. -/
def execAssistAnswerMigration (s : State) : Res := runEvent s fun st => st.answerRow (· == 5) State.answerMigration

end Sys2Proof.Machine
end

