-- ==== Sys2Proof/Machine/Bind.lean ====
section
/-!
DEFINITION. Where channel ends lie at a tile (10_channels.md R326, R327), and MANAGE_REBIND (R341-R343).
-/
namespace Sys2Proof.Machine

/-! ### The channel area and the endpoint table (R327) -/

/-- Channel areas in use at a tile: address and bytes. -/
def Tile.areas (x : Tile) : List (Nat × Nat) :=
  x.ends.filterMap fun e => match e.2 with
    | .recv r => some (r.base, 8 * r.decl)
    | .send _ => none

/-- Slots of the channel areas in use. -/
def Tile.areaSlots (x : Tile) : Nat := x.areas.foldl (fun n a => n + a.2 / 8) 0

/-- Where the manager puts a channel area of `n` slots: as high in scalar data memory as is free
(DESIGN CHOICE: notes/assumptions/24.md). -/
def Tile.areaAt (x : Tile) (n : Nat) : Nat :=
  let used := x.areas
  (0xD0000 :: used.map (·.1)).foldl (fun best a =>
    let b := a - 8 * n
    if used.any (fun u => overlaps b (8 * n) u.1 u.2) then best else max best b) 0

/-- An end put into a tile's endpoint table, and its port bound to it, in slot `k`. -/
def Tile.bindEnd (x : Tile) (k : Fin 8) (i port chan : Nat) (send : Bool) (e : EndPt) : Tile :=
  ({ x with ends := mapSet x.ends i e } : Tile).modSlot k fun y =>
    { y with ports := y.ports.set (Fin.ofNat 16 port) (mkDesc i chan send) }

/-! ### REBIND -/

/-- Whether a message belongs to a channel or its spill. -/
def MsgHdr.ofChan (h : MsgHdr) (netid chan : Nat) : Bool := h.stream == .chan netid chan || h.stream == .spill netid chan

/-- Whether nothing of a channel is under way at a fabric end: no fragment, and no message without its acknowledgement. -/
def Fabric.quietFor (f : Fabric) (netid chan : Nat) : Bool :=
  (f.bufs.all fun b => !b.hdr.ofChan netid chan) && (f.held.all fun h => !h.frag.hdr.ofChan netid chan) &&
    (f.inbox.all fun m => !m.hdr.ofChan netid chan) && (f.injHeld.all fun h => !h.1.hdr.ofChan netid chan) &&
    f.shadow.all fun x => x.done || x.lost || !x.msg.hdr.ofChan netid chan

/-- Whether a channel is quiet: the manager moves an end only then, so that nothing has to follow it
(DESIGN CHOICE: notes/assumptions/25.md). -/
def State.quietChan (s : State) (netid chan : Nat) : Bool :=
  (s.wire.all fun f => !f.hdr.ofChan netid chan) &&
    (s.links.all fun l => l.2.heldFlits.all fun f => !f.hdr.ofChan netid chan) &&
    (s.tiles.all fun x => x.2.fab.quietFor netid chan && x.2.ends.all fun e => match e.2 with
      | .recv r => r.netid != netid || r.chan != chan || (r.claims.isEmpty && !r.reading && r.early.isEmpty && r.ahead.isEmpty)
      | .send _ => true) &&
    s.edges.all fun x => x.2.fab.quietFor netid chan

/-- The tile, index and state of one end of a channel. -/
def State.findEnd (s : State) (netid chan : Nat) (send : Bool) : Option (Nat × Nat × EndPt) :=
  s.tiles.findSome? fun x => x.2.ends.findSome? fun e => match e.2 with
    | .send y => if send ∧ y.netid = netid ∧ y.chan = chan then some (x.1, e.1, e.2) else none
    | .recv y => if !send ∧ y.netid = netid ∧ y.chan = chan then some (x.1, e.1, e.2) else none

/-- The slot of a process's tile in which it is resident. -/
def State.homeSlot (s : State) (p : Proc) : Option (Fin 8) :=
  (List.finRange 8).find? fun k =>
    decide ((s.slot p.tile k).run ≠ RunState.empty) && (s.slot p.tile k).pid.toNat == p.pid &&
      (s.slot p.tile k).netid.toNat == p.netid

/-- The tokens of a receive end carried to its area at another tile. -/
def State.carryTokens (s : State) (t u : Nat) (old new : RecvEnd) : State :=
  old.held.foldl (fun s' h =>
    s'.modTile u fun x => { x with mem := Mem.store x.mem (new.slotAddr h.1) 8 (Mem.load (s.tile t).mem (old.slotAddr h.1) 8) })
    s

/-- Messages of a stream that await only credits, moved to the send end's new place. -/
def State.carryShadow (s : State) (t u : Nat) (netid chan : Nat) : State :=
  let mine := fun (x : Shadow) => decide (x.msg.hdr.cls = clsTOKENS) && x.msg.hdr.stream == .chan netid chan
  let moved := (s.tile t).fab.shadow.filter mine
  (s.modFab ⟨.tile, t⟩ fun f => { f with shadow := f.shadow.filter fun x => !mine x }).modFab ⟨.tile, u⟩ fun f =>
    { f with shadow := f.shadow ++ moved }

/-- The other end of a channel told of the moved end's place, and the manager's record of it. -/
def State.retarget (s : State) (netid chan : Nat) (send : Bool) (idx port pid tile : Nat) : State :=
  let s1 := s.modMgr fun m => { m with nets := m.nets.map fun (n : Network) =>
    if n.netid = netid then
      { n with chans := n.chans.map fun (c : ChanRec) =>
          if c.id = chan then
            (if send then { c with prod := idx, pport := port } else { c with cons := idx, cport := port })
          else c }
    else n }
  { s1 with
    tiles := s1.tiles.map fun x => (x.1, { x.2 with ends := x.2.ends.map fun e => (e.1, match e.2 with
      | .send y => .send (if !send ∧ y.netid = netid ∧ y.chan = chan then { y with peer := ⟨.tile, tile⟩ } else y)
      | .recv y => .recv (if send ∧ y.netid = netid ∧ y.chan = chan then { y with peer := ⟨.tile, tile⟩ } else y)) })
    edges := s1.edges.map fun x => (x.1, { x.2 with pairs := x.2.pairs.map fun (p : ServerPair) =>
      if p.netid ≠ netid then p
      else if send ∧ p.chan = chan then { p with reqPeer := ⟨.tile, tile⟩, pid := pid }
      else if !send ∧ p.chan + 1 = chan then { p with repPeer := ⟨.tile, tile⟩ }
      else p }) }

/-- Ports bound to an index of the endpoint table, unbound. -/
def Slot.unbind (x : Slot) (i chan : Nat) : Slot :=
  { x with ports := x.ports.map fun w => if descValid w ∧ bits w 7 0 = i ∧ bits w 39 16 = chan then 0 else w }

/-- An end taken out of a tile's endpoint table. -/
def Tile.dropEnd (x : Tile) (i chan : Nat) : Tile :=
  { x with ends := mapErase x.ends i, slots := x.slots.map fun y => y.unbind i chan }

/-- An end at index `i` of tile `t` moved whole to a port of a process in slot `k` of its tile. -/
def State.moveEnd (s : State) (t i : Nat) (e : EndPt) (p : Proc) (k : Fin 8) (port : Nat) : Option State :=
  let u := p.tile
  let y := s.tile u
  let chan := match e with
    | .send a => a.chan
    | .recv a => a.chan
  let s0 := s.modTile t fun x => x.dropEnd i chan
  let j := if t = u then some i else freeKey y.ends 0 256
  match j, e with
  | some j, .send a =>
    let b : SendEnd := { a with pid := p.pid, port := port, slot := k.val }
    some (((if t = u then s0 else s0.carryShadow t u a.netid a.chan).modTile u fun x =>
      x.bindEnd k j port a.chan true (.send b)).retarget a.netid a.chan true p.idx port p.pid u)
  | some j, .recv a =>
    if t = u then
      let b : RecvEnd := { a with pid := p.pid, port := port, slot := k.val }
      some ((s0.modTile u fun x => x.bindEnd k j port a.chan false (.recv b)).retarget a.netid a.chan false p.idx port p.pid
        u)
    else if 4096 < y.areaSlots + a.decl then none
    else
      let b : RecvEnd := { a with pid := p.pid, port := port, slot := k.val, base := y.areaAt a.decl }
      some (((s0.carryTokens t u a b).modTile u fun x => x.bindEnd k j port a.chan false (.recv b)).retarget a.netid a.chan
        false p.idx port p.pid u)
  | none, _ => none

/-- Whether an end of a channel lies behind a fabric port that is down: the channel goes through the port (20_device.md R491).
A LAUNCH's note and a REBIND name their ends by process index (03_encoding.md R136; 01_machine.md R70), so nothing in
them names a port itself. -/
def State.behindDown (s : State) (e : EndPt) : Bool :=
  let peer := match e with
    | .send a => a.peer
    | .recv a => a.peer
  peer.kind == .port && s.portsDown.contains peer.num

/-- REBIND. -/
def State.rebindRequest (s : State) (m : HMsg) : Handled :=
  let netid := m.u 8 4
  let chan := m.u 12 4
  let send := m.u 16 1 == 0
  let idx := m.u 18 2
  let port := m.u 20 1
  match s.net netid with
  | none => .refuse aBAD_FIELD
  | some n =>
    match n.chans.find? (fun c => c.id == chan), s.mgr.procs.find? fun p => p.netid == netid && p.idx == idx with
    | some c, some p =>
      let old := if send then c.prod else c.cons
      match s.homeSlot p with
      | some k =>
        if n.tnt ≠ m.tnt ∨ 1 < m.u 16 1 ∨ 16 ≤ port ∨ old = 0xFFFF ∨ (s.portEnd p.tile k (BitVec.ofNat 4 port)).isSome then
          .refuse aBAD_FIELD
        else match s.findEnd netid chan send with
          | some (t, i, e) =>
            if s.behindDown e then .refuse aBAD_FIELD
            else if s.quietChan netid chan = false then .wait s
            else match s.moveEnd t i e p k port with
              | some s1 => .done s1 0 0
              | none => .refuse aBAD_FIELD
          | none => .refuse aBAD_FIELD
      | none => .refuse aBAD_FIELD
    | _, _ => .refuse aBAD_FIELD

/-- MANAGE_REBIND. -/
def execManageRebind (s : State) : Res := runEvent s fun st => st.manageRow 6 needPart 21 [17] State.rebindRequest

end Sys2Proof.Machine
end

