-- ==== Sys2Proof/Machine/Capture.lean ====
section
/-!
DEFINITION. Capture windows and the drain of the trace FIFO (14_counters_and_records.md R468, R475), ABORT
(01_machine.md R69), and decode-table updates (13_system_tables.md R450).
-/
namespace Sys2Proof.Machine

/-! ### The drain (R468) -/

/-- Whether a unit begins a record that is no PAD. -/
def startsRecord (u : BitVec 128) : Bool := bits u 11 0 == 0xA5C && bits u 15 12 != trPAD

/-- Records that begin in a line of units: the second unit of a STRIP begins none. -/
def lineRecords : Nat → List (BitVec 128) → Nat
  | _, [] => 0
  | 0, u :: r => b2n (startsRecord u) + lineRecords (bits u 17 16) r
  | k + 1, _ :: r => lineRecords k r

/-- Parts of a 64-byte range that lie on one page each. -/
def lineParts (va : Nat) (bs : List Byte) : List (Nat × List Byte) :=
  let k := 65536 - va % 65536
  if bs.length ≤ k then [(va, bs)] else [(va, bs.take k), (va + k, bs.drop k)]

/-- Far address of the line that drains next. -/
def Trace.lineAt (x : Trace) : Nat :=
  x.base.toNat % 2 ^ 57 + (if x.size = 0 then 0 else x.head.toNat % x.size.toNat)

/-- Whether the page of the next line is frozen for a migration: its home holds the write back. -/
def State.lineFrozen (s : State) (t : Nat) : Bool :=
  let x := (s.tile t).trace
  match (s.migOf x.tnt 0 x.lineAt).bind (s.mgr.migs[·]?) with
  | some g => g.state == .frozen
  | none => false

/-- The pages that the next `n` lines of a tile's ring lie on, missing or malformed, and not refused by the host: where the
partition delegates translation misses they are asked for before a line drains (01_machine.md R56 bit 0). -/
def State.drainMisses (s : State) (t n : Nat) : List Nat :=
  let x := (s.tile t).trace
  if bit (s.assistBits x.tnt) 0 then
    ((List.range n).flatMap fun i =>
      let a := ({ x with head := x.head + BitVec.ofNat 64 (64 * i) } : Trace).lineAt
      [a, a + 63]).filter fun va => !x.denied.contains (va / 2 ^ 16) && match s.walk x.tnt 0 va with
        | .leaf _ => false
        | _ => true
  else []

/-- A missing page of a tile's ring asked for. -/
def State.askDrain (s : State) (t va : Nat) : State :=
  let x := (s.tile t).trace
  if x.asking then s
  else
    ((s.noteMalformed (s.footOf t) x.tnt 0 va (s.walk x.tnt 0 va)).askHost 0 x.tnt x.netid
      (toBytes 2 0 ++ toBytes 6 1 ++ toBytes 8 va) (.drain t va)).modTile t fun y =>
        { y with trace := { y.trace with asking := true } }

/-- The oldest line written to the ring, with PID 0 of the partition; one that fails translation or permission is
discarded, and its records are counted as dropped. -/
def State.drainLine (s : State) (t : Nat) : State :=
  let x := (s.tile t).trace
  let line := x.fifo.take 4
  let parts := lineParts x.lineAt (line.flatMap fun u => toBytes 16 u.toNat)
  let s1 := s.modTile t fun y => { y with trace := { y.trace with fifo := x.fifo.drop 4 } }
  if parts.all fun p => (match s.farCheck x.tnt 0 p.1 false true with
      | .ok _ => true
      | .error _ => false) then
    (parts.foldl (fun s' p => (s'.farWrite x.tnt 0 p.1 p.2 false).1) s1).modTile t fun y =>
      { y with trace := { y.trace with head := y.trace.head + 64 } }
  else
    let n := lineRecords 0 line
    let s2 := parts.foldl (fun s' p =>
      s'.noteMalformed (s'.footOf t) x.tnt 0 p.1 (s'.walk x.tnt 0 p.1)) s1
    s2.modTile t fun y =>
      { y with trace := { y.trace with dropped := y.trace.dropped + BitVec.ofNat 64 n, gap := y.trace.gap + n } }

/-- TRACE_DRAIN: a line of four units leaves the FIFO, and what was held for room enters. -/
def execTraceDrain (tile : Nat) (s : State) : Res := runEvent s fun st =>
  if 4 ≤ (st.tile tile).trace.fifo.length ∧ st.lineFrozen tile = false then
    match st.drainMisses tile 1 with
    | va :: _ => st.askDrain tile va
    | [] => (st.drainLine tile).flushCaps tile 4
  else st

/-- Every whole line of a FIFO drained, at most `n`. -/
def State.drainAll (s : State) (t : Nat) : Nat → State
  | 0 => s
  | n + 1 => if 4 ≤ (s.tile t).trace.fifo.length then (s.drainLine t).drainAll t n else s

/-! ### Windows (R475) -/

/-- The last line filled with PAD. -/
def Trace.padLine (x : Trace) (time : Nat) : Trace :=
  let p := (4 - x.entered % 4) % 4
  { x with fifo := x.fifo ++ List.replicate p ((recUnits time 0 trPAD 0 []).headD 0), entered := x.entered + p }

/-- A tile's window closed: what the window still holds drained, the pending GAP, its TIME and held records entered, then
CAPSTOP with the counts of all of these, the last line filled, and everything drained. -/
def State.closeWindow (s : State) (t : Nat) : State :=
  let s1 := ((s.drainAll t 64).addGap t).flushCaps t ((s.tile t).trace.heldCaps.length + 2)
  let x := (s1.tile t).trace
  let s2 := s1.addCap t trCAPSTOP (BitVec.ofNat 64 (sat32 x.written + sat32 x.dropped.toNat * 2 ^ 32))
  let s3 := (s2.drainAll t 64).modTile t fun y => { y with trace := y.trace.padLine s.time, trctl := setBit y.trctl 0 false }
  s3.drainAll t 64

/-- The tiles at which a network's window is open. -/
def State.windowTiles (s : State) (netid : Nat) : List Nat :=
  (s.tiles.filter fun p => bit p.2.trctl 0 && p.2.trace.netid == netid).map (·.1)

/-- Whether a window among some tiles cannot drain now. -/
def State.cannotDrain (s : State) (ts : List Nat) : Bool :=
  ts.any fun t => bit (s.tile t).trctl 0 && (s.lineFrozen t || (s.tile t).trace.asking || !(s.drainMisses t 68).isEmpty)

/-- The pages asked for that windows among some tiles drain to. -/
def State.askDrains (s : State) (ts : List Nat) : State :=
  ts.foldl (fun s' t => if bit (s'.tile t).trctl 0 then match s'.drainMisses t 68 with
    | va :: _ => s'.askDrain t va
    | [] => s'
  else s') s

/-- The tiles of a network's processes, ascending. -/
def State.netTiles (s : State) (netid : Nat) : List Nat :=
  ((s.mgr.procs.filter fun p => p.netid == netid).map (·.tile)).foldl setInsert []

/-- Position of a tile in its partition (13_system_tables.md R448). -/
def State.partIndex (s : State) (t : Nat) : Nat :=
  match s.partOf t with
  | some p => (findIdx (· == t) (s.partTiles p)).getD 0
  | none => 0

/-- A window opened at a tile: CAPSTART, TIME and TILE. -/
def State.openWindow (s : State) (t netid tag tnt : Nat) (base size enables : Nat) : State :=
  let b : Word := BitVec.ofNat 64 (base + s.partIndex t * size)
  let s1 := s.modTile t fun x =>
    { x with trctl := BitVec.ofNat 4 (1 + enables), trace :=
        { Trace.reset with base := b, size := BitVec.ofNat 64 size, netid := netid, tnt := tnt,
                           lastWrap := s.time / 2 ^ 40, asking := x.trace.asking, period := x.trace.period, periodBytes := x.trace.periodBytes } }
  let s2 := (s1.addCap t trCAPSTART (BitVec.ofNat 64 (tag + netid * 2 ^ 32))).addTime t
  s2.addRecord t 8 trTILE ((s2.tile t).tileId.setWidth 64) []

/-- CAPTURE_START. -/
def State.captureStart (s : State) (m : HMsg) : Handled :=
  let netid := m.u 0 4
  let en := m.u 4 1
  let base := m.u 8 8
  let size := m.u 16 4
  if m.resUsed [5, 6, 7] ∨ en % 2 = 1 ∨ 16 ≤ en then .refuse aBAD_KIND
  else match s.net netid with
    | none => .refuse aBAD_FIELD
    | some n =>
      if n.tnt ≠ m.tnt ∨ size = 0 ∨ size % 4096 ≠ 0 ∨ bits (BitVec.ofNat 64 base) 63 57 ≠ 0x40 then .refuse aBAD_FIELD
      else
        let ts := s.netTiles netid
        let all := ts ++ s.windowTiles netid
        if s.cannotDrain all then .wait (s.askDrains all)
        else
          let closed := all.foldl (fun s' t => if bit (s'.tile t).trctl 0 then s'.closeWindow t else s') s
          .done (ts.foldl (fun s' t => s'.openWindow t netid m.tag n.tnt base size en) closed) 0 0

/-- CAPTURE_START (R475): a byte the layout does not use draws BAD_KIND. -/
def execCaptureStart (s : State) : Res := runEvent s fun st =>
  st.hostRow (fun m => m.kind == 3) needPart (fun _ => 20) (fun _ => []) State.captureStart

/-- CAPTURE_STOP: the window of a network closed at each of its tiles; with no window open nothing is written (R475). -/
def State.captureStop (s : State) (m : HMsg) : Handled :=
  let netid := m.u 0 4
  let ts := s.windowTiles netid
  let known := match s.net netid with
    | some n => n.tnt == m.tnt
    | none => ts.all fun t => (s.tile t).trace.tnt == m.tnt
  if known = false then .refuse aBAD_FIELD
  else if s.cannotDrain ts then .wait (s.askDrains ts)
  else .done (ts.foldl State.closeWindow s) 0 0

/-- CAPTURE_STOP (R475). -/
def execCaptureStop (s : State) : Res := runEvent s fun st =>
  st.hostRow (fun m => m.kind == 4) needPart (fun _ => 4) (fun _ => []) State.captureStop

/-! ### ABORT (01_machine.md R69) -/

def State.abortUnit (s : State) (m : HMsg) : Handled :=
  let netid := m.u 0 4
  let whole := netid == 0xFFFFFFFF
  let known := whole || match s.net netid with
    | some n => n.tnt == m.tnt
    | none => false
  if known = false then .refuse aBAD_FIELD
  else
    let unit := if whole then 2 else 1
    let ps := s.unitProcs unit netid 0 m.tnt
    let s1 := s.stopProcs ps
    if s1.allEnded ps then
      let s2 := s1.endUnit unit m.tnt ps (s1.unitNets unit netid m.tnt) true
      .done (s2.faultReport m.tag m.tnt (if whole then 0 else netid) 0xFFFF unit 0 0 0xFFFF 0xFF 0) 0 0
    else .wait s1

/-- ABORT: the unit ends as by a terminal fault, its FAULT_REPORT, then the ACK. -/
def execAbort (s : State) : Res := runEvent s fun st =>
  st.hostRow (fun m => m.kind == 2) needPart (fun _ => 4) (fun _ => []) State.abortUnit

/-! ### Decode tables (13_system_tables.md R450; 03_encoding.md R127) -/

/-- Whether every slot of a tile is stopped or empty. -/
def Tile.still (x : Tile) : Bool :=
  x.slots.toList.all fun k => decide (k.run = RunState.stopped) || decide (k.run = RunState.empty)

/-- An image streamed into a tile's table: whole with its status image, or every entry failed. -/
def Tile.loadDecode (x : Tile) (image : List Byte) : Tile :=
  { x with decTable :=
      if Config.imageSound image then
        { revision := Config.imageRevision image, digest := (Config.sha3 image).setWidth 64, image := image, failed := false }
      else { x.decTable with failed := true } }

/-- Whether the process in a slot belongs to a unit that an outstanding end is to end. -/
def State.ending (s : State) (t : Nat) (k : Fin 8) : Bool :=
  match s.procAt t k with
  | some p => s.mgr.ends.any fun r => match s.net r.netid, s.unitOf r with
    | some n, some unit => (s.unitProcs unit r.netid (r.pid.getD 0xFFFF) n.tnt).contains p
    | _, _ => false
  | none => false

/-- A tile's stopped slots started (R450 step 5), but for those whose processes are to end (DEDUCED:
notes/assumptions/53.md). -/
def State.startSlots (s : State) (t : Nat) : State :=
  s.modTile t fun x => { x with slots := x.slots.mapFinIdx fun i k hi =>
    if k.run = .stopped ∧ s.ending t ⟨i, hi⟩ = false then { k with run := .running, wait := none, pend := .none } else k }

/-- An image applied at a tile whose slots are all stopped or empty: steps 3 to 5 of R450. -/
def State.applyDecode (s : State) (t : Nat) (image : List Byte) : State :=
  (s.modTile t fun x => x.loadDecode image).startSlots t

/-- DECODE_TABLE_UPDATE: the signed firmware's image loaded at a tile whose slots are all stopped or empty, which then
start. -/
def execDecodeTableUpdate (tile : Nat) (s : State) : Res := runEvent s fun st =>
  if Config.imageSigned Config.decodeImage = true ∧ (st.tile tile).still = true then st.applyDecode tile Config.decodeImage
  else st

end Sys2Proof.Machine
end

