-- ==== Sys2Proof/Machine/ChanOps.lean ====
section
/-!
DEFINITION. Meanings of the channel instructions (10_channels.md R333-R338).
-/
namespace Sys2Proof.Machine

/-- A send of tokens in the three stages of R334, a release (09_memory_ordering.md R316); `done` is the rest of the effect. -/
def sendStages (p : BitVec 4) (toks : State → List (Word × Bool)) (done : State → State) : Body := fun s =>
  match needSend s p with
  | .error e => .error e
  | .ok (i, e) =>
    if e.noticed then .error (goneStop s p i e)
    else if e.credits < (toks s).length then .error (.wait (.send i (toks s).length []))
    else if s.released = false then .error (.wait .issue)
    else .ok (done (s.putTokens s.cur.tile i e (toks s)))

/-- SEND of the given length (R335). -/
def sendBody (len : Nat) (p : BitVec 4) (rs : BitVec 5) : Body :=
  sendStages p (fun st => [(st.g rs, false)]) fun st => st.adv len

/-- What a receive of `n` tokens finds: that many tokens, the end token before them, or neither yet. -/
inductive Found where
  | tokens
  | ended
  | short
  deriving DecidableEq, Repr

def RecvEnd.find (e : RecvEnd) (n : Nat) : Found :=
  if e.avail n = n then .tokens else if e.endAfter (e.avail n) then .ended else .short

/-- The receive end at index `i` after a receive has found the end token; its state changes when it stands at the head
(R332). -/
def State.meetEnd (s : State) (i : Nat) (e : RecvEnd) : State :=
  if e.endAfter 0 then s.setEnd s.cur.tile i (.recv e.metEnd) else s

/-- RecvToken at an end token: 0 and EOS, or CHANNEL_BROKEN with the trap-on-end bit (R335; 03_encoding.md R126). -/
def atEnd (p : BitVec 4) (i : Nat) (e : RecvEnd) (s : State) (done : State → State) : Except Stop State :=
  if e.toe then .error (.trapIn (s.meetEnd i e) cCHANNEL_BROKEN (brokenVal p))
  else .ok (done ((s.meetEnd i e).setEos))

/-- RECV of the given length (R335). -/
def recvBody (len : Nat) (p : BitVec 4) (d : BitVec 5) : Body := fun s =>
  match needRecv s p with
  | .error e => .error e
  | .ok (i, e) =>
    match e.find 1 with
    | .tokens =>
      let (v, psn) := e.tokenAt s.myTile.mem 0
      let s1 := (s.takeTokens s.cur.tile i e 1).setG d v
      .ok ((if psn then s1.consumePoison s.pcOff else s1).adv len)
    | .ended => atEnd p i e s fun st => (st.setG d 0).adv len
    | .short => .error (waitRecv s [(i, 1)])

/-- SEND (R335). -/
def execSend (p : BitVec 4) (rs : BitVec 5) (s : State) : Res := runBody s (sendBody 4 p rs)

/-- RECV (R335). -/
def execRecv (p : BitVec 4) (d : BitVec 5) (s : State) : Res := runBody s (recvBody 4 p d)

/-- C.SEND: SEND p, g d (03_encoding.md R117). -/
def execCSend (p : BitVec 4) (rs : BitVec 5) (s : State) : Res := runBody s (sendBody 2 p rs)

/-- C.RECV: RECV g d, p (R117). -/
def execCRecv (d : BitVec 5) (p : BitVec 4) (s : State) : Res := runBody s (recvBody 2 p d)

/-- The tokens of the elements below VL of a register, each with its group's poison (R336). -/
def vsendTokens (c : VecCtx) (r : BitVec 5) : List (Word × Bool) :=
  let n := c.vl.toNat * fmtWidth c.fmt
  let v := c.reg r % 2 ^ n
  (List.range (ceilDiv n 64)).map fun j => (BitVec.ofNat 64 (v / 2 ^ (64 * j)), bit (c.poisReg r) (j / 16))

/-- VSEND (R336). -/
def execVsend (p : BitVec 4) (rs : BitVec 5) (s : State) : Res :=
  runBody s (vecBody (rEnc (p.setWidth 5) 2 0x16 0 rs) nonBfp true
    (sendStages p (fun st => vsendTokens st.vec rs) fun st =>
      (st.notePoison ((vsendTokens s.vec rs).any fun t => t.2)).vecDone))

/-- VRECV (R336). -/
def execVrecv (p : BitVec 4) (d : BitVec 5) (s : State) : Res :=
  runBody s (vecBody (rEnc (p.setWidth 5) 3 0x16 d 0) nonBfp true fun st =>
    match needRecv st p with
    | .error e => .error e
    | .ok (i, e) =>
      let c := st.vec
      let w := fmtWidth c.fmt
      let n := ceilDiv (c.vl.toNat * w) 64
      match e.find n with
      | .tokens =>
        let toks := (List.range n).map fun j => e.tokenAt st.myTile.mem j
        let out := (List.range c.vl.toNat).map fun k =>
          let t := toks.getD (k * w / 64) (0, false)
          some ({ val := t.1.toNat / 2 ^ (k * w % 64), psn := t.2 } : ElemOut)
        .ok ((st.takeTokens st.cur.tile i e n).putVec d w c.vlMax out).vecDone
      | .ended => atEnd p i e st State.longDone
      | .short => .error (waitRecv st [(i, n)]))

/-- SENDE: the end token, a release; the end becomes CLOSED (R335, 09_memory_ordering.md R316). -/
def execSende (p : BitVec 4) (s : State) : Res :=
  runBody s fun st =>
    match needSend st p with
    | .error e => .error e
    | .ok (i, e) =>
      if e.noticed then .error (goneStop st p i e)
      else if st.released = false then .error (.wait .issue)
      else .ok (((st.setEnd st.cur.tile i (.send { e with state := .closed })).putEnd st.cur.tile e 1).adv 4)

/-- RECVE: the data in g d and the status in g s; it never traps on an end token (R335). d = s ≠ 0 is ILLEGAL (R333). -/
def execRecve (p : BitVec 4) (d rs : BitVec 5) (s : State) : Res :=
  runBody s fun st =>
    if d = rs ∧ d ≠ 0 then .error (.trap cILLEGAL (BitVec.ofNat 64 (rEnc (p.setWidth 5) 5 0x16 d rs)))
    else match needRecv st p with
      | .error e => .error e
      | .ok (i, e) =>
        match e.find 1 with
        | .tokens =>
          let (v, psn) := e.tokenAt st.myTile.mem 0
          let s1 := ((st.takeTokens st.cur.tile i e 1).setG d v).setG rs 0
          .ok ((if psn then s1.consumePoison st.pcOff else s1).adv 4)
        | .ended => .ok ((((st.meetEnd i e).setG d 0).setG rs (if e.endBroken then 2 else 1)).adv 4)
        | .short => .error (waitRecv st [(i, 1)])

/-- The word PORTQ writes (R338). -/
def portWord : Option (Nat × EndPt) → Word
  | none => 0
  | some (_, .send e) =>
    let st := match e.state with
      | .open => 0
      | .closed => 1
      | .gone => 2
    BitVec.ofNat 64 (3 + st * 4 + e.chan * 2 ^ 16 + e.cap * 2 ^ 40)
  | some (_, .recv e) =>
    let st := match e.state with
      | .open => 0
      | .ended => 1
      | .broken => 2
    BitVec.ofNat 64 (1 + st * 4 + b2n e.toe * 16 + e.chan * 2 ^ 16 + e.decl * 2 ^ 40)

/-- PORTQ (R338). -/
def execPortq (p : BitVec 4) (d : BitVec 5) (s : State) : Res :=
  runBody s fun st => .ok ((st.setG d (portWord (st.portEnd st.cur.tile st.cur.slot p))).adv 4)

end Sys2Proof.Machine
end

