-- ==== Sys2Proof/Machine/Device.lean ====
section
/-!
DEFINITION. The package (20_device.md): throttle steps and the thermal trip (R494, R495), resets (R498), boot (R499,
R500), the management interface (R501), measurements and attestation (R502, R503).
-/
namespace Sys2Proof.Machine

/-! ### Clusters (R494) -/

/-- A cluster at another throttle step, its cycles counted up to now; the change is written to the die's black box
(R496). -/
def State.throttle (s : State) (c : Fin 32) (step : Nat) : State :=
  let k := s.clusters[c]
  ({ s with clusters := s.clusters.set c { k with step := step, cycles := s.clusterCycles c, base := s.units } } :
    State).blackBox ⟨.tile, 1024 * (c.val / 4)⟩ 0x0B 0 (BitVec.ofNat 64 c.val) (BitVec.ofNat 64 step)

/-- One step up, where there is one. -/
def State.throttleUp (s : State) (c : Fin 32) : State :=
  let k := (s.clusters[c]).step
  if k < 3 then s.throttle c (k + 1) else s

/-- A sensor reading, in sixteenths of a degree: since when the cluster has been below 90 degrees. -/
def State.sense (s : State) (c : Fin 32) (reading : Nat) : State :=
  let k := s.clusters[c]
  let cool := if reading < 90 * 16 then some (k.coolSince.getD s.units) else none
  { s with clusters := s.clusters.set c { k with coolSince := cool } }

/-- THROTTLE_STEP_UP: a reading at or above 95 degrees raises the cluster one step. -/
def execThrottleStepUp (cluster reading : Nat) (s : State) : Res := runEvent s fun st =>
  if cluster < 32 then
    let c := Fin.ofNat 32 cluster
    let s1 := st.sense c reading
    if 95 * 16 ≤ reading then s1.throttleUp c else s1
  else st

/-- THROTTLE_STEP_DOWN: a reading below 90 degrees that has been so for 1 ms lowers the cluster one step. -/
def execThrottleStepDown (cluster reading : Nat) (s : State) : Res := runEvent s fun st =>
  if cluster < 32 then
    let c := Fin.ofNat 32 cluster
    let s1 := st.sense c reading
    let k := s1.clusters[c]
    match k.coolSince with
    | some t =>
      if t + 10 ^ 6 * Config.tickUnits ≤ st.units ∧ 0 < k.step then
        (({ s1 with clusters := s1.clusters.set c { k with coolSince := some st.units } } : State)).throttle c (k.step - 1)
      else s1
    | none => s1
  else st

/-- OVERCURRENT_THROTTLE: every cluster is raised one step. -/
def execOvercurrentThrottle (s : State) : Res := runEvent s fun st => (List.finRange 32).foldl State.throttleUp st

/-- THERMAL_TRIP (R495): a reading at or above 110 degrees. The core rail is cut, every network ends, and the
companion processor is signalled. -/
def execThermalTrip (cluster reading : Nat) (s : State) : Res := runEvent s fun st =>
  if cluster < 32 ∧ 110 * 16 ≤ reading then
    let s1 := st.blackBox ⟨.tile, 1024 * (cluster / 4)⟩ 0x0C 0 (BitVec.ofNat 64 cluster) (BitVec.ofNat 64 reading)
    let s2 := s1.mgr.procs.foldl (fun s' p => s'.modSlot p.tile p.k fun _ => Slot.reset) s1
    let s3 := s2.mgr.nets.foldl State.releaseNet s2
    { (s3.modMgr fun m => { m with procs := [], ends := [] }) with dev := { s3.dev with railUp := false, tripSignal := true } }
  else st

/-! ### Resets (R498) -/

/-- What no reset of the package reaches: host memory, which tiles are fused, and the model's own fields. -/
def State.outside (s : State) : State :=
  { State.reset with host := s.host, fused := s.fused, free := s.free, agenda := s.agenda }

/-- A reset that keeps the black box and the management interface's registers; BOOT_STATUS becomes IN_RESET. -/
def State.warmed (s : State) : State :=
  { s.outside with bbox := s.bbox,
                   dev := { Device.reset with scbase := s.dev.scbase, rcbase := s.dev.rcbase, bboxPos := s.dev.bboxPos,
                                              bboxOut := s.dev.bboxOut } }

/-- POWER_ON_RESET: everything, the black box included. -/
def execPowerOnReset (s : State) : Res := .next s.outside

/-- WARM_RESET. -/
def execWarmReset (s : State) : Res := .next s.warmed

/-- CORE_RAIL_RESET: as a warm reset. -/
def execCoreRailReset (s : State) : Res := .next s.warmed

/-! ### Boot (R499) -/

/-- A measurement: a log entry, and A extended (R502). -/
def Device.extend (d : Device) (typ : Nat) (b : List Byte) : Device :=
  let h := Config.sha3 b
  { d with attReg := Config.sha3 (toBytes 64 d.attReg.toNat ++ toBytes 64 h.toNat), attLog := d.attLog ++ [(typ, h)] }

/-- The measurements of step 5: firmware, decode table, every die's fuse record. -/
def Device.measured (d : Device) : Device :=
  (List.range 8).foldl (fun x i => x.extend 3 (Config.fuseRecord i)) ((d.extend 1 Config.firmware).extend 2 Config.decodeImage)

/-- BOOT_STATUS with a state and a failing step. -/
def State.bootStatus (s : State) (status step : Nat) : State :=
  { s with dev := { s.dev with bootStatus := BitVec.ofNat 64 (status + step * 256) } }

/-- A tile after the flood and the numbering (steps 2 and 3): scrubbed memories, TILEID. -/
def Tile.flooded (x : Tile) (n px py : Nat) : Tile :=
  { x with mem := [], start := 0, poison := 0, errs := 0,
           tileId := BitVec.ofNat 32 (py % 64 + px % 128 * 2 ^ 8 + n % 65536 * 2 ^ 16) }

/-- Steps 2 and 3 for every active tile. -/
def State.flood (s : State) : State :=
  { s with tiles := s.activeTiles.map fun n =>
      let p := (s.coord n).getD (0, 0)
      (n, (s.tile n).flooded n p.1 p.2) }

/-- Step 6, the Sorcel link trained: the fabric ports that did not train marked down (R491), the host ends found, and CAP
written at each (10_channels.md R360). -/
def State.hostEnds (s : State) : State :=
  let s0 : State := { s with portsDown := (List.range 4).filter fun p => !Config.portTrained p }
  let s1 := s0.modMgr fun m => { m with scAt := s.dev.scbase, rcAt := s.dev.rcbase }
  (s1.hostStore (s.dev.scbase.toNat + 0x10) 4 64).hostStore (s.dev.rcbase.toNat + 0x10) 4 64

/-- BOOT: from IN_RESET, BOOTING; then the steps in order, of which the first that fails writes BOOT_STATUS. -/
def execBoot (s : State) : Res := runEvent s fun st =>
  if st.dev.bootStatus = 0 then st.bootStatus 1 0
  else if st.dev.bootStatus ≠ 1 then st
  else if Config.firmwareSigned = false then st.bootStatus 3 1
  else
    let s1 := st.flood
    if Config.firmwareDelivered = false then s1.bootStatus 4 4
    else
      let s2 : State := { s1 with dev := s1.dev.measured }
      if Config.linksTrain = false then s2.bootStatus 5 6 else (s2.hostEnds).bootStatus 2 0

/-! ### The management interface (R501) -/

/-- SCBASE_WRITE: read at the next boot. -/
def execScbaseWrite (q : BitVec 64) (s : State) : Res := .next { s with dev := { s.dev with scbase := q } }

/-- RCBASE_WRITE. -/
def execRcbaseWrite (q : BitVec 64) (s : State) : Res := .next { s with dev := { s.dev with rcbase := q } }

/-- BBOX_READ: the next 8 bytes of the rings; after the last it begins again. It works while the core rail is down. -/
def execBboxRead (s : State) : Res :=
  let ws := toWords (s.bboxImage 0)
  let i := if s.dev.bboxPos < ws.length then s.dev.bboxPos else 0
  .next { s with dev := { s.dev with bboxPos := i + 1, bboxOut := wordAt ws i } }

/-! ### Attestation (R503) -/

/-- The log's bytes: 72 for each entry. -/
def Device.logBytes (d : Device) : List Byte := d.attLog.flatMap fun e => toBytes 8 e.1 ++ toBytes 64 e.2.toNat

/-- ATTEST: log, A, nonce and signature to host memory, then ATTEST_LOG. -/
def execAttest (s : State) : Res := runEvent s fun st =>
  st.hostRow (fun m => m.kind == 7) needPkg (fun _ => 40) (fun _ => []) fun x m =>
    let body := x.dev.logBytes ++ toBytes 64 x.dev.attReg.toNat ++ (m.pay.drop 8).take 32
    let all := body ++ Config.sign (Config.sha3 body)
    let a := m.u 0 8
    let s1 : State := { x with host := Mem.writeBytes x.host a all }
    .done (s1.hostSend 0x8005 m.tag 0 (toBytes 8 a ++ toBytes 8 all.length)) 0 0

end Sys2Proof.Machine
end

