-- ==== Sys2Proof/Machine/Dexay.lean ====
section
/-!
DEFINITION. Dexay objects (03_encoding.md R137-R140; 13_system_tables.md R447): the ELF64 container, the network control
block note, placement, channel, reel and bank records, relocations and the rewriter. The container's offsets are those of
the ELF64 format (PRESUMED: notes/assumptions/26.md).
-/
namespace Sys2Proof.Machine

/-- The bytes of a name. -/
def str (x : String) : List Byte := x.toList.map fun c => BitVec.ofNat 8 c.toNat

/-- `n` bytes at offset `a` as a number, where they lie in the list. -/
def fieldAt (b : List Byte) (a n : Nat) : Option Nat := if a + n ≤ b.length then some (ofBytes ((b.drop a).take n)) else none

/-- `n` bytes at offset `a`, 0 beyond the end. -/
def fld (b : List Byte) (a n : Nat) : Nat := ofBytes ((b.drop a).take n)

/-- The bytes up to a NUL. -/
def cstr (b : List Byte) (a : Nat) : List Byte := (b.drop a).takeWhile fun c => c != 0

/-! ### Sections -/

structure Sec where
  name : List Byte
  typ : Nat
  link : Nat
  info : Nat
  addr : Nat
  data : List Byte
  deriving DecidableEq, Repr

/-- A section header with its contents, where they lie in the object; a section of type 8 occupies no bytes of it. -/
def readSec (b : List Byte) (h : Nat) : Option (Nat × Sec) :=
  let off := fld b (h + 24) 8
  let size := fld b (h + 32) 8
  let typ := fld b (h + 4) 4
  let s : Sec := { name := [], typ := typ, link := fld b (h + 40) 4, info := fld b (h + 44) 4, addr := fld b (h + 16) 8,
                   data := [] }
  if typ = 8 then (if size ≤ 2 ^ 20 then some (fld b h 4, { s with data := List.replicate size 0 }) else none)
  else if off + size ≤ b.length then some (fld b h 4, { s with data := (b.drop off).take size })
  else none

def allSome {α : Type} : List (Option α) → Option (List α)
  | [] => some []
  | none :: _ => none
  | some a :: r => (allSome r).map fun l => a :: l

/-- The sections of an ELF64 object with ELFDATA2LSB and e_machine 0x0C8A, and its e_flags. -/
def elfSecs (b : List Byte) : Option (List Sec × Nat) :=
  let sh := fld b 40 8
  let n := fld b 60 2
  if b.length < 64 ∨ fld b 0 4 ≠ 0x464C457F ∨ fld b 4 1 ≠ 2 ∨ fld b 5 1 ≠ 1 ∨ fld b 18 2 ≠ 0x0C8A ∨ fld b 58 2 ≠ 64
      ∨ b.length < sh + 64 * n then none
  else match allSome ((List.range n).map fun i => readSec b (sh + 64 * i)) with
    | none => none
    | some l => match l[fld b 62 2]? with
      | some (_, names) => some (l.map (fun p => { p.2 with name := cstr names.data p.1 }), fld b 48 4)
      | none => none

def findSec (l : List Sec) (name : List Byte) : Option Sec := l.find? fun x => x.name == name

/-! ### The note (R138) -/

/-- The descriptor of the note "Dexay", type 1, and its offset in its section. -/
def noteDesc (b : List Byte) : Option (List Byte × Nat) :=
  if 20 ≤ b.length ∧ fld b 0 4 = 6 ∧ fld b 8 4 = 1 ∧ (b.drop 12).take 6 = str "Dexay" ++ [0]
      ∧ 20 + fld b 4 4 ≤ b.length ∧ 64 ≤ fld b 4 4 then some ((b.drop 20).take (fld b 4 4), 20)
  else none

/-- A table of records of `size` bytes, where it lies in the descriptor and is 8-byte aligned. -/
def noteTable (d : List Byte) (count off size : Nat) : Option (List (List Byte)) :=
  if count = 0 then some []
  else if off % 8 ≠ 0 ∨ d.length < off + size * count then none
  else some ((List.range count).map fun i => (d.drop (off + size * i)).take size)

/-- A placement record (13_system_tables.md R447). -/
structure PRec where
  raw : List Byte
  name : List Byte
  tile : Nat
  slot : Nat
  vector : Bool
  pw : Bool
  sup : Bool
  pperm : Nat
  hperm : Nat
  deriving DecidableEq, Repr

/-- What a port or handle that declared number `i` becomes (R139). -/
def permAt (p i : Nat) : Nat := p / 16 ^ (i % 16) % 16

def isPerm (p : Nat) : Bool := (List.range 16).all fun v => (List.range 16).any fun i => permAt p i == v

/-- The permutation that changes nothing. -/
def permId : Nat := 0xFEDCBA9876543210

/-- A placement record from its bytes, where its own fields are in range. -/
def PRec.ofBytes (strtab b : List Byte) : Option PRec :=
  let flags := fld b 7 1
  let r : PRec := { raw := b, name := cstr strtab (fld b 0 4), tile := fld b 4 2, slot := fld b 6 1, vector := flags % 2 == 1,
                    pw := flags / 2 % 2 == 1, sup := flags / 4 % 2 == 1, pperm := fld b 24 8, hperm := fld b 32 8 }
  if 8 ≤ flags ∨ fld b 104 8 ≠ 0 ∨ (7 < r.slot ∧ r.slot ≠ 0xFF) ∨ (r.vector = true ∧ 1 < r.slot ∧ r.slot ≠ 0xFF)
      ∨ (r.sup = true ∧ r.slot < 2) ∨ isPerm r.pperm = false ∨ isPerm r.hperm = false
      ∨ (r.pw = true ∧ r.pperm ≠ permId) ∨ r.name = [] then none
  else some r

/-- A channel record. -/
structure CRec where
  id : Nat
  prod : Nat
  pport : Nat
  toe : Bool
  cons : Nat
  cport : Nat
  cap : Nat
  deriving DecidableEq, Repr

/-- A channel record from its bytes, with `n` processes: an index in range or the memory server's, the capacity within
10_channels.md R327. -/
def CRec.ofBytes (n : Nat) (b : List Byte) : Option CRec :=
  let c : CRec := { id := fld b 0 3, prod := fld b 4 2, pport := fld b 6 1, toe := fld b 7 1 == 1, cons := fld b 8 2,
                    cport := fld b 10 1, cap := if fld b 12 4 = 0 then 32 else fld b 12 4 }
  if fld b 3 1 ≠ 0 ∨ 1 < fld b 7 1 ∨ fld b 11 1 ≠ 0 ∨ 4096 < c.cap ∨ (n ≤ c.prod ∧ c.prod ≠ 0xFFFF)
      ∨ (n ≤ c.cons ∧ c.cons ≠ 0xFFFF) ∨ 15 < c.pport ∨ 15 < c.cport then none
  else some c

/-- A reel record: name and scope. -/
def reelRec (b : List Byte) : Option (Nat × Nat) :=
  if 2 < fld b 4 1 ∨ fld b 5 3 ≠ 0 then none else some (fld b 0 4, fld b 4 1)

/-- A bank record: process, bank, BFMT. -/
def bankRec (n : Nat) (b : List Byte) : Option (Nat × Nat × Nat) :=
  if n ≤ fld b 0 2 ∨ 15 < fld b 2 1 ∨ fld b 3 1 ≠ 0 ∨ 4096 ≤ fld b 4 2 ∨ fld b 6 2 ≠ 0 then none
  else some (fld b 0 2, fld b 2 1, fld b 4 2)

/-- An object as the loader has read it. -/
structure Dexay where
  secs : List Sec
  edition : Nat
  eflags : Nat
  procs : List PRec
  chans : List CRec
  reels : List (Nat × Nat)
  banks : List (Nat × Nat × Nat)
  region : List Byte
  /-- Offset of the placement table in the note's section. -/
  placeAt : Nat
  deriving DecidableEq, Repr

/-- Whether the channel records break 10_channels.md R326 or R354: an ID twice, a port bound twice, a server's channel
without its partner. -/
def chansBad (l : List CRec) : Bool :=
  let ports := l.flatMap fun c => (if c.prod = 0xFFFF then [] else [(c.prod, c.pport)]) ++
    (if c.cons = 0xFFFF then [] else [(c.cons, c.cport)])
  decide (¬ (l.map (·.id)).Nodup) || decide (¬ ports.Nodup) || l.any fun c =>
    (c.prod == 0xFFFF && (c.id % 2 == 0 || !l.any fun d => d.id + 1 == c.id && d.cons == 0xFFFF)) ||
    (c.cons == 0xFFFF && (c.id % 2 == 1 || !l.any fun d => d.id == c.id + 1 && d.prod == 0xFFFF))

/-- An object read from its bytes; none where it is malformed, the note missing, or a record out of range. -/
def Dexay.read (b : List Byte) : Option Dexay :=
  match elfSecs b with
  | none => none
  | some (secs, eflags) =>
    match (findSec secs (str ".note.dexay")).bind fun x => noteDesc x.data, findSec secs (str ".strtab") with
    | some (d, at'), some st =>
      let n := fld d 8 4
      let procs := (noteTable d n (fld d 12 4) 112).bind fun l => allSome (l.map (PRec.ofBytes st.data))
      let chans := (noteTable d (fld d 16 4) (fld d 20 4) 16).bind fun l => allSome (l.map (CRec.ofBytes n))
      let reels := (noteTable d (fld d 24 4) (fld d 28 4) 8).bind fun l => allSome (l.map reelRec)
      let banks := (noteTable d (fld d 32 4) (fld d 36 4) 8).bind fun l => allSome (l.map (bankRec n))
      let region := noteTable d 1 (fld d 40 4) 128
      match procs, chans, reels, banks, region with
      | some p, some c, some r, some k, some [g] =>
        if fld d 2 2 ≠ 0 ∨ fld d 48 16 ≠ 0 ∨ fld d 44 4 ≠ 128 ∨ n = 0 ∨ chansBad c = true then none
        else some { secs := secs, edition := fld d 0 2, eflags := eflags, procs := p, chans := c, reels := r, banks := k,
                    region := g, placeAt := at' + fld d 12 4 }
      | _, _, _, _, _ => none
    | _, _ => none

/-- The edition an object's note declares, where it has a note. -/
def dexayEdition (b : List Byte) : Option Nat :=
  (elfSecs b).bind fun x => (findSec x.1 (str ".note.dexay")).bind fun s => (noteDesc s.data).map fun d => fld d.1 0 2

/-! ### Relocations (R137) -/

/-- A relocation: offset in its section, type, symbol, addend. -/
structure Reloc where
  off : Nat
  typ : Nat
  sym : Nat
  add : Int
  deriving DecidableEq, Repr

def Reloc.ofBytes (b : List Byte) : Reloc :=
  { off := fld b 0 8, typ := fld b 8 4, sym := fld b 12 4, add := signExtend (fld b 16 8) 64 }

/-- The relocations of the section at index `i`, and their symbol table. -/
def relocsOf (secs : List Sec) (i : Nat) : List Reloc × List Byte :=
  match secs.find? fun x => x.typ == 4 && x.info == i with
  | some x => ((List.range (x.data.length / 24)).map fun j => Reloc.ofBytes ((x.data.drop (24 * j)).take 24),
      match secs[x.link]? with
      | some t => t.data
      | none => [])
  | none => ([], [])

/-- A symbol's value on a tile: its offset in its section from where that section lies there, `base` by section index.
Symbol 0 is 0; an absolute symbol is its value. -/
def symValue (secs : List Sec) (base : Nat → Option Nat) (symtab : List Byte) (k : Nat) : Option Int :=
  if k = 0 then some 0
  else if symtab.length < 24 * k + 24 then none
  else
    let sec := fld symtab (24 * k + 6) 2
    let v := fld symtab (24 * k + 8) 8
    if sec = 0xFFF1 then some v
    else match secs[sec]?, base sec with
      | some x, some b => some ((b : Int) + v - x.addr)
      | _, _ => none

/-- The low part of a value whose high part is rounded (types 8 and 10). -/
def loPart (v : Int) : Int := v - (v + 0x800) / 4096 * 4096

/-- Bits and signedness of a type's field; none for a type R137 does not list. -/
def relocFit : Nat → Option (Nat × Bool)
  | 2 => some (32, true)
  | 3 => some (21, true)
  | 4 => some (13, true)
  | 5 => some (6, true)
  | 6 => some (11, true)
  | 7 => some (20, true)
  | 8 => some (13, true)
  | 9 => some (20, true)
  | 10 => some (13, true)
  | 11 => some (13, false)
  | _ => none

/-- A word with a type's field replaced. -/
def relocWord (typ w v : Nat) : Nat :=
  let x := BitVec.ofNat 32 w
  (match typ with
    | 2 => BitVec.ofNat 32 v
    | 3 => setBits (setBits x 31 16 v) 4 0 (v / 2 ^ 16)
    | 5 => setBits x 5 0 v
    | 6 => setBits x 10 0 v
    | 7 => setBits (setBits x 31 17 v) 4 0 (v / 2 ^ 15)
    | 9 => setBits (setBits x 31 17 v) 4 0 (v / 2 ^ 15)
    | _ => setBits x 28 16 v).toNat

/-- Bytes with the `n` bytes at an offset replaced. -/
def patch (b : List Byte) (a n v : Nat) : List Byte := b.take a ++ toBytes n v ++ b.drop (a + n)

/-- A value stored in its field; none where it does not fit or the field lies outside the section. -/
def relocPut (b : List Byte) (r : Reloc) (v : Int) : Option (List Byte) :=
  if r.typ = 1 then (if r.off + 8 ≤ b.length then some (patch b r.off 8 (wrapInt v 64)) else none)
  else match relocFit r.typ with
    | none => none
    | some (k, sg) =>
      let n := if r.typ = 5 ∨ r.typ = 6 then 2 else 4
      let fits := if sg then decide (-(2 ^ (k - 1) : Int) ≤ v) && decide (v < (2 ^ (k - 1) : Int))
        else decide (0 ≤ v) && decide (v < (2 ^ k : Int))
      if fits ∧ r.off + n ≤ b.length then some (patch b r.off n (relocWord r.typ (fld b r.off n) (wrapInt v k))) else none

/-- The trace block table of a section (14_counters_and_records.md R473): the distinct targets of its type 11 relocations,
ascending. -/
def blockTable (val : Nat → Option Int) (l : List Reloc) : List Nat :=
  (l.filter fun r => r.typ == 11).foldl (fun t r => match val r.sym with
    | some v => setInsert t (v + r.add).toNat
    | none => t) []

/-- A relocation's value; `me` is the section's address on the tile. The P8_PCHI20 of a type 10 relocation is the one at
S + A, and without one the object is refused (DESIGN CHOICE: notes/assumptions/66.md). -/
def relocValue (val : Nat → Option Int) (me : Nat) (l : List Reloc) (r : Reloc) : Option Int :=
  match val r.sym with
  | none => none
  | some s =>
    let x := s + r.add
    let d := x - (me + r.off : Nat)
    match r.typ with
    | 1 => some x
    | 2 => some x
    | 7 => some ((x + 0x800) / 4096)
    | 8 => some (loPart x)
    | 9 => some ((d + 0x800) / 4096)
    | 10 =>
      match l.find? fun q => q.typ == 9 && (me + q.off : Int) == x with
      | some q => (val q.sym).map fun t => loPart (t + q.add - x)
      | none => none
    | 11 => (findIdx (fun b : Nat => (b : Int) == x) (blockTable val l)).map fun i => (i : Int)
    | _ => if d % 2 = 0 then some (d / 2) else none

/-- A section's bytes relocated at its address on a tile; none where a value cannot be formed or does not fit. -/
def relocate (val : Nat → Option Int) (me : Nat) (l : List Reloc) (b : List Byte) : Option (List Byte) :=
  l.foldl (fun acc r => match acc, relocValue val me l r with
    | some x, some v => relocPut x r v
    | _, _ => none) (some b)

/-! ### The rewriter (R139) -/

/-- Which chain bits a word of the V format has: for vs1, for vs2 (R113, R188-R197). -/
def chainBits (w : Nat) : Bool × Bool :=
  let maj := w / 2 ^ 10 % 32
  let f := w / 2 ^ 16 % 32
  if maj = 0x0D ∨ maj = 0x0F then (decide (f ≤ 16), decide (f ≤ 16))
  else if maj = 0x0E then (decide (f ≤ 11) || decide (16 ≤ f), (decide (f ≤ 9) && f != 7) || decide (16 ≤ f))
  else if maj = 0x10 then (decide (f ≤ 13) && f != 2 && f != 9, f == 0 || f == 6)
  else if maj = 0x11 then (f == 0 || (decide (4 ≤ f) && decide (f ≤ 9)), false)
  else (false, false)

/-- A 32-bit instruction rewritten: port or handle renumbered, chain bits by the policy. -/
def rewriteWord (policy : Nat → Bool → Bool) (pp hp w : Nat) : Nat :=
  let maj := w / 2 ^ 10 % 32
  let x := BitVec.ofNat 32 w
  let y :=
    if maj = 0x16 then setBits x 30 27 (permAt pp (bits x 30 27))
    else if maj = 0x18 ∨ (maj = 0x15 ∧ bits x 26 24 = 3) then setBits x 30 27 (permAt hp (bits x 30 27))
    else x
  let c := chainBits w
  let bare := (if c.2 then setBit (if c.1 then setBit y 26 false else y) 25 false
    else if c.1 then setBit y 26 false else y).toNat
  let z := if c.1 then setBit y 26 (policy bare false) else y
  (if c.2 then setBit z 25 (policy bare true) else z).toNat

/-- A 16-bit instruction rewritten: the port of C.SEND and C.RECV. -/
def rewriteHalf (pp h : Nat) : Nat :=
  let x := BitVec.ofNat 16 h
  if bits x 14 11 = 9 then (setBits x 9 6 (permAt pp (bits x 9 6))).toNat
  else if bits x 14 11 = 10 then (setBits x 3 0 (permAt pp (bits x 3 0))).toNat
  else h

/-- Code rewritten from its first instruction, with the start bit of each halfword, read from the length bits (R137); none
where the last instruction is cut off. -/
def rewriteCode (policy : Nat → Bool → Bool) (pp hp : Nat) : List Byte → Option (List Byte × List Bool)
  | [] => some ([], [])
  | [_] => none
  | b0 :: b1 :: r =>
    if b1.toNat < 128 then
      (rewriteCode policy pp hp r).map fun x => (toBytes 2 (rewriteHalf pp (ofBytes [b0, b1])) ++ x.1, true :: x.2)
    else match r with
      | b2 :: b3 :: r' =>
        (rewriteCode policy pp hp r').map fun x =>
          (toBytes 4 (rewriteWord policy pp hp (ofBytes [b0, b1, b2, b3])) ++ x.1, true :: false :: x.2)
      | _ => none

end Sys2Proof.Machine
end

