-- ==== Sys2Proof/Machine/Launch.lean ====
section
/-!
DEFINITION. LAUNCH (01_machine.md R65, R67): budgets, placement (13_system_tables.md R447, R448), loading through the
rewriter (03_encoding.md R137-R139), binding (10_channels.md R326, R354), reels (12_reels.md R412), the spill region
(10_channels.md R351; 16_program_split_rejoin.md R480), slot contexts (04_scalar_registers.md R141) and the start.
-/
namespace Sys2Proof.Machine

/-! ### The object (R67) -/

/-- The object's bytes; none where the manager cannot read it whole. -/
def State.objectBytes (s : State) (space a n : Nat) : Option (List Byte) :=
  if space = 0 then some (Mem.readBytes s.host a n)
  else if a / 2 ^ 40 ≠ 0 ∨ 48 * 2 ^ 30 < a % 2 ^ 36 + n ∨ (s.dramPoison ++ s.dramErrs).any (fun g => overlaps (32 * g) 32 a n)
    then none
  else some (Mem.readBytes s.dram a n)

/-! ### PIDs (R67) -/

/-- The first run of `n` numbers from `b` that meets none of a list, looked for `fuel` times. -/
def freeRun (held : List Nat) (n : Nat) : Nat → Nat → Option Nat
  | 0, _ => none
  | k + 1, b =>
    if 0x10000 < b + n then none
    else match (List.range n).find? fun i => held.contains (b + i) with
      | none => some b
      | some i => freeRun held n k (b + i + 1)

/-- PIDs that networks of a partition hold. -/
def State.heldPids (s : State) (tnt : Nat) : List Nat :=
  (s.mgr.nets.filter fun n => n.tnt == tnt).flatMap fun n => (List.range n.nproc).map fun i => n.pidBase + i

/-- PID of process 0, or the status that refuses the LAUNCH. -/
def State.choosePids (s : State) (p : Partition) (base n : Nat) : Except Nat Nat :=
  let held := s.heldPids p.tnt
  if base = 0 then
    match freeRun (held ++ p.maps.map (·.pid)) n 65536 1 with
    | some b => .ok b
    | none => .error aNO_BUDGET
  else if 0x10000 < base + n ∨ (List.range n).any (fun i => held.contains (base + i)) = true then .error aBAD_FIELD
  else .ok base

/-! ### Placement (R24, R25, R447, R448) -/

/-- Whether a tile holds no placed process and eight empty slots. -/
def State.freshTile (s : State) (t : Nat) : Bool :=
  (s.mgr.procs.all fun p => p.tile != t) && (s.tile t).slots.toList.all fun x => decide (x.run = RunState.empty)

/-- Whether a vacated tile still redirects: nothing is placed on it. -/
def State.redirecting (s : State) (t : Nat) : Bool :=
  match (s.tile t).forward with
  | some f => decide (s.time < f.expiry)
  | none => false

/-- Placements made so far: record, tile, slot. -/
abbrev Placed := List (Nat × Nat × Nat)

/-- Whether the records placed, or a network there already, give a tile a supervisor of its own. -/
def State.ownSup (s : State) (recs : List PRec) (tiles : List Nat) (done : Placed) (t : Nat) : Bool :=
  (recs.any fun r => r.sup && r.tile != 0xFFFF && tiles[r.tile]? == some t) ||
    (done.any fun d => d.2.1 == t && match recs[d.1]? with
      | some r => r.sup
      | none => false) ||
    (!s.freshTile t && !(s.tile t).defSup)

/-- Whether a tile already takes an instance of a record's process: where the manager chooses the tile of either, each instance
has its own (17_program_wavefront.md R481). -/
def instanceAt (recs : List PRec) (done : Placed) (r : PRec) (t : Nat) : Bool :=
  done.any fun d => d.2.1 == t && match recs[d.1]? with
    | some q => q.name == r.name && (q.tile == 0xFFFF || r.tile == 0xFFFF)
    | none => false

/-- Whether a record may be placed in a slot of a tile now. -/
def State.mayPlace (s : State) (recs : List PRec) (tiles : List Nat) (done : Placed) (r : PRec) (t k : Nat) : Bool :=
  !s.redirecting t && (s.procAt t k).isNone && decide ((s.slot t (Fin.ofNat 8 k)).run = RunState.empty) &&
    (done.all fun d => !(d.2.1 == t && d.2.2 == k)) && !instanceAt recs done r t &&
    (if r.sup then
      (done.all fun d => d.2.1 != t || match recs[d.1]? with
        | some q => !q.sup
        | none => true) && (s.freshTile t || (s.tile t).defSup)
     else k != 7 || s.ownSup recs tiles done t)

/-- Slots a record may take, in the manager's order of choice (DESIGN CHOICE: notes/assumptions/27.md). A vector process needs
slot 0 or 1 and a supervisor a scalar slot (01_machine.md R24, R25): a record that asks for both has none. -/
def PRec.slots (r : PRec) : List Nat :=
  if r.slot ≠ 0xFF then [r.slot] else if r.vector && r.sup then [] else if r.vector then [0, 1] else if r.sup then [7, 6, 5, 4, 3, 2] else [2, 3, 4, 5, 6, 7, 0, 1]

/-- Which records are placed first: the supervisors, on which the use of slot 7 depends, then those with less choice. -/
def PRec.turn (r : PRec) : Nat :=
  if r.sup then 0 else
    1 + (if r.tile = 0xFFFF then 3 else 0) + (if r.slot ≠ 0xFF then 0 else if r.vector then 1 else 2)

/-- Places a record may take, in the manager's order: a tile of its choice is one in use by the network or fresh before any
other. -/
def State.placesFor (s : State) (recs : List PRec) (tiles : List Nat) (done : Placed) (r : PRec) : List (Nat × Nat) :=
  let mine := fun t => done.any (fun d => d.2.1 == t) || s.freshTile t
  let cands := if r.tile = 0xFFFF then tiles.filter mine ++ tiles.filter (fun t => !mine t)
    else match tiles[r.tile]? with
      | some t => [t]
      | none => []
  cands.flatMap fun t => (r.slots.filter fun k => s.mayPlace recs tiles done r t k).map fun k => (t, k)

/-- The records left placed behind those done: the first choice under which all the rest can be placed too; none only where
they cannot all be placed (R448). -/
def State.placeRest (s : State) (recs : List PRec) (tiles : List Nat) : List (PRec × Nat) → Placed → Option Placed
  | [], done => some done
  | r :: rest, done =>
    (s.placesFor recs tiles done r.1).findSome? fun p => s.placeRest recs tiles rest (done ++ [(r.2, p.1, p.2)])

/-- Every record placed, or none. -/
def State.placeAll (s : State) (recs : List PRec) (tiles : List Nat) : Option Placed :=
  s.placeRest recs tiles ((List.range 7).flatMap fun n => recs.zipIdx.filter fun r => r.1.turn == n) []

/-- What makes the manager refuse the image (R448). -/
def placementBad (recs : List PRec) (tiles : List Nat) : Bool :=
  let fixed := recs.filter fun r => r.tile != 0xFFFF
  (fixed.any fun r => decide (tiles.length ≤ r.tile)) ||
    decide (¬ ((fixed.filter fun r => r.slot != 0xFF).map fun r => (r.tile, r.slot)).Nodup) ||
    decide (¬ ((fixed.filter fun r => r.sup).map fun r => r.tile).Nodup) ||
    fixed.any fun r => r.slot == 7 && !fixed.any fun q => q.tile == r.tile && q.sup

/-! ### Loading (R65 step 3) -/

/-- A process as it is to be loaded: its record, place, and where its code and data lie, as local addresses. -/
structure Load where
  idx : Nat
  rec' : PRec
  tile : Nat
  slot : Nat
  code : Nat
  data : Nat
  deriving DecidableEq, Repr

def Load.k (l : Load) : Fin 8 := Fin.ofNat 8 l.slot

def roundUp (n m : Nat) : Nat := (n + m - 1) / m * m

/-- Size of a named section, 0 where there is none. -/
def secSize (secs : List Sec) (name : List Byte) : Nat :=
  match findSec secs name with
  | some x => x.data.length
  | none => 0

/-- Where code and data go: each process's code at the next multiple of 0x100, its data at the next of 64, behind those
already at the tile (DESIGN CHOICE: notes/assumptions/27.md). -/
def State.layout (s : State) (d : Dexay) (done : Placed) : List Load :=
  (done.mergeSort fun a b => decide (a.1 ≤ b.1)).foldl (fun ls p =>
    match d.procs[p.1]? with
    | some r =>
      let here := ls.filter fun l => l.tile == p.2.1
      let live := s.mgr.procs.filter fun q => q.tile == p.2.1
      let c := (here.map fun l => l.code + secSize d.secs (str ".text." ++ l.rec'.name)) ++ live.map (·.codeEnd)
      let a := (here.map fun l => l.data + secSize d.secs (str ".data." ++ l.rec'.name)) ++ live.map (·.dataEnd)
      ls ++ [{ idx := p.1, rec' := r, tile := p.2.1, slot := p.2.2, code := roundUp (c.foldl max 0xD0000) 0x100,
               data := roundUp (a.foldl max 0xC0000) 64 }]
    | none => ls) []

/-- Name of a process's section for a bank. -/
def bankName (name : List Byte) (n : Nat) : List Byte := str ".bank." ++ name ++ str "." ++ str (toString n)

/-- Where a section lies for process `l`: its own, or that of another process at its tile. -/
def baseOf (d : Dexay) (ls : List Load) (l : Load) (i : Nat) : Option Nat :=
  match d.secs[i]? with
  | none => none
  | some x =>
    (l :: ls.filter fun q => q.tile == l.tile).findSome? fun q =>
      if x.name = str ".text." ++ q.rec'.name then some q.code
      else if x.name = str ".data." ++ q.rec'.name then some q.data
      else ((List.range 16).find? fun n => x.name == bankName q.rec'.name n).map fun n => 0xC000 * n

/-- A section of process `l` relocated; empty where there is none. -/
def loadSec (d : Dexay) (ls : List Load) (l : Load) (name : List Byte) (at' : Nat) : Option (List Byte) :=
  match findIdx (fun x : Sec => x.name == name) d.secs with
  | none => some []
  | some i =>
    let rs := relocsOf d.secs i
    relocate (symValue d.secs (baseOf d ls l) rs.2) at' rs.1 ((d.secs[i]?.map (·.data)).getD [])

/-- The placement record of process `l` with the note's relocations applied. -/
def loadRec (d : Dexay) (ls : List Load) (l : Load) : Option (List Byte) :=
  match findIdx (fun x : Sec => x.name == str ".note.dexay") d.secs with
  | none => none
  | some i =>
    let rs := relocsOf d.secs i
    let at' := d.placeAt + 112 * l.idx
    let mine := (rs.1.filter fun r => decide (at' ≤ r.off ∧ r.off < at' + 112)).map fun r => { r with off := r.off - at' }
    relocate (symValue d.secs (baseOf d ls l) rs.2) 0 mine l.rec'.raw

/-- What is loaded for a process: record, code with its start bits, data, banks. -/
structure Loaded where
  at' : Load
  prec : List Byte
  code : List Byte
  starts : List Bool
  data : List Byte
  banks : List (Nat × List Byte)
  deriving DecidableEq, Repr

/-- A process's sections through the loader and the rewriter; none where one is malformed or does not fit. -/
def loadProc (policy : Nat → Bool → Bool) (d : Dexay) (ls : List Load) (l : Load) : Option Loaded :=
  let nm := l.rec'.name
  let text := if (findSec d.secs (str ".text." ++ nm)).isSome then loadSec d ls l (str ".text." ++ nm) l.code else none
  let code := text.bind fun b => rewriteCode policy l.rec'.pperm l.rec'.hperm b
  let banks := allSome ((List.range 16).map fun n => loadSec d ls l (bankName nm n) (0xC000 * n))
  match loadRec d ls l, code, loadSec d ls l (str ".data." ++ nm) l.data, banks with
  | some p, some (c, st), some a, some bs =>
    if 0xE0000 < l.code + c.length ∨ 0xD0000 < l.data + a.length ∨ bs.any (fun b => decide (0xC000 < b.length)) = true then none
    else some { at' := l, prec := p, code := c, starts := st, data := a,
                banks := (bs.zipIdx.filter fun b => b.1 != []).map fun b => (b.2, b.1) }
  | _, _, _, _ => none

/-- Start bits of a run of halfwords written from a local address of code memory. -/
def putStarts (start : BitVec 32768) (a : Nat) (l : List Bool) : BitVec 32768 :=
  l.zipIdx.foldl (fun x b => setBit x ((a - 0xD0000) / 2 + b.2) b.1) start

/-- What is loaded for a process put into its tile's memories. -/
def Tile.load (x : Tile) (l : Loaded) : Tile :=
  let x1 := { x with mem := Mem.writeBytes x.mem l.at'.code l.code, start := putStarts x.start l.at'.code l.starts }
  l.banks.foldl (fun y b => y.writeBytes (0xC000 * b.1) b.2 false) (x1.writeBytes l.at'.data l.data false)

/-- A fresh tile prepared for a network: scrubbed, the default supervisor, the issue mode (R27). -/
def State.prepare (s : State) (tnt netid t : Nat) (all8 : Bool) : State :=
  if s.freshTile t then
    let mode := if all8 then s.effNet (·.issue) netid else s.effPart (·.issue) tnt
    s.modTile t fun x => { x.scrub with supSlot := 7, defSup := true, strict := mode == 1, vacated := false, forward := none }
  else s

/-! ### Slot contexts (04_scalar_registers.md R141; 07_control_registers.md R233) -/

/-- A process's context at its start: running from its entry. R233 gives TVEC the address of the default supervisor's
handler; it is so for every process, whichever supervisor the tile has (DESIGN CHOICE: notes/assumptions/55.md). -/
def Loaded.context (l : Loaded) (pid netid tnt prio : Nat) : Slot :=
  let u := fun a => BitVec.ofNat 64 (fld l.prec a 8)
  { Slot.reset with
    run := .running, pc := pcOf (u 8),
    g := Vector.ofFn fun i => if i.val = 2 then u 16 else if 4 ≤ i.val ∧ i.val ≤ 11 then u (40 + 8 * (i.val - 4)) else 0,
    status := BitVec.ofNat 64 (b2n l.at'.rec'.pw + b2n l.at'.rec'.sup * 16), tvec := Config.defaultHandler,
    prio := BitVec.ofNat 2 prio, pid := BitVec.ofNat 16 pid, netid := BitVec.ofNat 32 netid, tenant := BitVec.ofNat 10 tnt }

/-- A context written to its slot, and the manager's record of the process. -/
def State.startProc (s : State) (l : Loaded) (pid netid tnt : Nat) : State :=
  let inherit : Rcb := Rcb.only 53 0x80
  let p : Proc := { netid := netid, tnt := tnt, idx := l.at'.idx, pid := pid, tile := l.at'.tile, slot := l.at'.slot,
                    vector := l.at'.rec'.vector, sup := l.at'.rec'.sup, rcb := inherit,
                    codeEnd := l.at'.code + l.code.length, dataEnd := l.at'.data + l.data.length }
  let prio := s.effNet (·.prio) netid
  (s.modTile p.tile fun x =>
    let x1 := (x.load l).modSlot p.k fun y => { l.context pid netid tnt prio with ports := y.ports }
    let x2 := if p.slot < 2 then x1.modVec p.k fun _ => VecCtx.reset else x1
    if p.sup then { x2 with supSlot := p.k, defSup := false } else x2).modMgr fun m => { m with procs := m.procs ++ [p] }

/-! ### Channels (R65 step 4) -/

/-- A port of a record after its permutation. -/
def loadPort (ls : List Load) (i port : Nat) : Nat :=
  match ls.find? fun l => l.idx == i with
  | some l => permAt l.rec'.pperm port
  | none => port

/-- The records with their ports renumbered. -/
def CRec.bound (c : CRec) (ls : List Load) : ChanRec :=
  { id := c.id, prod := c.prod, pport := if c.prod = 0xFFFF then 0 else loadPort ls c.prod c.pport, cons := c.cons,
    cport := if c.cons = 0xFFFF then 0 else loadPort ls c.cons c.cport, toe := c.toe, cap := c.cap }

/-- A send end bound at its tile; none where the endpoint table is full. -/
def State.bindSend (s : State) (netid pidBase : Nat) (l : Load) (c : ChanRec) (peer : Ep) : Option State :=
  (freeKey (s.tile l.tile).ends 0 256).map fun i =>
    let e : SendEnd := { netid := netid, chan := c.id, pid := pidBase + l.idx, port := c.pport, slot := l.slot, peer := peer,
                         state := .open, credits := c.cap, cumul := 0, nextSeq := 0, noticed := false, cap := c.cap,
                         room := c.cap }
    s.modTile l.tile fun x => x.bindEnd l.k i c.pport c.id true (.send e)

/-- A receive end bound at its tile; none where the endpoint table or the channel areas are full (R327). -/
def State.bindRecv (s : State) (netid pidBase : Nat) (l : Load) (c : ChanRec) (peer : Ep) : Option State :=
  if 4096 < (s.tile l.tile).areaSlots + c.cap then none
  else (freeKey (s.tile l.tile).ends 0 256).map fun i =>
    let e : RecvEnd := { netid := netid, chan := c.id, pid := pidBase + l.idx, port := c.cport, slot := l.slot, peer := peer,
                         state := .open, nextSeq := 0, base := (s.tile l.tile).areaAt c.cap, decl := c.cap, cap := c.cap,
                         held := [], endRec := none, toe := c.toe, returned := 0, grown := 0, dead := false, exts := [],
                         joined := 0, wpos := 0, spilled := [], early := [], ahead := [], reading := false, claims := [] }
    s.modTile l.tile fun x => x.bindEnd l.k i c.cport c.id false (.recv e)

/-- A memory server's pair at the foot of the requester's column (R354). -/
def State.bindPair (s : State) (netid tnt pidBase : Nat) (a b : Load) (req rep : ChanRec) : State :=
  let p : ServerPair := { tnt := tnt, netid := netid, pid := pidBase + a.idx, chan := req.id, reqPeer := ⟨.tile, a.tile⟩,
                          repPeer := ⟨.tile, b.tile⟩, reqCap := req.cap, toks := [], got := [], nextIn := 0, returned := 0, out := [],
                          nextOut := 0, credits := rep.cap, cumul := 0, ended := false, endSent := false, repGone := false,
                          asking := false, denied := [] }
  s.modEdge (s.footOf a.tile).num fun x => { x with pairs := x.pairs ++ [p] }

/-- One channel bound at its ends. -/
def State.bindChan (s : State) (netid tnt pidBase : Nat) (ls : List Load) (cs : List ChanRec) (c : ChanRec) : Option State :=
  let at' := fun i => ls.find? fun l => l.idx == i
  match at' c.prod, at' c.cons with
  | some a, some b => (s.bindSend netid pidBase a c ⟨.tile, b.tile⟩).bind fun s1 => s1.bindRecv netid pidBase b c ⟨.tile, a.tile⟩
  | some a, none =>
    let s1 := match cs.find? fun r => r.id == c.id + 1 with
      | some r => match at' r.cons with
        | some b => s.bindPair netid tnt pidBase a b c r
        | none => s
      | none => s
    s1.bindSend netid pidBase a c (s.footOf a.tile)
  | none, some b =>
    let home := match (cs.find? fun r => r.id + 1 == c.id).bind fun r => at' r.prod with
      | some a => s.footOf a.tile
      | none => s.footOf b.tile
    s.bindRecv netid pidBase b c home
  | none, none => none

/-! ### Reels (12_reels.md R412) -/

/-- An entry for a reel record; none where the name is in use, or no entry or budget remains. -/
def State.keepReel (s : State) (tnt netid : Nat) (r : Nat × Nat) : Option State :=
  let n := s.reelHome tnt netid r.1
  let x := s.reelSt n
  if (x.named netid r.1).isSome ∨ s.netLeft (·.reelent) s.entryUse (fun _ => 0) netid = 0 then none
  else (freeKey x.entries 0 256).map fun k =>
    s.modReel n fun y => y.setEntry k (ReelEntry.fresh tnt netid r.1 r.2 true)

/-! ### The spill region (R351, R480) -/

/-- Size of a network's spill region: its own budget, or, where it inherits one and has channels, what its partition has
left, at most 1 MiB (DESIGN CHOICE: notes/assumptions/28.md). -/
def State.spillFor (s : State) (tnt : Nat) (r : Rcb) (chans : Bool) : Nat :=
  match r.spill with
  | some v => v
  | none => if chans = false then 0 else min (s.partLeft (·.spill) s.spillUse (fun _ => 0) tnt) (2 ^ 20)

/-- Where the region lies: where the block says, or where the manager chooses, clear of the pages mapped for the PIDs. -/
def spillPlace (maps : List Mapping) (pidBase nproc own size : Nat) : Option Nat :=
  let clash := fun b => maps.any fun m => decide (pidBase ≤ m.pid) && decide (m.pid < pidBase + nproc) &&
    overlaps m.va (2 ^ pageBits m.level) (b / 65536 * 65536) (size + 65536)
  if own = 0 then (List.range 64).findSome? fun j =>
    let b := 0x400000 + j * 2 ^ 50
    if clash b then none else some b
  else if own % 8 ≠ 0 ∨ 2 ^ 57 < own + size ∨ clash own then none
  else some own

/-- A leaf of a spill page: package DRAM, relaxed cached, readable and writable. -/
def spillLeaf (pa : Nat) : Word := BitVec.ofNat 64 (pa + pa / 2 ^ 37 * 2 ^ 12 + 2 ^ 5 + 0xF)

/-- One 64 KiB page of the region: DRAM scrubbed, and mapped for every PID of the network. -/
def State.spillPage (s : State) (tnt netid pidBase nproc va : Nat) : Option State :=
  match s.findDram 0 65536 with
  | none => none
  | some pa =>
    let s1 := (s.scrubDram pa 65536).modMgr fun m => { m with nets := m.nets.map fun (n : Network) =>
      if n.netid = netid then { n with spillPages := n.spillPages ++ [pa] } else n }
    (List.range nproc).foldl (fun acc i => acc.bind fun st => st.mapLeaf tnt (pidBase + i) va 4 (spillLeaf pa)) (some s1)

/-- The region mapped, and its allocation word set to 64. -/
def State.spillMap (s : State) (n : Network) : Option State :=
  if n.spillSize = 0 then some s
  else
    let b := n.spillBase / 65536 * 65536
    let pages := ceilDiv (n.spillBase - b + n.spillSize) 65536
    ((List.range pages).foldl (fun acc j => acc.bind fun st =>
      st.spillPage n.tnt n.netid n.pidBase n.nproc (b + 65536 * j)) (some s)).map fun st =>
        match (st.net n.netid).bind fun m => m.spillPages.head? with
        | some pa => { st with dram := Mem.store st.dram (pa + (n.spillBase - b)) 8 64 }
        | none => st

/-! ### The decode table (R450) -/

/-- The image to be loaded: the host's answer where it may be asked, an image that is not signed replaced by the hardware-mode
action (01_machine.md R56), which applies the firmware's; none to keep what is there. -/
def State.launchImage (s : State) (tnt : Nat) : Option (List Byte) :=
  let own := if Config.decodeImage ≠ [] ∧ Config.imageSigned Config.decodeImage = true then some Config.decodeImage else none
  match (if bit (s.assistBits tnt) 4 then s.mgr.decodeAns else none) with
  | some [] => none
  | some b => if Config.imageSigned b then some b else own
  | none => own

/-- Whether a tile needs an image loaded: it holds another, or its last load failed. -/
def Tile.needsImage (x : Tile) (b : List Byte) : Bool := decide (x.decTable.image ≠ b) || x.decTable.failed

/-- An image loaded at tiles that need it. -/
def State.loadTables (s : State) (img : Option (List Byte)) (ts : List Nat) : State :=
  match img with
  | some b => ts.foldl (fun s' t => if (s'.tile t).needsImage b then s'.applyDecode t b else s') s
  | none => s

/-- Whether a tile that needs an image has a slot that is started. -/
def State.tablesBusy (s : State) (img : Option (List Byte)) (ts : List Nat) : Bool :=
  match img with
  | some b => ts.any fun t => (s.tile t).needsImage b && !(s.tile t).still
  | none => false

/-! ### The whole (R65) -/

/-- The network's node, placed nowhere yet. -/
def Dexay.network (d : Dexay) (netid tnt tag pidBase : Nat) (ls : List Load) : Network :=
  { netid := netid, tnt := tnt, rcb := { Rcb.ofBytes d.region with assist := none }, tag := BitVec.ofNat 32 tag,
    pidBase := pidBase, nproc := d.procs.length, chans := d.chans.map fun c => c.bound ls, spillBase := 0, spillSize := 0,
    spillPages := [], poisoned := none }

/-- BFMT registers from the bank records, loaded as they stand: whether a reserved format code keeps the register unchanged, as
a write of it would (08_memories.md R262), is not stated (DESIGN CHOICE: notes/assumptions/55.md). -/
def State.putBanks (s : State) (d : Dexay) (ls : List Load) : State :=
  d.banks.foldl (fun s' b => match ls.find? fun l => l.idx == b.1 with
    | some l => s'.modTile l.tile fun x =>
        { x with bfmt := x.bfmt.set (Fin.ofNat 16 b.2.1) (BitVec.ofNat 64 b.2.2 &&& 0xF9F) }
    | none => s') s

/-- Steps 3 to 6, once everything is checked; none where a channel, a reel or the spill region finds no room, with the
status that says so. -/
def State.launchGo (s : State) (d : Dexay) (n : Network) (ls : List Load) (lds : List Loaded) (img : Option (List Byte)) :
    Except Nat State :=
  let ts := (ls.map (·.tile)).foldl setInsert []
  let s1 := s.modMgr fun m => { m with nets := m.nets ++ [n], nextNet := m.nextNet + 1 }
  let s2 := ts.foldl (fun s' t =>
    (s'.prepare n.tnt n.netid t (decide ((ls.filter fun l => l.tile == t).length = 8)))) (s1.loadTables img ts)
  match n.chans.foldl (fun acc c => acc.bind fun st => st.bindChan n.netid n.tnt n.pidBase ls n.chans c) (some s2) with
  | none => .error aBAD_IMAGE
  | some s3 =>
    if ls.any fun l => decide (0xD0000 < (lds.foldl (fun k x => if x.at'.tile = l.tile then max k (x.at'.data + x.data.length)
        else k) 0xC0000) + 8 * (s3.tile l.tile).areaSlots) then .error aBAD_IMAGE
    else match d.reels.foldl (fun acc r => acc.bind fun st => st.keepReel n.tnt n.netid r) (some s3) with
      | none => .error aNO_BUDGET
      | some s4 => match s4.spillMap n with
        | none => .error aNO_BUDGET
        | some s5 =>
          let s6 := lds.foldl (fun s' l => s'.startProc l (n.pidBase + l.at'.idx) n.netid n.tnt) (s5.putBanks d ls)
          if s6.dramFits n.tnt then .ok s6 else .error aNO_BUDGET

/-- Whether the object's bytes are refused before its tables are read. An object of another edition that is also malformed is
answered BAD_EDITION once its container and its note's first 64 bytes can be read, and BAD_IMAGE before (DESIGN CHOICE:
notes/assumptions/55.md). -/
def dexayCheck (b : List Byte) : Except Nat Dexay :=
  match dexayEdition b with
  | none => .error aBAD_IMAGE
  | some e =>
    if e ≠ 1 then .error aBAD_EDITION
    else match Dexay.read b with
      | none => .error aBAD_IMAGE
      | some d => if d.eflags % 256 ≠ 1 ∨ blockBad d.region 2 = true then .error aBAD_IMAGE else .ok d

/-- The LAUNCH of an object that is well formed. Bits above a far address's 57 in SPILLBASE are dropped, and what is left of 0
lets the manager choose (DESIGN CHOICE: notes/assumptions/55.md). -/
def State.launchObject (s : State) (m : HMsg) (p : Partition) (d : Dexay) : Handled :=
  let tiles := s.partTiles p
  let pidArg := m.u 16 2
  if placementBad d.procs tiles then .refuse aBAD_IMAGE
  else match s.choosePids p pidArg d.procs.length with
    | .error e => .refuse e
    | .ok pidBase =>
      match s.placeAll d.procs tiles with
      | none => .refuse aNO_BUDGET
      | some done =>
        let ls := s.layout d done
        let ts := (ls.map (·.tile)).foldl setInsert []
        let n0 := d.network s.mgr.nextNet p.tnt m.tag pidBase ls
        let room := (n0.rcb.tiles).getD (s.partLeft (·.tiles) s.tileUse (fun _ => 0) p.tnt)
        let size := s.spillFor p.tnt n0.rcb (d.chans != [])
        if s.carveNet p.tnt n0.rcb = false ∨ room < ts.length then .refuse aNO_BUDGET
        else match spillPlace p.maps pidBase d.procs.length (fld d.region 72 8 % 2 ^ 57) size with
          | none => .refuse aBAD_IMAGE
          | some base =>
            let n := { n0 with spillBase := base, spillSize := size }
            let img := s.launchImage p.tnt
            let policy := fun (l : Load) => Config.chainPolicy (img.getD (s.tile l.tile).decTable.image)
            match allSome (ls.map fun l => loadProc (policy l) d ls l) with
            | none => .refuse aBAD_IMAGE
            | some lds =>
              let t0 := ts.headD 0
              if bit (s.assistBits p.tnt) 4 ∧ s.mgr.decodeAns = none then
                if s.mgr.assists.any fun a => a.what == .decode then .wait s
                else .wait (s.askHost 4 p.tnt n.netid
                  (toBytes 8 (s.tile t0).decTable.revision.toNat ++ toBytes 64 (Config.sha3 (s.tile t0).decTable.image).toNat)
                  .decode)
              else if s.tablesBusy img ts then .wait s
              else match s.launchGo d n ls lds img with
                | .ok s1 => .done s1 n.netid (if pidArg = 0 then pidBase else 0)
                | .error e => .refuse e

/-- The LAUNCH at the head of the channel. -/
def State.launchRequest (s : State) (m : HMsg) : Handled :=
  let space := m.u 8 1
  if 1 < space then .refuse aBAD_FIELD
  else match s.part m.tnt, s.objectBytes space (m.u 0 8) (m.u 12 4) with
    | some p, some b => match dexayCheck b with
      | .ok d => s.launchObject m p d
      | .error e => .refuse e
    | _, _ => .refuse aBAD_IMAGE

/-- LAUNCH. -/
def execLaunch (s : State) : Res := runEvent s fun st =>
  st.hostRow (fun m => m.kind == 1) needPart (fun _ => 24) (fun _ => [9, 10, 11, 18, 19, 20, 21, 22, 23]) State.launchRequest

end Sys2Proof.Machine
end

