-- ==== Sys2Proof/Machine/Scalar.lean ====
section
/-!
DEFINITION. Meanings of the scalar groups: INT-R, INT-I, LDHI and ADDPC, MULDIV, branches and jumps, OX, hints and the
compact forms that stand for them (04_scalar_registers.md, 03_encoding.md R117, R124).
-/
namespace Sys2Proof.Machine

/-- LDHI and ADDPC: a value formed from the instruction's own address (R160). -/
def upper (len : Nat) (d : BitVec 5) (f : Word → Word) : Body :=
  scalarOp [] (some d) fun st _ => .ok (st.adv len, f st.me.pc, false)

/-- JAL: CheckTarget, then the link, then the PC (R165). -/
def jumpLink (len : Nat) (d : BitVec 5) (f : Word → Word) : Body :=
  scalarOp [] (some d) fun st _ =>
    match st.jump (f st.me.pc) with
    | .ok st' => .ok (st', st.me.pc + BitVec.ofNat 64 len, false)
    | .error e => .error e

/-- ADD: a + b (R157). -/
def execAdd (t d rs : BitVec 5) (s : State) : Res :=
  runBody s (aluRR 4 d rs t (fun a b => a + b))

/-- SUB: a - b (R157). -/
def execSub (t d rs : BitVec 5) (s : State) : Res :=
  runBody s (aluRR 4 d rs t (fun a b => a - b))

/-- AND (R157). -/
def execAnd (t d rs : BitVec 5) (s : State) : Res :=
  runBody s (aluRR 4 d rs t (fun a b => a &&& b))

/-- OR (R157). -/
def execOr (t d rs : BitVec 5) (s : State) : Res :=
  runBody s (aluRR 4 d rs t (fun a b => a ||| b))

/-- XOR (R157). -/
def execXor (t d rs : BitVec 5) (s : State) : Res :=
  runBody s (aluRR 4 d rs t (fun a b => a ^^^ b))

/-- ANDN: a AND NOT b (R157). -/
def execAndn (t d rs : BitVec 5) (s : State) : Res :=
  runBody s (aluRR 4 d rs t (fun a b => a &&& ~~~b))

/-- SLL by b[5:0] (R157). -/
def execSll (t d rs : BitVec 5) (s : State) : Res :=
  runBody s (aluRR 4 d rs t (fun a b => a <<< shamt b))

/-- SRL by b[5:0] (R157). -/
def execSrl (t d rs : BitVec 5) (s : State) : Res :=
  runBody s (aluRR 4 d rs t (fun a b => a >>> shamt b))

/-- SRA by b[5:0] (R157). -/
def execSra (t d rs : BitVec 5) (s : State) : Res :=
  runBody s (aluRR 4 d rs t (fun a b => a.sshiftRight (shamt b)))

/-- SLT (R157). -/
def execSlt (t d rs : BitVec 5) (s : State) : Res :=
  runBody s (aluRR 4 d rs t aluSlt)

/-- SLTU (R157). -/
def execSltu (t d rs : BitVec 5) (s : State) : Res :=
  runBody s (aluRR 4 d rs t aluSltu)

/-- MIN (R157). -/
def execMin (t d rs : BitVec 5) (s : State) : Res :=
  runBody s (aluRR 4 d rs t aluMin)

/-- MAX (R157). -/
def execMax (t d rs : BitVec 5) (s : State) : Res :=
  runBody s (aluRR 4 d rs t aluMax)

/-- MINU (R157). -/
def execMinu (t d rs : BitVec 5) (s : State) : Res :=
  runBody s (aluRR 4 d rs t aluMinu)

/-- MAXU (R157). -/
def execMaxu (t d rs : BitVec 5) (s : State) : Res :=
  runBody s (aluRR 4 d rs t aluMaxu)

/-- CLZ: 64 for 0 (R157). -/
def execClz (d rs : BitVec 5) (s : State) : Res :=
  runBody s (aluR 4 d rs aluClz)

/-- CTZ: 64 for 0 (R157). -/
def execCtz (d rs : BitVec 5) (s : State) : Res :=
  runBody s (aluR 4 d rs aluCtz)

/-- POPC (R157). -/
def execPopc (d rs : BitVec 5) (s : State) : Res :=
  runBody s (aluR 4 d rs aluPopc)

/-- REV8 (R157). -/
def execRev8 (d rs : BitVec 5) (s : State) : Res :=
  runBody s (aluR 4 d rs aluRev8)

/-- SEXT.B (R157). -/
def execSextB (d rs : BitVec 5) (s : State) : Res :=
  runBody s (aluR 4 d rs (sext 8))

/-- SEXT.H (R157). -/
def execSextH (d rs : BitVec 5) (s : State) : Res :=
  runBody s (aluR 4 d rs (sext 16))

/-- SEXT.W (R157). -/
def execSextW (d rs : BitVec 5) (s : State) : Res :=
  runBody s (aluR 4 d rs (sext 32))

/-- ROL by b[5:0] (R157). -/
def execRol (t d rs : BitVec 5) (s : State) : Res :=
  runBody s (aluRR 4 d rs t (fun a b => a.rotateLeft (shamt b)))

/-- ROTR by b[5:0] (R157). -/
def execRotr (t d rs : BitVec 5) (s : State) : Res :=
  runBody s (aluRR 4 d rs t (fun a b => a.rotateRight (shamt b)))

/-- ADDI: its INT-R counterpart with the sign-extended immediate (R159). -/
def execAddi (imm : BitVec 13) (d rs : BitVec 5) (s : State) : Res :=
  runBody s (aluR 4 d rs (fun a => a + simm imm))

/-- ANDI: its INT-R counterpart with the sign-extended immediate (R159). -/
def execAndi (imm : BitVec 13) (d rs : BitVec 5) (s : State) : Res :=
  runBody s (aluR 4 d rs (fun a => a &&& simm imm))

/-- ORI: its INT-R counterpart with the sign-extended immediate (R159). -/
def execOri (imm : BitVec 13) (d rs : BitVec 5) (s : State) : Res :=
  runBody s (aluR 4 d rs (fun a => a ||| simm imm))

/-- XORI: its INT-R counterpart with the sign-extended immediate (R159). -/
def execXori (imm : BitVec 13) (d rs : BitVec 5) (s : State) : Res :=
  runBody s (aluR 4 d rs (fun a => a ^^^ simm imm))

/-- SLTI: its INT-R counterpart with the sign-extended immediate (R159). -/
def execSlti (imm : BitVec 13) (d rs : BitVec 5) (s : State) : Res :=
  runBody s (aluR 4 d rs (fun a => aluSlt a (simm imm)))

/-- SLTIU: its INT-R counterpart with the sign-extended immediate (R159). -/
def execSltiu (imm : BitVec 13) (d rs : BitVec 5) (s : State) : Res :=
  runBody s (aluR 4 d rs (fun a => aluSltu a (simm imm)))

/-- SLLI by the amount field (R159). -/
def execSlli (h : BitVec 6) (d rs : BitVec 5) (s : State) : Res :=
  runBody s (aluR 4 d rs (fun a => a <<< h.toNat))

/-- SRLI by the amount field (R159). -/
def execSrli (h : BitVec 6) (d rs : BitVec 5) (s : State) : Res :=
  runBody s (aluR 4 d rs (fun a => a >>> h.toNat))

/-- SRAI by the amount field (R159). -/
def execSrai (h : BitVec 6) (d rs : BitVec 5) (s : State) : Res :=
  runBody s (aluR 4 d rs (fun a => a.sshiftRight h.toNat))

/-- LDHI: SignExtend(imm20) * 2^12 (R160). -/
def execLdhi (imm : BitVec 20) (d : BitVec 5) (s : State) : Res :=
  runBody s (upper 4 d fun _ => simm imm <<< 12)

/-- ADDPC: the local address of the instruction added (R160). -/
def execAddpc (imm : BitVec 20) (d : BitVec 5) (s : State) : Res :=
  runBody s (upper 4 d fun pc => pc + simm imm <<< 12)

/-- MUL: low half (R161). -/
def execMul (t d rs : BitVec 5) (s : State) : Res :=
  runBody s (aluRR 4 d rs t (fun a b => a * b))

/-- MULH: high half, both signed (R161). -/
def execMulh (t d rs : BitVec 5) (s : State) : Res :=
  runBody s (aluRR 4 d rs t (fun a b => mulHigh a.toInt b.toInt))

/-- MULHU: high half, both unsigned (R161). -/
def execMulhu (t d rs : BitVec 5) (s : State) : Res :=
  runBody s (aluRR 4 d rs t (fun a b => mulHigh a.toNat b.toNat))

/-- MULHSU: high half, a signed and b unsigned (R161). -/
def execMulhsu (t d rs : BitVec 5) (s : State) : Res :=
  runBody s (aluRR 4 d rs t (fun a b => mulHigh a.toInt b.toNat))

/-- DIVU (R161, R162). -/
def execDivu (t d rs : BitVec 5) (s : State) : Res :=
  runBody s (aluRR 4 d rs t aluDivu)

/-- DIV (R161, R162). -/
def execDiv (t d rs : BitVec 5) (s : State) : Res :=
  runBody s (aluRR 4 d rs t aluDiv)

/-- REMU (R161, R162). -/
def execRemu (t d rs : BitVec 5) (s : State) : Res :=
  runBody s (aluRR 4 d rs t aluRemu)

/-- REM (R161, R162). -/
def execRem (t d rs : BitVec 5) (s : State) : Res :=
  runBody s (aluRR 4 d rs t aluRem)

/-- BEQ (R163). -/
def execBeq (o : BitVec 13) (rs t : BitVec 5) (s : State) : Res :=
  runBody s (branch 4 rs t (simm o <<< 1) fun a b => a == b)

/-- BNE (R163). -/
def execBne (o : BitVec 13) (rs t : BitVec 5) (s : State) : Res :=
  runBody s (branch 4 rs t (simm o <<< 1) fun a b => a != b)

/-- BLT (R163). -/
def execBlt (o : BitVec 13) (rs t : BitVec 5) (s : State) : Res :=
  runBody s (branch 4 rs t (simm o <<< 1) fun a b => a.slt b)

/-- BGE (R163). -/
def execBge (o : BitVec 13) (rs t : BitVec 5) (s : State) : Res :=
  runBody s (branch 4 rs t (simm o <<< 1) fun a b => !a.slt b)

/-- BLTU (R163). -/
def execBltu (o : BitVec 13) (rs t : BitVec 5) (s : State) : Res :=
  runBody s (branch 4 rs t (simm o <<< 1) fun a b => a.ult b)

/-- BGEU (R163). -/
def execBgeu (o : BitVec 13) (rs t : BitVec 5) (s : State) : Res :=
  runBody s (branch 4 rs t (simm o <<< 1) fun a b => !a.ult b)

/-- JAL: link in d (R165). -/
def execJal (imm : BitVec 21) (d : BitVec 5) (s : State) : Res :=
  runBody s (jumpLink 4 d fun pc => pc + simm imm <<< 1)

/-- JALR: the target is formed before the link is written (R166). -/
def execJalr (imm : BitVec 13) (d rs : BitVec 5) (s : State) : Res :=
  runBody s (scalarOp [rs] (some d) fun st vs =>
    match st.jump (vs.getD 0 0 + simm imm) with
    | .ok st' => .ok (st', st.me.pc + 4, false)
    | .error e => .error e)

/-- OXL: e[d] := ReadG(s) (R167). -/
def execOxl (d : BitVec 3) (rs : BitVec 5) (s : State) : Res :=
  runBody s (scalarOp [rs] none fun st vs => .ok ((st.adv 4).updMe fun x => x.setE d (vs.getD 0 0), 0, false))

/-- OXM: e[d] := e[s] (R167). -/
def execOxm (d rs : BitVec 3) (s : State) : Res :=
  runBody s fun st => .ok ((st.adv 4).updMe fun x => x.setE d (st.e rs))

/-- OXR: WriteG(d, e[s]) (R167). -/
def execOxr (d : BitVec 5) (rs : BitVec 3) (s : State) : Res :=
  runBody s (scalarOp [] (some d) fun st _ => .ok (st.adv 4, st.e rs, false))

/-- C.MV: ADD d, s, g0 (R117). -/
def execCMv (d rs : BitVec 5) (s : State) : Res :=
  runBody s (aluRR 2 d rs 0 (fun a b => a + b))

/-- C.ADD: ADD d, d, s (R117). -/
def execCAdd (d rs : BitVec 5) (s : State) : Res :=
  runBody s (aluRR 2 d d rs (fun a b => a + b))

/-- C.ADDI: ADDI d, d, imm6 (R117). -/
def execCAddi (d : BitVec 5) (imm : BitVec 6) (s : State) : Res :=
  runBody s (aluR 2 d d (fun a => a + simm imm))

/-- C.BEQZ: BEQ d, g0 (R117). -/
def execCBeqz (d : BitVec 5) (o : BitVec 6) (s : State) : Res :=
  runBody s (branch 2 d 0 (simm o <<< 1) fun a b => a == b)

/-- C.BNEZ: BNE d, g0 (R117). -/
def execCBnez (d : BitVec 5) (o : BitVec 6) (s : State) : Res :=
  runBody s (branch 2 d 0 (simm o <<< 1) fun a b => a != b)

/-- C.J: JAL g0 (R117). -/
def execCJ (o : BitVec 11) (s : State) : Res :=
  runBody s (jumpLink 2 0 fun pc => pc + simm o <<< 1)

/-- C.LDHI: LDHI with the sign-extended imm6 (R117). -/
def execCLdhi (d : BitVec 5) (imm : BitVec 6) (s : State) : Res :=
  runBody s (upper 2 d fun _ => simm imm <<< 12)

/-- C.NOP: ADD g0, g0, g0 (R117). -/
def execCNop (s : State) : Res :=
  runBody s (aluRR 2 0 0 0 (fun a b => a + b))

/-- A hint changes no architectural state (R124). -/
def execHint (_imm : BitVec 16) (_j : BitVec 10) (s : State) : Res := runBody s fun st => .ok (st.adv 4)

/-- NOP: the 32-bit no-op (R124). -/
def execNop (s : State) : Res := runBody s fun st => .ok (st.adv 4)

end Sys2Proof.Machine
end

