-- ==== Sys2Proof/Machine/Server.lean ====
section
/-!
DEFINITION. The memory server at an edge station (10_channels.md R354-R359). A request is performed in one step, at the
homes of all its pages (DESIGN CHOICE: notes/assumptions/17.md).
-/
namespace Sys2Proof.Machine

/-- A request's header (R355). -/
structure SrvReq where
  op : Nat
  ord : Nat
  len : Nat
  tag : Nat
  addr : Word
  res : Bool
  deriving DecidableEq, Repr

/-- Token `j` of the request at the head, where it has arrived: taken already, or in the channel. -/
def ServerPair.token (p : ServerPair) (j : Nat) : Option (Word × Bool) :=
  if j < p.got.length then p.got[j]? else mapFind p.toks (p.nextIn + (j - p.got.length))

/-- The header of the request at the head, where its four tokens have arrived. -/
def ServerPair.header (p : ServerPair) : Option SrvReq :=
  match p.token 0, p.token 1, p.token 2, p.token 3 with
  | some a, some b, some c, some d =>
    some { op := bits a.1 7 0, ord := bits a.1 15 8, len := bits a.1 31 16, tag := bits a.1 63 32, addr := b.1,
           res := c.1 != 0 || d.1 != 0 }
  | _, _, _, _ => none

/-- A malformed header (R358). -/
def SrvReq.malformed (r : SrvReq) : Bool :=
  r.op == 0 || decide (3 < r.op) || decide (1 < r.ord) || r.len == 0 || decide (4096 < r.len) || bits r.addr 63 57 != 0x40 ||
    r.res

/-- Tokens of a request: the header, and a WRITE's data. -/
def SrvReq.tokens (r : SrvReq) : Nat := if r.op = 2 then 4 + ceilDiv r.len 8 else 4

/-- The data tokens of a WRITE, where all have arrived. -/
def ServerPair.data (p : ServerPair) (r : SrvReq) : Option (List (Word × Bool)) :=
  let l := (List.range (r.tokens - 4)).map fun j => p.token (4 + j)
  if l.all Option.isSome then some (l.filterMap id) else none

/-- Requests a station is serving: those of which it has taken tokens and those whose replies have not gone out whole (R359). -/
def EdgeSt.serving (x : EdgeSt) : Nat := x.pairs.foldl (fun n p => n + p.out.length + if p.got = [] then 0 else 1) 0

/-- A byte range by far page. -/
def farPieces (va n : Nat) : List (Nat × Nat) :=
  let k := 65536 - va % 65536
  if n ≤ k then [(va, n)] else [(va, k), (va + k, n - k)]

/-- The first page of a request that fails R268: status and far address. -/
def State.srvCheck (s : State) (p : ServerPair) (r : SrvReq) (va : Nat) : Option (Nat × Nat) :=
  (farPieces va r.len).findSome? fun q =>
    match s.farCheck p.tnt p.pid q.1 (r.op == 1) (r.op != 1) with
    | .error st => some (st, q.1)
    | .ok _ => none

/-- The pair with `k` tokens taken from its request channel, as those of the request at its head. -/
def ServerPair.take (p : ServerPair) (k : Nat) (got : List (Word × Bool)) : ServerPair :=
  { p with toks := p.toks.filter (fun x => p.nextIn + k ≤ x.1), nextIn := p.nextIn + k, returned := p.returned + k, got := got }

/-- A pair whose tokens have been taken, their credits returned (R329). -/
def State.srvTaken (s : State) (n i : Nat) (p : ServerPair) : State :=
  (s.setPair n i p).sendControl ⟨.edge, n⟩ p.reqPeer 0 p.tnt 0x01 p.chan (.chan p.netid p.chan) (toBytes 8 p.returned)
    p.pid p.netid

/-- The `k` tokens of a request consumed, those of them not taken before with their credits returned. -/
def State.srvConsume (s : State) (n i : Nat) (p : ServerPair) (k : Nat) : State × ServerPair :=
  let p1 := { p.take (k - p.got.length) [] with denied := [] }
  (s.srvTaken n i p1, p1)

/-- What has arrived of a request of `k` tokens taken, so that its channel has room for the rest (R329, R357). -/
def State.srvTake (s : State) (n i : Nat) (p : ServerPair) (k : Nat) : State :=
  let new := ((List.range (k - p.got.length)).map fun j => p.token (p.got.length + j)).takeWhile Option.isSome |>.filterMap id
  if new = [] then s else s.srvTaken n i (p.take new.length (p.got ++ new))

/-- A reply queued behind the earlier ones and sent as credits allow. -/
def State.srvReply (s : State) (n i : Nat) (p : ServerPair) (r : SrvReq) (status fa : Nat) (data : List (Word × Bool)) :
    State :=
  let hdr := (replyWords r.tag status r.len fa []).map fun w => (w, false)
  (s.setPair n i { p with out := p.out ++ [hdr ++ data] }).serverFlush n i

/-- A WRITE's bytes: unpoisoned runs together, each poisoned token by itself, which clears no granule (08_memories.md
R265). -/
def State.srvStore (s : State) (p : ServerPair) (va len : Nat) (toks : List (Word × Bool)) : State :=
  ((tokenRuns toks).foldl (fun (a : State × Nat) run =>
    let bs := (ofWords run.1).take (len - a.2)
    (a.1.farWriteCut p.tnt p.pid (va + a.2) bs false, a.2 + bs.length)) (s, 0)).1

/-- A READ's data tokens, each with the poison of its own bytes. An uncorrectable error has ended the process before
(`srvSdc`); where the process is gone already, the token is a poisoned zero. -/
def State.srvLoad (s : State) (p : ServerPair) (va len : Nat) : State × List (Word × Bool) :=
  (List.range (ceilDiv len 8)).foldl (fun (a : State × List (Word × Bool)) j =>
    match a.1.farReadCut p.tnt p.pid (va + 8 * j) (min 8 (len - 8 * j)) with
    | .ok (s1, _, bs, psn) => (s1, a.2 ++ [(BitVec.ofNat 64 (ofBytes bs), psn)])
    | .error _ => (a.1, a.2 ++ [(0, true)])) (s, [])

/-- EVAL of the SDC that performing a request finds (08_memories.md R266). -/
def State.srvSdc (s : State) (p : ServerPair) (r : SrvReq) (va : Nat) : Option Word :=
  (farPieces va r.len).findSome? fun q => match s.walk p.tnt p.pid q.1 with
    | .leaf l => s.targetSdc (l.target q.1) q.2
    | _ => none

/-- Whether a page of a request is frozen for its migration: the home holds the request back (09_memory_ordering.md
R321). -/
def State.srvFrozen (s : State) (p : ServerPair) (r : SrvReq) (va : Nat) : Bool :=
  (farPieces va r.len).any fun q => match (s.migOf p.tnt p.pid q.1).bind (s.mgr.migs[·]?) with
    | some g => g.state == .frozen
    | none => false

/-- A page of a request that is missing and that the host is to be asked for (01_machine.md R56 bit 0). -/
def State.srvMiss (s : State) (p : ServerPair) (r : SrvReq) (va : Nat) : Option Nat :=
  if bit (s.assistBits p.tnt) 0 then
    (farPieces va r.len).findSome? fun q => match s.walk p.tnt p.pid q.1 with
      | .leaf _ => none
      | _ => if p.denied.contains (q.1 / 65536) then none else some q.1
  else none

/-- The process a pair serves, for a fault its request finds. -/
def State.srvProc (s : State) (p : ServerPair) : Option Proc :=
  s.mgr.procs.find? fun x => x.netid == p.netid && x.pid == p.pid

/-- A well-formed request whose tokens have arrived, performed and answered. -/
def State.srvPerform (s : State) (n i : Nat) (p : ServerPair) (r : SrvReq) (toks : List (Word × Bool)) : State :=
  let va := r.addr.toNat % 2 ^ 57
  if s.srvFrozen p r va then s
  else
    match s.srvMiss p r va with
    | some q =>
      let s0 := (s.setPair n i { p with asking := true }).noteMalformed ⟨.edge, n⟩ p.tnt p.pid q (s.walk p.tnt p.pid q)
      s0.askHost 0 p.tnt p.netid
        (toBytes 2 p.pid ++ toBytes 6 (if r.op = 1 then 0 else 1) ++ toBytes 8 q)
        (.server n p.netid p.chan q p.pid)
    | none =>
      let zeros := if r.op = 1 then List.replicate (ceilDiv r.len 8) ((0 : Word), false) else []
      match s.srvCheck p r va with
      | some (st, fa) =>
        let s0 := s.noteMalformed ⟨.edge, n⟩ p.tnt p.pid fa (s.walk p.tnt p.pid fa)
        let (s1, p1) := s0.srvConsume n i p r.tokens
        s1.srvReply n i p1 r st (2 ^ 63 + fa) zeros
      | none =>
        let (s1, p1) := s.srvConsume n i p r.tokens
        match s.srvSdc p r va, s.srvProc p with
        | some v, some x => s1.terminal x.tile (Fin.ofNat 8 x.slot) cSDC v
        | _, _ =>
          if r.op = 1 then
            let (s2, data) := s1.srvLoad p va r.len
            s2.srvReply n i p1 r (if data.any (·.2) then stPOISON else 0) 0 data
          else if r.op = 2 then (s1.srvStore p va r.len toks).srvReply n i p1 r 0 0 []
          else (s1.farWriteCut p.tnt p.pid va (List.replicate r.len 0) false).srvReply n i p1 r 0 0 []

/-- A malformed request: BAD_REQUEST, and the pair ends (R358). -/
def State.srvBad (s : State) (n i : Nat) (p : ServerPair) (r : SrvReq) : State :=
  let (s1, p1) := s.srvConsume n i p 4
  let zeros := if r.op = 1 then List.replicate (ceilDiv r.len 8) ((0 : Word), false) else []
  let s2 := s1.sendControl ⟨.edge, n⟩ p.reqPeer 0 p.tnt 0x04 p.chan (.chan p.netid p.chan) (toBytes 8 0) p.pid p.netid
  s2.srvReply n i { p1 with ended := true, toks := [] } r 5 0 zeros

/-- The request at the head of pair `i` of a station, of the operation named; `bad` marks the row that takes a header as it
arrives, and a malformed one. The server takes what has arrived of a request, and serves at most 64 at once (R359). -/
def State.serve (s : State) (ep : Ep) (i op : Nat) (bad : Bool) : State :=
  if ep.kind = .edge then
    match (s.edge ep.num).pairs[i]? with
    | some p =>
      if p.ended ∨ p.asking = true ∨ p.got = [] ∧ 64 ≤ (s.edge ep.num).serving then s
      else match p.header with
      | some r =>
        if r.malformed then (if bad then s.srvBad ep.num i p r else s)
        else if r.op = op then
          match p.data r with
          | some toks => s.srvPerform ep.num i p r toks
          | none => s.srvTake ep.num i p r.tokens
        else s
      | none => if bad then s.srvTake ep.num i p 4 else s
    | none => s
  else s

/-- SERVER_READ (R357), and a malformed request of any operation (R358). -/
def execServerRead (ep : Ep) (i : Nat) (s : State) : Res := runEvent s fun st => st.serve ep i 1 true

/-- SERVER_WRITE (R357). -/
def execServerWrite (ep : Ep) (i : Nat) (s : State) : Res := runEvent s fun st => st.serve ep i 2 false

/-- SERVER_ZERO (R357). -/
def execServerZero (ep : Ep) (i : Nat) (s : State) : Res := runEvent s fun st => st.serve ep i 3 false

end Sys2Proof.Machine
end

