-- ==== Sys2Proof/Machine/VFloat.lean ====
section
/-!
DEFINITION. Meanings of the vector floating-point instructions (05_vector_registers.md R189, R190).
-/
namespace Sys2Proof.Machine

/-- VFADD: a + b (R189). -/
def execVfadd (b : BitVec 5) (x y : BitVec 1) (m : BitVec 3) (e : BitVec 1) (d a : BitVec 5) (s : State) : Res :=
  runBody s (vfp (vEnc b x y m e 0 0x0E d a) none m e d [a, b]
    (fun fm md org xs => fpAdd fm md org false (xs.getD 0 0) (xs.getD 1 0)))

/-- VFSUB: a - b (R189). -/
def execVfsub (b : BitVec 5) (x y : BitVec 1) (m : BitVec 3) (e : BitVec 1) (d a : BitVec 5) (s : State) : Res :=
  runBody s (vfp (vEnc b x y m e 1 0x0E d a) none m e d [a, b]
    (fun fm md org xs => fpAdd fm md org true (xs.getD 0 0) (xs.getD 1 0)))

/-- VFMUL: a * b (R189). -/
def execVfmul (b : BitVec 5) (x y : BitVec 1) (m : BitVec 3) (e : BitVec 1) (d a : BitVec 5) (s : State) : Res :=
  runBody s (vfp (vEnc b x y m e 2 0x0E d a) none m e d [a, b]
    (fun fm md org xs => fpMul fm md org (xs.getD 0 0) (xs.getD 1 0)))

/-- VFMA: a * b + c, rounded once (02_number_formats.md R103) (R189). -/
def execVfma (b : BitVec 5) (x y : BitVec 1) (m : BitVec 3) (e : BitVec 1) (d a : BitVec 5) (s : State) : Res :=
  runBody s (vfp (vEnc b x y m e 3 0x0E d a) none m e d [a, b, d]
    (fun fm md org xs => fpFma fm md org false false (xs.getD 0 0) (xs.getD 1 0) (xs.getD 2 0)))

/-- VFMS: a * b - c (R189). -/
def execVfms (b : BitVec 5) (x y : BitVec 1) (m : BitVec 3) (e : BitVec 1) (d a : BitVec 5) (s : State) : Res :=
  runBody s (vfp (vEnc b x y m e 4 0x0E d a) none m e d [a, b, d]
    (fun fm md org xs => fpFma fm md org false true (xs.getD 0 0) (xs.getD 1 0) (xs.getD 2 0)))

/-- VFNMA: -(a * b) + c (R189). -/
def execVfnma (b : BitVec 5) (x y : BitVec 1) (m : BitVec 3) (e : BitVec 1) (d a : BitVec 5) (s : State) : Res :=
  runBody s (vfp (vEnc b x y m e 5 0x0E d a) none m e d [a, b, d]
    (fun fm md org xs => fpFma fm md org true false (xs.getD 0 0) (xs.getD 1 0) (xs.getD 2 0)))

/-- VFDIV: a / b (R189). -/
def execVfdiv (b : BitVec 5) (x y : BitVec 1) (m : BitVec 3) (e : BitVec 1) (d a : BitVec 5) (s : State) : Res :=
  runBody s (vfp (vEnc b x y m e 6 0x0E d a) none m e d [a, b]
    (fun fm md org xs => fpDiv fm md org (xs.getD 0 0) (xs.getD 1 0)))

/-- VFMIN: lesser, -0 below +0 (R189). -/
def execVfmin (b : BitVec 5) (x y : BitVec 1) (m : BitVec 3) (e : BitVec 1) (d a : BitVec 5) (s : State) : Res :=
  runBody s (vfp (vEnc b x y m e 8 0x0E d a) none m e d [a, b]
    (fun fm _ _ xs => fpMinMax fm false (xs.getD 0 0) (xs.getD 1 0)))

/-- VFMAX: greater, -0 below +0 (R189). -/
def execVfmax (b : BitVec 5) (x y : BitVec 1) (m : BitVec 3) (e : BitVec 1) (d a : BitVec 5) (s : State) : Res :=
  runBody s (vfp (vEnc b x y m e 9 0x0E d a) none m e d [a, b]
    (fun fm _ _ xs => fpMinMax fm true (xs.getD 0 0) (xs.getD 1 0)))

/-- VFSQRT: square root (R189). -/
def execVfsqrt (x : BitVec 1) (m : BitVec 3) (e : BitVec 1) (d a : BitVec 5) (s : State) : Res :=
  runBody s (vfp (vEnc 0 x 0 m e 7 0x0E d a) none m e d [a]
    (fun fm md org xs => fpSqrt fm md org (xs.getD 0 0)))

/-- VFABS: sign bit cleared (R190) (R189). -/
def execVfabs (x : BitVec 1) (m : BitVec 3) (e : BitVec 1) (d a : BitVec 5) (s : State) : Res :=
  runBody s (vfp (vEnc 0 x 0 m e 10 0x0E d a) none m e d [a]
    (fun fm _ _ xs => (xs.getD 0 0 % signBit fm, 0)))

/-- VFNEG: sign bit inverted (R190) (R189). -/
def execVfneg (x : BitVec 1) (m : BitVec 3) (e : BitVec 1) (d a : BitVec 5) (s : State) : Res :=
  runBody s (vfp (vEnc 0 x 0 m e 11 0x0E d a) none m e d [a]
    (fun fm _ _ xs => (xs.getD 0 0 ^^^ signBit fm, 0)))

/-- VFADD with the rounding mode in funct5 [1:0] (R189). -/
def execVfaddStatic (b : BitVec 5) (x y : BitVec 1) (m : BitVec 3) (e : BitVec 1) (r : BitVec 2) (d a : BitVec 5) (s : State) : Res :=
  runBody s (vfp (vEnc b x y m e (16 + r.toNat) 0x0E d a) (some r.toNat) m e d [a, b]
    (fun fm md org xs => fpAdd fm md org false (xs.getD 0 0) (xs.getD 1 0)))

/-- VFSUB with the rounding mode in funct5 [1:0] (R189). -/
def execVfsubStatic (b : BitVec 5) (x y : BitVec 1) (m : BitVec 3) (e : BitVec 1) (r : BitVec 2) (d a : BitVec 5) (s : State) : Res :=
  runBody s (vfp (vEnc b x y m e (20 + r.toNat) 0x0E d a) (some r.toNat) m e d [a, b]
    (fun fm md org xs => fpAdd fm md org true (xs.getD 0 0) (xs.getD 1 0)))

/-- VFMUL with the rounding mode in funct5 [1:0] (R189). -/
def execVfmulStatic (b : BitVec 5) (x y : BitVec 1) (m : BitVec 3) (e : BitVec 1) (r : BitVec 2) (d a : BitVec 5) (s : State) : Res :=
  runBody s (vfp (vEnc b x y m e (24 + r.toNat) 0x0E d a) (some r.toNat) m e d [a, b]
    (fun fm md org xs => fpMul fm md org (xs.getD 0 0) (xs.getD 1 0)))

/-- VFMA with the rounding mode in funct5 [1:0] (R189). -/
def execVfmaStatic (b : BitVec 5) (x y : BitVec 1) (m : BitVec 3) (e : BitVec 1) (r : BitVec 2) (d a : BitVec 5) (s : State) : Res :=
  runBody s (vfp (vEnc b x y m e (28 + r.toNat) 0x0E d a) (some r.toNat) m e d [a, b, d]
    (fun fm md org xs => fpFma fm md org false false (xs.getD 0 0) (xs.getD 1 0) (xs.getD 2 0)))

end Sys2Proof.Machine
end

