-- ==== Sys2Proof/Machine/VInt.lean ====
section
/-!
DEFINITION. Meanings of the vector integer instructions (05_vector_registers.md R188) and of SETVL, SETVLI, SETVT (R185, R186).
-/
namespace Sys2Proof.Machine

/-- SETVL and SETVLI: VL granted for a request, also written to g d (R185); FMASK becomes all ones (R177). -/
def setvlBody (enc : Nat) (d : BitVec 5) (q : State → Word) : Body := vecBody enc (fun _ => true) false fun s =>
  let s1 := s.updVec fun c => c.setVl (q s)
  .ok (((s1.closeStrip s1.vec.vl.toNat).setG d (s1.vec.vl.setWidth 64)).longDone)

/-- SETVL (R185). -/
def execSetvl (d rs : BitVec 5) (s : State) : Res :=
  runBody s (setvlBody (iEnc 0 0 0x0C d rs) d fun st => st.g rs)

/-- SETVLI (R185). -/
def execSetvli (imm : BitVec 13) (d : BitVec 5) (s : State) : Res :=
  runBody s (setvlBody (iEnc 1 imm 0x0C d 0) d fun _ => imm.setWidth 64)

/-- SETVT (R186): it acts whatever VT.BAD holds. -/
def execSetvt (d rs : BitVec 5) (s : State) : Res :=
  runBody s (needVec (iEnc 2 0 0x0C d rs) fun st =>
    let s1 := st.updVec fun c => c.setVt (st.g rs)
    .ok ((s1.setG d (s1.vec.vl.setWidth 64)).longDone))

/-- VADD: a + b (R188). -/
def execVadd (b : BitVec 5) (x y : BitVec 1) (m : BitVec 3) (e : BitVec 1) (d a : BitVec 5) (s : State) : Res :=
  runBody s (vint (vEnc b x y m e 0 0x0D d a) b m e d a (fun _ _ _ p q => p + q))

/-- VSUB: a - b (R188). -/
def execVsub (b : BitVec 5) (x y : BitVec 1) (m : BitVec 3) (e : BitVec 1) (d a : BitVec 5) (s : State) : Res :=
  runBody s (vint (vEnc b x y m e 1 0x0D d a) b m e d a (fun _ _ _ p q => p - q))

/-- VMUL: low W bits of the product (R188). -/
def execVmul (b : BitVec 5) (x y : BitVec 1) (m : BitVec 3) (e : BitVec 1) (d a : BitVec 5) (s : State) : Res :=
  runBody s (vint (vEnc b x y m e 2 0x0D d a) b m e d a (fun _ _ _ p q => p * q))

/-- VMULH: bits [2W-1:W] of the exact product (R188). -/
def execVmulh (b : BitVec 5) (x y : BitVec 1) (m : BitVec 3) (e : BitVec 1) (d a : BitVec 5) (s : State) : Res :=
  runBody s (vint (vEnc b x y m e 3 0x0D d a) b m e d a (fun w _ _ p q => p * q / (2 ^ w : Nat)))

/-- VAND: a AND b (R188). -/
def execVand (b : BitVec 5) (x y : BitVec 1) (m : BitVec 3) (e : BitVec 1) (d a : BitVec 5) (s : State) : Res :=
  runBody s (vint (vEnc b x y m e 4 0x0D d a) b m e d a (fun _ u v _ _ => (u &&& v : Nat)))

/-- VOR: a OR b (R188). -/
def execVor (b : BitVec 5) (x y : BitVec 1) (m : BitVec 3) (e : BitVec 1) (d a : BitVec 5) (s : State) : Res :=
  runBody s (vint (vEnc b x y m e 5 0x0D d a) b m e d a (fun _ u v _ _ => (u ||| v : Nat)))

/-- VXOR: a XOR b (R188). -/
def execVxor (b : BitVec 5) (x y : BitVec 1) (m : BitVec 3) (e : BitVec 1) (d a : BitVec 5) (s : State) : Res :=
  runBody s (vint (vEnc b x y m e 6 0x0D d a) b m e d a (fun _ u v _ _ => (u ^^^ v : Nat)))

/-- VSLL: a * 2^(b mod W) (R188). -/
def execVsll (b : BitVec 5) (x y : BitVec 1) (m : BitVec 3) (e : BitVec 1) (d a : BitVec 5) (s : State) : Res :=
  runBody s (vint (vEnc b x y m e 7 0x0D d a) b m e d a (fun w u v _ _ => (u * 2 ^ (v % w) : Nat)))

/-- VSRL: logical shift right by b mod W (R188). -/
def execVsrl (b : BitVec 5) (x y : BitVec 1) (m : BitVec 3) (e : BitVec 1) (d a : BitVec 5) (s : State) : Res :=
  runBody s (vint (vEnc b x y m e 8 0x0D d a) b m e d a (fun w u v _ _ => (u / 2 ^ (v % w) : Nat)))

/-- VSRA: arithmetic shift right by b mod W (R188). -/
def execVsra (b : BitVec 5) (x y : BitVec 1) (m : BitVec 3) (e : BitVec 1) (d a : BitVec 5) (s : State) : Res :=
  runBody s (vint (vEnc b x y m e 9 0x0D d a) b m e d a (fun w _ v p _ => p / (2 ^ (v % w) : Nat)))

/-- VMIN: lesser (R188). -/
def execVmin (b : BitVec 5) (x y : BitVec 1) (m : BitVec 3) (e : BitVec 1) (d a : BitVec 5) (s : State) : Res :=
  runBody s (vint (vEnc b x y m e 10 0x0D d a) b m e d a (fun _ _ _ p q => if p < q then p else q))

/-- VMAX: greater (R188). -/
def execVmax (b : BitVec 5) (x y : BitVec 1) (m : BitVec 3) (e : BitVec 1) (d a : BitVec 5) (s : State) : Res :=
  runBody s (vint (vEnc b x y m e 11 0x0D d a) b m e d a (fun _ _ _ p q => if p < q then q else p))

/-- VMINU: lesser, read unsigned (R188). -/
def execVminu (b : BitVec 5) (x y : BitVec 1) (m : BitVec 3) (e : BitVec 1) (d a : BitVec 5) (s : State) : Res :=
  runBody s (vint (vEnc b x y m e 12 0x0D d a) b m e d a (fun _ u v _ _ => (min u v : Nat)))

/-- VMAXU: greater, read unsigned (R188). -/
def execVmaxu (b : BitVec 5) (x y : BitVec 1) (m : BitVec 3) (e : BitVec 1) (d a : BitVec 5) (s : State) : Res :=
  runBody s (vint (vEnc b x y m e 13 0x0D d a) b m e d a (fun _ u v _ _ => (max u v : Nat)))

/-- VABSD: absolute difference, low W bits (R188). -/
def execVabsd (b : BitVec 5) (x y : BitVec 1) (m : BitVec 3) (e : BitVec 1) (d a : BitVec 5) (s : State) : Res :=
  runBody s (vint (vEnc b x y m e 14 0x0D d a) b m e d a (fun _ _ _ p q => ((p - q).natAbs : Nat)))

/-- VSADD: a + b, saturating (R188). -/
def execVsadd (b : BitVec 5) (x y : BitVec 1) (m : BitVec 3) (e : BitVec 1) (d a : BitVec 5) (s : State) : Res :=
  runBody s (vsat (vEnc b x y m e 15 0x0D d a) b m e d a (fun p q => p + q))

/-- VSSUB: a - b, saturating (R188). -/
def execVssub (b : BitVec 5) (x y : BitVec 1) (m : BitVec 3) (e : BitVec 1) (d a : BitVec 5) (s : State) : Res :=
  runBody s (vsat (vEnc b x y m e 16 0x0D d a) b m e d a (fun p q => p - q))

end Sys2Proof.Machine
end

