-- ==== Sys2Proof/Machine/VMask.lean ====
section
/-!
DEFINITION. Meanings of the vector compares and the mask instructions (05_vector_registers.md R191-R193).
-/
namespace Sys2Proof.Machine

/-- VCMP.eq (R191). -/
def execVcmpEq (b : BitVec 5) (x y : BitVec 1) (m : BitVec 3) (e : BitVec 1) (d : BitVec 3) (a : BitVec 5) (s : State) : Res :=
  runBody s (vcompare (vEnc b x y m e 0 0x0F (d.setWidth 5) a) isInt b m e d a (cmpS fun p q => p == q))

/-- VCMP.ne (R191). -/
def execVcmpNe (b : BitVec 5) (x y : BitVec 1) (m : BitVec 3) (e : BitVec 1) (d : BitVec 3) (a : BitVec 5) (s : State) : Res :=
  runBody s (vcompare (vEnc b x y m e 1 0x0F (d.setWidth 5) a) isInt b m e d a (cmpS fun p q => p != q))

/-- VCMP.lt (R191). -/
def execVcmpLt (b : BitVec 5) (x y : BitVec 1) (m : BitVec 3) (e : BitVec 1) (d : BitVec 3) (a : BitVec 5) (s : State) : Res :=
  runBody s (vcompare (vEnc b x y m e 2 0x0F (d.setWidth 5) a) isInt b m e d a (cmpS fun p q => decide (p < q)))

/-- VCMP.le (R191). -/
def execVcmpLe (b : BitVec 5) (x y : BitVec 1) (m : BitVec 3) (e : BitVec 1) (d : BitVec 3) (a : BitVec 5) (s : State) : Res :=
  runBody s (vcompare (vEnc b x y m e 3 0x0F (d.setWidth 5) a) isInt b m e d a (cmpS fun p q => decide (p ≤ q)))

/-- VCMP.gt (R191). -/
def execVcmpGt (b : BitVec 5) (x y : BitVec 1) (m : BitVec 3) (e : BitVec 1) (d : BitVec 3) (a : BitVec 5) (s : State) : Res :=
  runBody s (vcompare (vEnc b x y m e 4 0x0F (d.setWidth 5) a) isInt b m e d a (cmpS fun p q => decide (q < p)))

/-- VCMP.ge (R191). -/
def execVcmpGe (b : BitVec 5) (x y : BitVec 1) (m : BitVec 3) (e : BitVec 1) (d : BitVec 3) (a : BitVec 5) (s : State) : Res :=
  runBody s (vcompare (vEnc b x y m e 5 0x0F (d.setWidth 5) a) isInt b m e d a (cmpS fun p q => decide (q ≤ p)))

/-- VCMP.ltu (R191). -/
def execVcmpLtu (b : BitVec 5) (x y : BitVec 1) (m : BitVec 3) (e : BitVec 1) (d : BitVec 3) (a : BitVec 5) (s : State) : Res :=
  runBody s (vcompare (vEnc b x y m e 6 0x0F (d.setWidth 5) a) isInt b m e d a (cmpU fun p q => decide (p < q)))

/-- VCMP.leu (R191). -/
def execVcmpLeu (b : BitVec 5) (x y : BitVec 1) (m : BitVec 3) (e : BitVec 1) (d : BitVec 3) (a : BitVec 5) (s : State) : Res :=
  runBody s (vcompare (vEnc b x y m e 7 0x0F (d.setWidth 5) a) isInt b m e d a (cmpU fun p q => decide (p ≤ q)))

/-- VCMP.gtu (R191). -/
def execVcmpGtu (b : BitVec 5) (x y : BitVec 1) (m : BitVec 3) (e : BitVec 1) (d : BitVec 3) (a : BitVec 5) (s : State) : Res :=
  runBody s (vcompare (vEnc b x y m e 8 0x0F (d.setWidth 5) a) isInt b m e d a (cmpU fun p q => decide (q < p)))

/-- VCMP.geu (R191). -/
def execVcmpGeu (b : BitVec 5) (x y : BitVec 1) (m : BitVec 3) (e : BitVec 1) (d : BitVec 3) (a : BitVec 5) (s : State) : Res :=
  runBody s (vcompare (vEnc b x y m e 9 0x0F (d.setWidth 5) a) isInt b m e d a (cmpU fun p q => decide (q ≤ p)))

/-- VFCMP.eq (R191). -/
def execVfcmpEq (b : BitVec 5) (x y : BitVec 1) (m : BitVec 3) (e : BitVec 1) (d : BitVec 3) (a : BitVec 5) (s : State) : Res :=
  runBody s (vcompare (vEnc b x y m e 10 0x0F (d.setWidth 5) a) isFp b m e d a (cmpF (fun o => o == 0) false false))

/-- VFCMP.ne (R191). -/
def execVfcmpNe (b : BitVec 5) (x y : BitVec 1) (m : BitVec 3) (e : BitVec 1) (d : BitVec 3) (a : BitVec 5) (s : State) : Res :=
  runBody s (vcompare (vEnc b x y m e 11 0x0F (d.setWidth 5) a) isFp b m e d a (cmpF (fun o => o != 0) true false))

/-- VFCMP.lt (R191). -/
def execVfcmpLt (b : BitVec 5) (x y : BitVec 1) (m : BitVec 3) (e : BitVec 1) (d : BitVec 3) (a : BitVec 5) (s : State) : Res :=
  runBody s (vcompare (vEnc b x y m e 12 0x0F (d.setWidth 5) a) isFp b m e d a (cmpF (fun o => decide (o < 0)) false true))

/-- VFCMP.le (R191). -/
def execVfcmpLe (b : BitVec 5) (x y : BitVec 1) (m : BitVec 3) (e : BitVec 1) (d : BitVec 3) (a : BitVec 5) (s : State) : Res :=
  runBody s (vcompare (vEnc b x y m e 13 0x0F (d.setWidth 5) a) isFp b m e d a (cmpF (fun o => decide (o ≤ 0)) false true))

/-- VFCMP.gt (R191). -/
def execVfcmpGt (b : BitVec 5) (x y : BitVec 1) (m : BitVec 3) (e : BitVec 1) (d : BitVec 3) (a : BitVec 5) (s : State) : Res :=
  runBody s (vcompare (vEnc b x y m e 14 0x0F (d.setWidth 5) a) isFp b m e d a (cmpF (fun o => decide (0 < o)) false true))

/-- VFCMP.ge (R191). -/
def execVfcmpGe (b : BitVec 5) (x y : BitVec 1) (m : BitVec 3) (e : BitVec 1) (d : BitVec 3) (a : BitVec 5) (s : State) : Res :=
  runBody s (vcompare (vEnc b x y m e 15 0x0F (d.setWidth 5) a) isFp b m e d a (cmpF (fun o => decide (0 ≤ o)) false true))

/-- VFCMP.un (R191). -/
def execVfcmpUn (b : BitVec 5) (x y : BitVec 1) (m : BitVec 3) (e : BitVec 1) (d : BitVec 3) (a : BitVec 5) (s : State) : Res :=
  runBody s (vcompare (vEnc b x y m e 16 0x0F (d.setWidth 5) a) isFp b m e d a (cmpF (fun _ => false) true false))

/-- MAND on the bits below VL (R192). -/
def execMand (b d a : BitVec 3) (s : State) : Res :=
  runBody s (maskOp (vEnc (b.setWidth 5) 0 0 0 0 17 0x0F (d.setWidth 5) (a.setWidth 5)) d
    fun c => c.mask a &&& c.mask b)

/-- MOR on the bits below VL (R192). -/
def execMor (b d a : BitVec 3) (s : State) : Res :=
  runBody s (maskOp (vEnc (b.setWidth 5) 0 0 0 0 18 0x0F (d.setWidth 5) (a.setWidth 5)) d
    fun c => c.mask a ||| c.mask b)

/-- MXOR on the bits below VL (R192). -/
def execMxor (b d a : BitVec 3) (s : State) : Res :=
  runBody s (maskOp (vEnc (b.setWidth 5) 0 0 0 0 19 0x0F (d.setWidth 5) (a.setWidth 5)) d
    fun c => c.mask a ^^^ c.mask b)

/-- MANDN on the bits below VL (R192). -/
def execMandn (b d a : BitVec 3) (s : State) : Res :=
  runBody s (maskOp (vEnc (b.setWidth 5) 0 0 0 0 20 0x0F (d.setWidth 5) (a.setWidth 5)) d
    fun c => c.mask a &&& ~~~c.mask b)

/-- MNOT on the bits below VL (R192). -/
def execMnot (d a : BitVec 3) (s : State) : Res :=
  runBody s (maskOp (vEnc 0 0 0 0 0 0x15 0x0F (d.setWidth 5) (a.setWidth 5)) d fun c => ~~~c.mask a)

/-- MSETN: the first g s bits of the mask set, the others clear, whatever VL holds (R192). -/
def execMsetn (d : BitVec 3) (rs : BitVec 5) (s : State) : Res :=
  runBody s (vecBody (vEnc 0 0 0 0 0 0x16 0x0F (d.setWidth 5) rs) (fun _ => true) false fun st =>
    let v := BitVec.ofNat 4096 (2 ^ min 4096 (st.g rs).toNat - 1)
    .ok ((st.updVec fun c => { c with m := c.m.set d.toFin v }).adv 4))

/-- MPOPC: the active set bits counted (R192). -/
def execMpopc (m : BitVec 3) (e : BitVec 1) (d : BitVec 5) (a : BitVec 3) (s : State) : Res :=
  runBody s (vecBody (vEnc 0 0 0 m e 0x17 0x0F d (a.setWidth 5)) (fun _ => true) false fun st =>
    let v := st.vec.active m e &&& (st.vec.mask a).toNat
    .ok ((st.setG d (BitVec.ofNat 64 (popCount 4096 v))).vecDone))

/-- MFIRST: the least active set bit, or all ones (R192). -/
def execMfirst (m : BitVec 3) (e : BitVec 1) (d : BitVec 5) (a : BitVec 3) (s : State) : Res :=
  runBody s (vecBody (vEnc 0 0 0 m e 0x18 0x0F d (a.setWidth 5)) (fun _ => true) false fun st =>
    let v := st.vec.active m e &&& (st.vec.mask a).toNat
    let r := match (List.range 4096).find? fun i => v.testBit i with
      | some i => BitVec.ofNat 64 i
      | none => BitVec.allOnes 64
    .ok ((st.setG d r).vecDone))

/-- MMOVE: a whole mask register, XM or FMASK copied; FMASK keeps the value written, or is unchanged (R177, R193). -/
def execMmove (d a : BitVec 5) (s : State) : Res :=
  let enc := vEnc 0 0 0 0 0 0x19 0x0F d a
  runBody s (vecBody enc (fun _ => true) false fun st =>
    match (st.vec.wide a).bind fun v => st.vec.setWide d v with
    | some c => .ok ((st.updVec fun _ => c).adv 4)
    | none => .error (.trap cILLEGAL (BitVec.ofNat 64 enc)))

end Sys2Proof.Machine
end

