-- ==== Sys2Proof/Machine/VMove.lean ====
section
/-!
DEFINITION. Meanings of the permutes, moves, reductions and conversions (05_vector_registers.md R194-R197).
-/
namespace Sys2Proof.Machine

/-- VSEL: each element below VL with FMASK set comes from vs1 where the mask bit is set, from vs2 elsewhere (R194). -/
def execVsel (b : BitVec 5) (x y : BitVec 1) (m : BitVec 3) (d a : BitVec 5) (s : State) : Res :=
  runBody s (vecBody (vEnc b x y m 1 0 0x10 d a) nonBfp true fun st =>
    let c := st.vec
    let w := fmtWidth c.fmt
    let out := mapActive c.vl.toNat (c.active m 0) fun i =>
      let r := if (c.mask m).getLsbD i then a else b
      { val := elemAt w (c.reg r) i, psn := elemPoison (c.poisReg r) w i }
    .ok (st.putVec d w c.vlMax out).vecDone)

/-- VMV: active elements copied; a BFP block, with its exponent, only when it is wholly active (R173, R194). -/
def execVmv (x : BitVec 1) (m : BitVec 3) (e : BitVec 1) (d a : BitVec 5) (s : State) : Res :=
  runBody s (vecBody (vEnc 0 x 0 m e 1 0x10 d a) (fun _ => true) true fun st =>
    let c := st.vec
    let w := fmtWidth c.fmt
    let el := fun i => ({ val := elemAt w (c.reg a) i, psn := elemPoison (c.poisReg a) w i } : ElemOut)
    if isBfp c.fmt then
      .ok (st.putBlocks d (c.vl.toNat / c.blk) c.vl.toNat (c.active m e) fun j =>
        (c.side a j, (List.range c.blk).map fun i => el (j * c.blk + i))).vecDone
    else .ok (st.putVec d w c.vlMax (mapActive c.vl.toNat (c.active m e) el)).vecDone)

/-- VMVX: g s to the active elements (R194). -/
def execVmvx (m : BitVec 3) (e : BitVec 1) (d rs : BitVec 5) (s : State) : Res :=
  runBody s (vecBody (vEnc 0 0 0 m e 2 0x10 d rs) nonBfp true fun st =>
    let c := st.vec
    let v := (st.g rs).toNat
    .ok (st.putVec d (fmtWidth c.fmt) c.vlMax (mapActive c.vl.toNat (c.active m e) fun _ => { val := v })).vecDone)

/-- VEXT: the element g t names to g d, extended as its format says; 0 beyond VLMAX (R194). -/
def execVext (t : BitVec 5) (x : BitVec 1) (d a : BitVec 5) (s : State) : Res :=
  runBody s (vecBody (vEnc t x 0 0 0 3 0x10 d a) nonBfp false fun st =>
    let c := st.vec
    let w := fmtWidth c.fmt
    let k := (st.g t).toNat
    if k < c.vlMax then
      let v := elemAt w (c.reg a) k
      let r := if isInt c.fmt then word (intVal c.fmt v) else BitVec.ofNat 64 v
      .ok (((st.setG d r).notePoison (elemPoison (c.poisReg a) w k)).vecDone)
    else .ok ((st.setG d 0).vecDone))

/-- VSLIDEUP (R194). -/
def execVslideup (t : BitVec 5) (x : BitVec 1) (m : BitVec 3) (e : BitVec 1) (d a : BitVec 5) (s : State) : Res :=
  runBody s (crossElem (vEnc t x 0 m e 4 0x10 d a) m e d a fun st act =>
    let off := (st.g t).toNat
    (List.range st.vec.vl.toNat).map fun i => if act.testBit i ∧ off ≤ i then some (some (i - off)) else none)

/-- VSLIDEDN: 0 from beyond VLMAX (R194). -/
def execVslidedn (t : BitVec 5) (x : BitVec 1) (m : BitVec 3) (e : BitVec 1) (d a : BitVec 5) (s : State) : Res :=
  runBody s (crossElem (vEnc t x 0 m e 5 0x10 d a) m e d a fun st act =>
    let off := (st.g t).toNat
    (List.range st.vec.vl.toNat).map fun i =>
      if act.testBit i then some (if i + off < st.vec.vlMax then some (i + off) else none) else none)

/-- VGATH: indices read unsigned; 0 from beyond VLMAX (R194). Any poisoned group read, of indices or elements, poisons
every group written (R182). -/
def execVgath (b : BitVec 5) (x y : BitVec 1) (m : BitVec 3) (e : BitVec 1) (d a : BitVec 5) (s : State) : Res :=
  runBody s (vecBody (vEnc b x y m e 6 0x10 d a) nonBfp true fun st =>
    let c := st.vec
    let w := fmtWidth c.fmt
    let act := c.active m e
    let idx := fun i => elemAt w (c.reg b) i
    let psn := (List.range c.vl.toNat).any fun i =>
      act.testBit i && (elemPoison (c.poisReg b) w i || (decide (idx i < c.vlMax) && elemPoison (c.poisReg a) w (idx i)))
    let out := mapActive c.vl.toNat act fun i =>
      { val := if idx i < c.vlMax then elemAt w (c.reg a) (idx i) else 0, psn := psn }
    .ok (st.putVec d w c.vlMax out).vecDone)

/-- VCOMP: the active elements packed from element 0 (R194). -/
def execVcomp (x : BitVec 1) (m : BitVec 3) (e : BitVec 1) (d a : BitVec 5) (s : State) : Res :=
  runBody s (crossElem (vEnc 0 x 0 m e 7 0x10 d a) m e d a fun st act =>
    ((List.range st.vec.vl.toNat).filter fun i => act.testBit i).map fun i => some (some i))

/-- VEXP: elements from 0 spread over the active positions (R194). -/
def execVexp (x : BitVec 1) (m : BitVec 3) (e : BitVec 1) (d a : BitVec 5) (s : State) : Res :=
  runBody s (crossElem (vEnc 0 x 0 m e 8 0x10 d a) m e d a fun st act =>
    (ranks st.vec.vl.toNat act).map fun o => o.map some)

/-- VIOTA: to every element below VL the count of active elements before it (R194). -/
def execViota (m : BitVec 3) (e : BitVec 1) (d : BitVec 5) (s : State) : Res :=
  runBody s (vecBody (vEnc 0 0 0 m e 9 0x10 d 0) nonBfp true fun st =>
    let c := st.vec
    let act := c.active m e
    let out := (List.range c.vl.toNat).map fun i => some ({ val := countOnes i act } : ElemOut)
    .ok (st.putVec d (fmtWidth c.fmt) c.vlMax out).vecDone)

/-- VREDSUM: the wrapping sum of the active elements to element 0 (R195). -/
def execVredsum (x : BitVec 1) (m : BitVec 3) (e : BitVec 1) (d a : BitVec 5) (s : State) : Res :=
  runBody s (vreduce (vEnc 0 x 0 m e 10 0x10 d a) isInt m e d a (redInt (fun p q => p + q) fun _ => 0))

/-- VREDMIN: the least value of the active elements to element 0 (R195). -/
def execVredmin (x : BitVec 1) (m : BitVec 3) (e : BitVec 1) (d a : BitVec 5) (s : State) : Res :=
  runBody s (vreduce (vEnc 0 x 0 m e 11 0x10 d a) isInt m e d a (redInt (fun p q => if p < q then p else q) intHi))

/-- VREDMAX: the greatest value of the active elements to element 0 (R195). -/
def execVredmax (x : BitVec 1) (m : BitVec 3) (e : BitVec 1) (d a : BitVec 5) (s : State) : Res :=
  runBody s (vreduce (vEnc 0 x 0 m e 12 0x10 d a) isInt m e d a (redInt (fun p q => if p < q then q else p) intLo))

/-- VFREDSUM: the sum over the canonical tree, each node rounded of the active elements to element 0 (R195). -/
def execVfredsum (x : BitVec 1) (m : BitVec 3) (e : BitVec 1) (d a : BitVec 5) (s : State) : Res :=
  runBody s (vreduce (vEnc 0 x 0 m e 13 0x10 d a) isFp m e d a (redFp))

/-- VCVT with the rounding mode of VT.RM (R196). -/
def execVcvt (g : BitVec 5) (x : BitVec 1) (m : BitVec 3) (e : BitVec 1) (d a : BitVec 5) (s : State) : Res :=
  runBody s (vconvert (vEnc g x 0 m e 0 0x11 d a) g m e none d a)

/-- VCVT with the rounding mode in funct5 [1:0] (R196). -/
def execVcvtStatic (g : BitVec 5) (x : BitVec 1) (m : BitVec 3) (e : BitVec 1) (r : BitVec 2) (d a : BitVec 5) (s : State) : Res :=
  runBody s (vconvert (vEnc g x 0 m e (4 + r.toNat) 0x11 d a) g m e (some r.toNat) d a)

/-- Whether a block's elements lie in a poisoned group: its exponent byte counts as lying in the groups of its mantissas
(DESIGN CHOICE: notes/assumptions/50.md). -/
def blockPoison (p : BitVec 8) (w blk j : Nat) : Bool := (List.range blk).any fun i => elemPoison p w (j * blk + i)

/-- VBFPX.X: the exponents of the blocks below VL to bytes of vd (R197). -/
def execVbfpxX (x : BitVec 1) (d a : BitVec 5) (s : State) : Res :=
  runBody s (vecBody (vEnc 0 x 0 0 0 8 0x11 d a) isBfp true fun st =>
    let c := st.vec
    let out := (List.range (c.vl.toNat / c.blk)).map fun j =>
      some ({ val := c.side a j, psn := blockPoison (c.poisReg a) (fmtWidth c.fmt) c.blk j } : ElemOut)
    .ok (st.putVec d 8 1024 out).vecDone)

/-- VBFPX.I: bytes of vs1 to the exponents of the blocks below VL; the mantissas keep their values (R197). Poison goes to
the groups of the block's mantissas, and no bit is cleared (DESIGN CHOICE: notes/assumptions/50.md). -/
def execVbfpxI (x : BitVec 1) (d a : BitVec 5) (s : State) : Res :=
  runBody s (vecBody (vEnc 0 x 0 0 0 9 0x11 d a) isBfp true fun st =>
    let c := st.vec
    let w := fmtWidth c.fmt
    let nb := c.vl.toNat / c.blk
    let out := (List.range nb).map fun j => some (elemAt 8 (c.reg a) j)
    let bad := (List.range nb).filter fun j => elemPoison (c.poisReg a) 8 j
    let s1 := (st.putSide d out).updVec fun v =>
      { v with pois := v.pois.set d.toFin (bad.foldl (fun q j =>
          (List.range c.blk).foldl (fun q i =>
            setBit (setBit q (w * (j * c.blk + i) / 1024) true) ((w * (j * c.blk + i) + w - 1) / 1024) true) q)
          (v.poisReg d)) }
    .ok (s1.notePoison (!bad.isEmpty)).vecDone)

end Sys2Proof.Machine
end

