-- ==== Sys2Proof/Machine/Volta.lean ====
section
/-!
DEFINITION. Voltas (07_control_registers.md R252; 13_system_tables.md R453; 11_fragments_and_errands.md R393): MIGRATE,
what it carries, forwarding entries, and the manager's order. What belongs to the physical tile stays
(DESIGN CHOICE: notes/assumptions/18.md).
-/
namespace Sys2Proof.Machine

/-! ### Targets -/

/-- Whether a tile is a free tile of the partition that holds another: active, with no process placed and no living
forwarding entry. -/
def State.freeFor (s : State) (t u : Nat) : Bool :=
  t != u && (s.coord u).isSome && (s.partOf t).isSome && (s.partOf u).map (·.tnt) == (s.partOf t).map (·.tnt) &&
    (s.mgr.procs.all fun p => p.tile != u) &&
    match (s.tile u).forward with
    | some f => decide (f.expiry ≤ s.time)
    | none => true

/-- The free tiles of a tile's partition. -/
def State.freeTiles (s : State) (t : Nat) : List Nat :=
  match s.partOf t with
  | some p => (s.partTiles p).filter (s.freeFor t)
  | none => []

/-- Distance of two tiles in the mesh. -/
def State.distance (s : State) (t u : Nat) : Nat :=
  match s.coord t, s.coord u with
  | some (x, y), some (v, w) => (x - v) + (v - x) + (y - w) + (w - y)
  | _, _ => 0

/-- The free tile nearest a tile; of equals, the lowest number. -/
def State.nearestFree (s : State) (t : Nat) : Option Nat :=
  (s.freeTiles t).foldl (fun b u => match b with
    | none => some u
    | some v => if s.distance t u < s.distance t v then some u else some v) none

/-! ### The move -/

/-- The two sources' counters together: each the higher, so that no number is used twice. -/
def mergeSeqs (a b : List ((Nat × Nat) × Nat)) : List ((Nat × Nat) × Nat) :=
  b.foldl (fun l p => match l.find? fun q => q.1 == p.1 with
    | some q => (p.1, max q.2 p.2) :: l.filter fun r => r.1 != p.1
    | none => p :: l) a

/-- An open buffer's identity and its map of data placed directly, as the new tile takes them (R393). -/
def DecBuf.carried (b : DecBuf) (u : Nat) : DecBuf :=
  { b with hdr := { b.hdr with dst := ⟨.tile, u⟩ }, frags := [],
           placed := if b.direct then (b.frags.map (·.1) ++ b.placed).eraseDups.filter fun i => decide (i < 16) else [] }

/-- The fabric state a target takes over. -/
def Fabric.carry (a b : Fabric) (u : Nat) : Fabric :=
  { b with bufs := b.bufs ++ a.bufs.map (·.carried u), filter := b.filter ++ a.filter, tails := b.tails ++ a.tails,
           shadow := b.shadow ++ a.shadow,
           seqs := mergeSeqs b.seqs a.seqs, inbox := b.inbox ++ a.inbox }

/-- The fabric state left on the vacated tile. -/
def Fabric.leftBehind (a : Fabric) : Fabric :=
  { a with bufs := [], held := [], filter := [], tails := [], shadow := [], inbox := [] }

/-- The target's state: everything of the source but what belongs to the physical tile. -/
def Tile.carry (a b : Tile) (u : Nat) : Tile :=
  { b with slots := a.slots, vecs := a.vecs, mem := a.mem, start := a.start, poison := a.poison, errs := a.errs,
           bfmt := a.bfmt, ready := a.ready, watch := a.watch, timers := a.timers, wakeEval := a.wakeEval,
           voltaTarget := a.voltaTarget, supSlot := a.supSlot, defSup := a.defSup, strict := a.strict,
           lastIssue := a.lastIssue, ends := a.ends, execQ := b.execQ ++ a.execQ, forward := none, vacated := false,
           fab := a.fab.carry b.fab u }

/-- The vacated tile with its forwarding entry. -/
def Tile.leftBehind (a : Tile) (f : Forward) : Tile :=
  { a with slots := Tile.reset.slots, vecs := Tile.reset.vecs, mem := [], start := 0, poison := 0, errs := 0,
           bfmt := Tile.reset.bfmt, ready := Tile.reset.ready, watch := [], timers := Tile.reset.timers, wakeEval := 0,
           voltaTarget := 0, supSlot := Tile.reset.supSlot, defSup := false, strict := false,
           lastIssue := Tile.reset.lastIssue, ends := [], execQ := [], forward := some f, vacated := true,
           left := (a.ends.map (·.2.netid) ++ a.slots.toList.map (·.netid.toNat) ++ a.left).eraseDups.filter (· != 0),
           fab := a.fab.leftBehind }

/-- The ends of an end's peer, rebound to the new place (10_channels.md R341). -/
def EndPt.rebindPeer (t u : Nat) (e : EndPt) : EndPt :=
  match e with
  | .send x => .send (if x.peer = ⟨.tile, t⟩ then { x with peer := ⟨.tile, u⟩ } else x)
  | .recv x => .recv (if x.peer = ⟨.tile, t⟩ then { x with peer := ⟨.tile, u⟩ } else x)

/-- A server pair whose requester has moved. -/
def ServerPair.rebind (t u : Nat) (p : ServerPair) : ServerPair :=
  { p with reqPeer := if p.reqPeer = ⟨.tile, t⟩ then ⟨.tile, u⟩ else p.reqPeer,
           repPeer := if p.repPeer = ⟨.tile, t⟩ then ⟨.tile, u⟩ else p.repPeer }

/-- What is asked of the host for a growth, at its origin's new place. -/
def Assist.moved (t u : Nat) (a : Assist) : Assist :=
  match a.what with
  | .growth v k b c l n es => { a with what := .growth (if v = t then u else v) k b c l n es }
  | _ => a

/-- The manager's records of what has moved, and the peers of the moved channel ends. -/
def State.rebindAll (s : State) (t u : Nat) : State :=
  let s1 := s.modMgr fun m =>
    { m with procs := m.procs.map fun (p : Proc) => if p.tile = t then { p with tile := u } else p,
             ends := m.ends.map fun (r : EndReq) => if r.tile = t then { r with tile := u } else r,
             assists := m.assists.map (·.moved t u) }
  { s1 with
    tiles := s1.tiles.map fun p => (p.1, { p.2 with ends := p.2.ends.map fun e => (e.1, e.2.rebindPeer t u) })
    edges := s1.edges.map fun p => (p.1, { p.2 with pairs := p.2.pairs.map (·.rebind t u) }) }

/-- NACKs with REDIRECT for the open buffers of the vacated tile (R393). -/
def State.redirects (s : State) (u : Nat) (bufs : List DecBuf) : State :=
  bufs.foldl (fun s' b =>
    let c := b.carried u
    s'.sendNack ⟨.tile, u⟩ b.hdr b.lastIdx c.map true false u) s

/-- The volta of tile `t` to `u`: the state moves, the manager rebinds, the stations are told (12_reels.md R433). -/
def State.volta (s : State) (t u : Nat) : State :=
  let a := s.tile t
  let f : Forward := { target := u, tnt := ((s.partOf t).map (·.tnt)).getD 0, expiry := s.time + 2 ^ 24 }
  let s1 := (s.setTile u (a.carry (s.tile u) u)).setTile t (a.leftBehind f)
  let back := a.fab.held.map fun (h : HeldFrag) => h.frag
  let here : Cur := { tile := if s.cur.tile = t then u else s.cur.tile, slot := s.cur.slot }
  let s2 : State := { s1 with wire := s1.wire ++ back, cur := here }
  let s3 := (s2.rebindAll t u).redirects u a.fab.bufs
  (List.finRange 8).foldl (fun s' k =>
    s'.noticeHomes u k rMOVED [(s'.slot u k).pid.setWidth 64, BitVec.ofNat 64 u, BitVec.ofNat 64 k.val]) s3

/-! ### MIGRATE (R252) -/

/-- The target of a MIGRATE: that of its operand, or, where the partition delegates the choice, the host's, asked for as MIGRATE
executes, also with no tile free (01_machine.md R56 bit 5; 13_system_tables.md R454). The spec does not say when the host is asked
(DESIGN CHOICE: notes/assumptions/56.md). -/
def State.voltaChoice (s : State) (want : Nat) : Except Stop (Option Nat) :=
  let t := s.cur.tile
  let tnt := ((s.partOf t).map (·.tnt)).getD 0
  if bit (s.assistBits tnt) 5 then
    match s.me.pend with
    | .volta _ (some ans) => .ok (if s.freeFor t ans then some ans else s.nearestFree t)
    | .volta _ none => .error (.wait .issue)
    | _ =>
      let fs := (s.freeTiles t).take 240
      let s1 := s.askHost 5 tnt s.me.netid.toNat
        (toBytes 2 t ++ toBytes 2 fs.length ++ toBytes 4 0 ++ fs.flatMap (toBytes 2)) (.migration t s.cur.slot)
      .error (.waitIn (s1.updMe fun x => { x with pend := .volta s.mgr.nextTag.toNat none }) .issue)
  else .ok (if s.freeFor t want then some want else none)

/-- MIGRATE: the other slots stop; once nothing of them, and no RUPD of the issuer, is outstanding, the tile moves. -/
def migrateBody (d rs : BitVec 5) : Body := fun s =>
  match s.voltaChoice (bits (s.g rs) 15 0) with
  | .error e => .error e
  | .ok none => .ok (((s.updMe fun x => { x with pend := .none }).setG d 1).adv 4)
  | .ok (some u) =>
    let t := s.cur.tile
    let others := (List.finRange 8).filter fun k => decide (k ≠ s.cur.slot)
    let s1 := others.foldl (fun s' k => s'.stopNamed t k) s
    if (others.any fun k => (s1.slot t k).yetToStop) || !s1.me.rupds.isEmpty then
      .error (.waitIn (s1.updMe fun x => { x with pend := match x.pend with
        | .none => .begun
        | p => p }) .issue)
    else
      let s2 := (s1.updMe fun x => { x with pend := .none }).volta t u
      .ok ((s2.setG d 0).adv 4)

/-- MIGRATE (R252). -/
def execMigrate (d rs : BitVec 5) (s : State) : Res :=
  runBody s (needPrv (rEnc 0 4 0x1B d rs) 1 (migrateBody d rs))

/-! ### Forwarding entries (R453) -/

/-- FWDSET (R252). -/
def execFwdset (t d rs : BitVec 5) (s : State) : Res :=
  runBody s (needPrv (rEnc t 5 0x1B d rs) 2 fun st =>
    let v := bits (st.g rs) 15 0
    let u := bits (st.g rs) 31 16
    let n := (st.g t).toNat
    let x := st.tile v
    if x.vacated then
      let tnt := match x.forward with
        | some f => f.tnt
        | none => ((st.partOf v).map (·.tnt)).getD 0
      let e : Option Forward := if n = 0 then none else some { target := u, tnt := tnt, expiry := st.time + n }
      .ok (((st.modTile v fun y => { y with forward := e }).setG d 0).adv 4)
    else .ok ((st.setG d 1).adv 4))

/-- FORWARDING_EXPIRY: an entry whose TIME has passed leaves its tile. -/
def execForwardingExpiry (tile : Nat) (s : State) : Res := runEvent s fun st =>
  match (st.tile tile).forward with
  | some f => if f.expiry ≤ st.time then st.modTile tile fun x => { x with forward := none } else st
  | none => st

/-- VOLTA_ORDER: the network manager orders a volta of a tile, which sets MGP (07_control_registers.md R241). In hardware
mode its target is the nearest free tile (01_machine.md R56 bit 5); in host-assisted mode it may be any free tile, and the host is
asked only as MIGRATE executes (DESIGN CHOICE: notes/assumptions/56.md). -/
def execVoltaOrder (tile target : Nat) (s : State) : Res := runEvent s fun st =>
  let tnt := ((st.partOf tile).map (·.tnt)).getD 0
  let ok := st.freeFor tile target &&
    (bit (st.assistBits tnt) 5 || decide (st.nearestFree tile = some target))
  if ok ∧ st.mgr.procs.any (fun p => p.tile == tile) = true then
    st.modTile tile fun x => ({ x with voltaTarget := target } : Tile).setPending 49
  else st

end Sys2Proof.Machine
end

