-- ==== Sys2Proof/Machine/Dispatch.lean ====
section
/-! DEFINITION. One arm per constructor of Instr: each a direct call of the instruction's meaning. -/
namespace Sys2Proof.Machine

/-- One instruction or event executed. -/
def exec (i : Instr) (s : State) : Host.Outcome State Fault Refusal :=
  match i with
  | .add t d rs => Sys2Proof.Machine.execAdd t d rs s
  | .sub t d rs => Sys2Proof.Machine.execSub t d rs s
  | .and t d rs => Sys2Proof.Machine.execAnd t d rs s
  | .or t d rs => Sys2Proof.Machine.execOr t d rs s
  | .xor t d rs => Sys2Proof.Machine.execXor t d rs s
  | .andn t d rs => Sys2Proof.Machine.execAndn t d rs s
  | .sll t d rs => Sys2Proof.Machine.execSll t d rs s
  | .srl t d rs => Sys2Proof.Machine.execSrl t d rs s
  | .sra t d rs => Sys2Proof.Machine.execSra t d rs s
  | .slt t d rs => Sys2Proof.Machine.execSlt t d rs s
  | .sltu t d rs => Sys2Proof.Machine.execSltu t d rs s
  | .min t d rs => Sys2Proof.Machine.execMin t d rs s
  | .max t d rs => Sys2Proof.Machine.execMax t d rs s
  | .minu t d rs => Sys2Proof.Machine.execMinu t d rs s
  | .maxu t d rs => Sys2Proof.Machine.execMaxu t d rs s
  | .clz d rs => Sys2Proof.Machine.execClz d rs s
  | .ctz d rs => Sys2Proof.Machine.execCtz d rs s
  | .popc d rs => Sys2Proof.Machine.execPopc d rs s
  | .rev8 d rs => Sys2Proof.Machine.execRev8 d rs s
  | .rol t d rs => Sys2Proof.Machine.execRol t d rs s
  | .rotr t d rs => Sys2Proof.Machine.execRotr t d rs s
  | .sextB d rs => Sys2Proof.Machine.execSextB d rs s
  | .sextH d rs => Sys2Proof.Machine.execSextH d rs s
  | .sextW d rs => Sys2Proof.Machine.execSextW d rs s
  | .addi imm d rs => Sys2Proof.Machine.execAddi imm d rs s
  | .andi imm d rs => Sys2Proof.Machine.execAndi imm d rs s
  | .ori imm d rs => Sys2Proof.Machine.execOri imm d rs s
  | .xori imm d rs => Sys2Proof.Machine.execXori imm d rs s
  | .slti imm d rs => Sys2Proof.Machine.execSlti imm d rs s
  | .sltiu imm d rs => Sys2Proof.Machine.execSltiu imm d rs s
  | .slli h d rs => Sys2Proof.Machine.execSlli h d rs s
  | .srli h d rs => Sys2Proof.Machine.execSrli h d rs s
  | .srai h d rs => Sys2Proof.Machine.execSrai h d rs s
  | .ldhi imm d => Sys2Proof.Machine.execLdhi imm d s
  | .addpc imm d => Sys2Proof.Machine.execAddpc imm d s
  | .mul t d rs => Sys2Proof.Machine.execMul t d rs s
  | .mulh t d rs => Sys2Proof.Machine.execMulh t d rs s
  | .mulhu t d rs => Sys2Proof.Machine.execMulhu t d rs s
  | .mulhsu t d rs => Sys2Proof.Machine.execMulhsu t d rs s
  | .divu t d rs => Sys2Proof.Machine.execDivu t d rs s
  | .div t d rs => Sys2Proof.Machine.execDiv t d rs s
  | .remu t d rs => Sys2Proof.Machine.execRemu t d rs s
  | .rem t d rs => Sys2Proof.Machine.execRem t d rs s
  | .beq o rs t => Sys2Proof.Machine.execBeq o rs t s
  | .bne o rs t => Sys2Proof.Machine.execBne o rs t s
  | .blt o rs t => Sys2Proof.Machine.execBlt o rs t s
  | .bge o rs t => Sys2Proof.Machine.execBge o rs t s
  | .bltu o rs t => Sys2Proof.Machine.execBltu o rs t s
  | .bgeu o rs t => Sys2Proof.Machine.execBgeu o rs t s
  | .jal imm d => Sys2Proof.Machine.execJal imm d s
  | .jalr imm d rs => Sys2Proof.Machine.execJalr imm d rs s
  | .ldB imm d rs => Sys2Proof.Machine.execLdB imm d rs s
  | .ldH imm d rs => Sys2Proof.Machine.execLdH imm d rs s
  | .ldW imm d rs => Sys2Proof.Machine.execLdW imm d rs s
  | .ldD imm d rs => Sys2Proof.Machine.execLdD imm d rs s
  | .ldBu imm d rs => Sys2Proof.Machine.execLdBu imm d rs s
  | .ldHu imm d rs => Sys2Proof.Machine.execLdHu imm d rs s
  | .ldWu imm d rs => Sys2Proof.Machine.execLdWu imm d rs s
  | .ldAcq imm d rs => Sys2Proof.Machine.execLdAcq imm d rs s
  | .stB imm d rs => Sys2Proof.Machine.execStB imm d rs s
  | .stH imm d rs => Sys2Proof.Machine.execStH imm d rs s
  | .stW imm d rs => Sys2Proof.Machine.execStW imm d rs s
  | .stD imm d rs => Sys2Proof.Machine.execStD imm d rs s
  | .stRel imm d rs => Sys2Proof.Machine.execStRel imm d rs s
  | .ldf w x d rs => Sys2Proof.Machine.execLdf w x d rs s
  | .stf t w rs => Sys2Proof.Machine.execStf t w rs s
  | .amoAdd t w d rs => Sys2Proof.Machine.execAmoAdd t w d rs s
  | .amoSwap t w d rs => Sys2Proof.Machine.execAmoSwap t w d rs s
  | .amoCas t w d rs => Sys2Proof.Machine.execAmoCas t w d rs s
  | .amoMin t w d rs => Sys2Proof.Machine.execAmoMin t w d rs s
  | .amoMax t w d rs => Sys2Proof.Machine.execAmoMax t w d rs s
  | .amoMinu t w d rs => Sys2Proof.Machine.execAmoMinu t w d rs s
  | .amoMaxu t w d rs => Sys2Proof.Machine.execAmoMaxu t w d rs s
  | .amoAnd t w d rs => Sys2Proof.Machine.execAmoAnd t w d rs s
  | .amoOr t w d rs => Sys2Proof.Machine.execAmoOr t w d rs s
  | .amoXor t w d rs => Sys2Proof.Machine.execAmoXor t w d rs s
  | .amoFadd t d rs => Sys2Proof.Machine.execAmoFadd t d rs s
  | .rupdAdd t w rs => Sys2Proof.Machine.execRupdAdd t w rs s
  | .rupdMin t w rs => Sys2Proof.Machine.execRupdMin t w rs s
  | .rupdMax t w rs => Sys2Proof.Machine.execRupdMax t w rs s
  | .rupdMinu t w rs => Sys2Proof.Machine.execRupdMinu t w rs s
  | .rupdMaxu t w rs => Sys2Proof.Machine.execRupdMaxu t w rs s
  | .rupdAnd t w rs => Sys2Proof.Machine.execRupdAnd t w rs s
  | .rupdOr t w rs => Sys2Proof.Machine.execRupdOr t w rs s
  | .rupdXor t w rs => Sys2Proof.Machine.execRupdXor t w rs s
  | .rupdFadd t rs => Sys2Proof.Machine.execRupdFadd t rs s
  | .oxl d rs => Sys2Proof.Machine.execOxl d rs s
  | .oxm d rs => Sys2Proof.Machine.execOxm d rs s
  | .oxr d rs => Sys2Proof.Machine.execOxr d rs s
  | .ctlr c d => Sys2Proof.Machine.execCtlr c d s
  | .ctlw c rs => Sys2Proof.Machine.execCtlw c rs s
  | .ctls c d rs => Sys2Proof.Machine.execCtls c d rs s
  | .ctlc c d rs => Sys2Proof.Machine.execCtlc c d rs s
  | .fence p k => Sys2Proof.Machine.execFence p k s
  | .trap n => Sys2Proof.Machine.execTrap n s
  | .rett => Sys2Proof.Machine.execRett s
  | .chkerr => Sys2Proof.Machine.execChkerr s
  | .bkpt => Sys2Proof.Machine.execBkpt s
  | .setvl d rs => Sys2Proof.Machine.execSetvl d rs s
  | .setvli imm d => Sys2Proof.Machine.execSetvli imm d s
  | .setvt d rs => Sys2Proof.Machine.execSetvt d rs s
  | .vadd b x y m e d a => Sys2Proof.Machine.execVadd b x y m e d a s
  | .vsub b x y m e d a => Sys2Proof.Machine.execVsub b x y m e d a s
  | .vmul b x y m e d a => Sys2Proof.Machine.execVmul b x y m e d a s
  | .vmulh b x y m e d a => Sys2Proof.Machine.execVmulh b x y m e d a s
  | .vand b x y m e d a => Sys2Proof.Machine.execVand b x y m e d a s
  | .vor b x y m e d a => Sys2Proof.Machine.execVor b x y m e d a s
  | .vxor b x y m e d a => Sys2Proof.Machine.execVxor b x y m e d a s
  | .vsll b x y m e d a => Sys2Proof.Machine.execVsll b x y m e d a s
  | .vsrl b x y m e d a => Sys2Proof.Machine.execVsrl b x y m e d a s
  | .vsra b x y m e d a => Sys2Proof.Machine.execVsra b x y m e d a s
  | .vmin b x y m e d a => Sys2Proof.Machine.execVmin b x y m e d a s
  | .vmax b x y m e d a => Sys2Proof.Machine.execVmax b x y m e d a s
  | .vminu b x y m e d a => Sys2Proof.Machine.execVminu b x y m e d a s
  | .vmaxu b x y m e d a => Sys2Proof.Machine.execVmaxu b x y m e d a s
  | .vabsd b x y m e d a => Sys2Proof.Machine.execVabsd b x y m e d a s
  | .vsadd b x y m e d a => Sys2Proof.Machine.execVsadd b x y m e d a s
  | .vssub b x y m e d a => Sys2Proof.Machine.execVssub b x y m e d a s
  | .vfadd b x y m e d a => Sys2Proof.Machine.execVfadd b x y m e d a s
  | .vfsub b x y m e d a => Sys2Proof.Machine.execVfsub b x y m e d a s
  | .vfmul b x y m e d a => Sys2Proof.Machine.execVfmul b x y m e d a s
  | .vfma b x y m e d a => Sys2Proof.Machine.execVfma b x y m e d a s
  | .vfms b x y m e d a => Sys2Proof.Machine.execVfms b x y m e d a s
  | .vfnma b x y m e d a => Sys2Proof.Machine.execVfnma b x y m e d a s
  | .vfdiv b x y m e d a => Sys2Proof.Machine.execVfdiv b x y m e d a s
  | .vfsqrt x m e d a => Sys2Proof.Machine.execVfsqrt x m e d a s
  | .vfmin b x y m e d a => Sys2Proof.Machine.execVfmin b x y m e d a s
  | .vfmax b x y m e d a => Sys2Proof.Machine.execVfmax b x y m e d a s
  | .vfabs x m e d a => Sys2Proof.Machine.execVfabs x m e d a s
  | .vfneg x m e d a => Sys2Proof.Machine.execVfneg x m e d a s
  | .vfaddStatic b x y m e r d a => Sys2Proof.Machine.execVfaddStatic b x y m e r d a s
  | .vfsubStatic b x y m e r d a => Sys2Proof.Machine.execVfsubStatic b x y m e r d a s
  | .vfmulStatic b x y m e r d a => Sys2Proof.Machine.execVfmulStatic b x y m e r d a s
  | .vfmaStatic b x y m e r d a => Sys2Proof.Machine.execVfmaStatic b x y m e r d a s
  | .vcmpEq b x y m e d a => Sys2Proof.Machine.execVcmpEq b x y m e d a s
  | .vcmpNe b x y m e d a => Sys2Proof.Machine.execVcmpNe b x y m e d a s
  | .vcmpLt b x y m e d a => Sys2Proof.Machine.execVcmpLt b x y m e d a s
  | .vcmpLe b x y m e d a => Sys2Proof.Machine.execVcmpLe b x y m e d a s
  | .vcmpGt b x y m e d a => Sys2Proof.Machine.execVcmpGt b x y m e d a s
  | .vcmpGe b x y m e d a => Sys2Proof.Machine.execVcmpGe b x y m e d a s
  | .vcmpLtu b x y m e d a => Sys2Proof.Machine.execVcmpLtu b x y m e d a s
  | .vcmpLeu b x y m e d a => Sys2Proof.Machine.execVcmpLeu b x y m e d a s
  | .vcmpGtu b x y m e d a => Sys2Proof.Machine.execVcmpGtu b x y m e d a s
  | .vcmpGeu b x y m e d a => Sys2Proof.Machine.execVcmpGeu b x y m e d a s
  | .vfcmpEq b x y m e d a => Sys2Proof.Machine.execVfcmpEq b x y m e d a s
  | .vfcmpNe b x y m e d a => Sys2Proof.Machine.execVfcmpNe b x y m e d a s
  | .vfcmpLt b x y m e d a => Sys2Proof.Machine.execVfcmpLt b x y m e d a s
  | .vfcmpLe b x y m e d a => Sys2Proof.Machine.execVfcmpLe b x y m e d a s
  | .vfcmpGt b x y m e d a => Sys2Proof.Machine.execVfcmpGt b x y m e d a s
  | .vfcmpGe b x y m e d a => Sys2Proof.Machine.execVfcmpGe b x y m e d a s
  | .vfcmpUn b x y m e d a => Sys2Proof.Machine.execVfcmpUn b x y m e d a s
  | .mand b d a => Sys2Proof.Machine.execMand b d a s
  | .mor b d a => Sys2Proof.Machine.execMor b d a s
  | .mxor b d a => Sys2Proof.Machine.execMxor b d a s
  | .mandn b d a => Sys2Proof.Machine.execMandn b d a s
  | .mnot d a => Sys2Proof.Machine.execMnot d a s
  | .msetn d rs => Sys2Proof.Machine.execMsetn d rs s
  | .mpopc m e d a => Sys2Proof.Machine.execMpopc m e d a s
  | .mfirst m e d a => Sys2Proof.Machine.execMfirst m e d a s
  | .mmove d a => Sys2Proof.Machine.execMmove d a s
  | .vsel b x y m d a => Sys2Proof.Machine.execVsel b x y m d a s
  | .vmv x m e d a => Sys2Proof.Machine.execVmv x m e d a s
  | .vmvx m e d rs => Sys2Proof.Machine.execVmvx m e d rs s
  | .vext t x d a => Sys2Proof.Machine.execVext t x d a s
  | .vslideup t x m e d a => Sys2Proof.Machine.execVslideup t x m e d a s
  | .vslidedn t x m e d a => Sys2Proof.Machine.execVslidedn t x m e d a s
  | .vgath b x y m e d a => Sys2Proof.Machine.execVgath b x y m e d a s
  | .vcomp x m e d a => Sys2Proof.Machine.execVcomp x m e d a s
  | .vexp x m e d a => Sys2Proof.Machine.execVexp x m e d a s
  | .viota m e d => Sys2Proof.Machine.execViota m e d s
  | .vredsum x m e d a => Sys2Proof.Machine.execVredsum x m e d a s
  | .vredmin x m e d a => Sys2Proof.Machine.execVredmin x m e d a s
  | .vredmax x m e d a => Sys2Proof.Machine.execVredmax x m e d a s
  | .vfredsum x m e d a => Sys2Proof.Machine.execVfredsum x m e d a s
  | .vcvt g x m e d a => Sys2Proof.Machine.execVcvt g x m e d a s
  | .vcvtStatic g x m e r d a => Sys2Proof.Machine.execVcvtStatic g x m e r d a s
  | .vbfpxX x d a => Sys2Proof.Machine.execVbfpxX x d a s
  | .vbfpxI x d a => Sys2Proof.Machine.execVbfpxI x d a s
  | .vld o v m e d rs => Sys2Proof.Machine.execVld o v m e d rs s
  | .vlds o v m e k d rs => Sys2Proof.Machine.execVlds o v m e k d rs s
  | .vldx imm o v m e d rs => Sys2Proof.Machine.execVldx imm o v m e d rs s
  | .vst o v m e d rs => Sys2Proof.Machine.execVst o v m e d rs s
  | .vsts o v m e k d rs => Sys2Proof.Machine.execVsts o v m e k d rs s
  | .vstx imm o v m e d rs => Sys2Proof.Machine.execVstx imm o v m e d rs s
  | .mzero c => Sys2Proof.Machine.execMzero c s
  | .minit t c rs => Sys2Proof.Machine.execMinit t c rs s
  | .mma t e c a b x rs => Sys2Proof.Machine.execMma t e c a b x rs s
  | .mmab t e c rs => Sys2Proof.Machine.execMmab t e c rs s
  | .mrowsum c d => Sys2Proof.Machine.execMrowsum c d s
  | .mdrainReg c d rs => Sys2Proof.Machine.execMdrainReg c d rs s
  | .mdrainSpad c rs => Sys2Proof.Machine.execMdrainSpad c rs s
  | .mdrainqReg t e c d => Sys2Proof.Machine.execMdrainqReg t e c d s
  | .mdrainqSpad t e c rs => Sys2Proof.Machine.execMdrainqSpad t e c rs s
  | .cpy y d rs => Sys2Proof.Machine.execCpy y d rs s
  | .cpyrAdd y d rs => Sys2Proof.Machine.execCpyrAdd y d rs s
  | .cpyrFadd y d rs => Sys2Proof.Machine.execCpyrFadd y d rs s
  | .cpyrBfadd y d rs => Sys2Proof.Machine.execCpyrBfadd y d rs s
  | .cpyrMin y d rs => Sys2Proof.Machine.execCpyrMin y d rs s
  | .cpyrMax y d rs => Sys2Proof.Machine.execCpyrMax y d rs s
  | .cpyrFmin y d rs => Sys2Proof.Machine.execCpyrFmin y d rs s
  | .cpyrFmax y d rs => Sys2Proof.Machine.execCpyrFmax y d rs s
  | .cpyf t y d => Sys2Proof.Machine.execCpyf t y d s
  | .cpyMc h y d rs => Sys2Proof.Machine.execCpyMc h y d rs s
  | .send p rs => Sys2Proof.Machine.execSend p rs s
  | .recv p d => Sys2Proof.Machine.execRecv p d s
  | .vsend p rs => Sys2Proof.Machine.execVsend p rs s
  | .vrecv p d => Sys2Proof.Machine.execVrecv p d s
  | .sende p => Sys2Proof.Machine.execSende p s
  | .recve p d rs => Sys2Proof.Machine.execRecve p d rs s
  | .portq p d => Sys2Proof.Machine.execPortq p d s
  | .errand d rs => Sys2Proof.Machine.execErrand d rs s
  | .errwait d rs => Sys2Proof.Machine.execErrwait d rs s
  | .reply rs => Sys2Proof.Machine.execReply rs s
  | .fins t d rs => Sys2Proof.Machine.execFins t d rs s
  | .gnew h c d rs => Sys2Proof.Machine.execGnew h c d rs s
  | .gjoin h d rs => Sys2Proof.Machine.execGjoin h d rs s
  | .gleave h d => Sys2Proof.Machine.execGleave h d s
  | .garr h rs => Sys2Proof.Machine.execGarr h rs s
  | .garrMask h k => Sys2Proof.Machine.execGarrMask h k s
  | .gbar h d => Sys2Proof.Machine.execGbar h d s
  | .gwait h d rs => Sys2Proof.Machine.execGwait h d rs s
  | .gvoteAll h d rs => Sys2Proof.Machine.execGvoteAll h d rs s
  | .gvoteAny h d rs => Sys2Proof.Machine.execGvoteAny h d rs s
  | .gvoteCount h d rs => Sys2Proof.Machine.execGvoteCount h d rs s
  | .gvoteAllMask h d k => Sys2Proof.Machine.execGvoteAllMask h d k s
  | .gvoteAnyMask h d k => Sys2Proof.Machine.execGvoteAnyMask h d k s
  | .gvoteCountMask h d k => Sys2Proof.Machine.execGvoteCountMask h d k s
  | .gredSum h y d rs => Sys2Proof.Machine.execGredSum h y d rs s
  | .gredMin h y d rs => Sys2Proof.Machine.execGredMin h y d rs s
  | .gredMax h y d rs => Sys2Proof.Machine.execGredMax h y d rs s
  | .ginfo h d => Sys2Proof.Machine.execGinfo h d s
  | .swset t d rs => Sys2Proof.Machine.execSwset t d rs s
  | .swwait t d rs => Sys2Proof.Machine.execSwwait t d rs s
  | .swadd t rs => Sys2Proof.Machine.execSwadd t rs s
  | .swread d rs => Sys2Proof.Machine.execSwread d rs s
  | .temit rs => Sys2Proof.Machine.execTemit rs s
  | .tmark imm => Sys2Proof.Machine.execTmark imm s
  | .rqpush t d rs => Sys2Proof.Machine.execRqpush t d rs s
  | .rqpop d => Sys2Proof.Machine.execRqpop d s
  | .slotgo t rs => Sys2Proof.Machine.execSlotgo t rs s
  | .slotstop t rs => Sys2Proof.Machine.execSlotstop t rs s
  | .migrate d rs => Sys2Proof.Machine.execMigrate d rs s
  | .fwdset t d rs => Sys2Proof.Machine.execFwdset t d rs s
  | .timerset t rs => Sys2Proof.Machine.execTimerset t rs s
  | .parkwait d rs => Sys2Proof.Machine.execParkwait d rs s
  | .hint imm j => Sys2Proof.Machine.execHint imm j s
  | .nop => Sys2Proof.Machine.execNop s
  | .cMv d rs => Sys2Proof.Machine.execCMv d rs s
  | .cAdd d rs => Sys2Proof.Machine.execCAdd d rs s
  | .cAddi d imm => Sys2Proof.Machine.execCAddi d imm s
  | .cLd d imm => Sys2Proof.Machine.execCLd d imm s
  | .cSt d imm => Sys2Proof.Machine.execCSt d imm s
  | .cBeqz d o => Sys2Proof.Machine.execCBeqz d o s
  | .cBnez d o => Sys2Proof.Machine.execCBnez d o s
  | .cJ o => Sys2Proof.Machine.execCJ o s
  | .cSend p rs => Sys2Proof.Machine.execCSend p rs s
  | .cRecv d p => Sys2Proof.Machine.execCRecv d p s
  | .cLdhi d imm => Sys2Proof.Machine.execCLdhi d imm s
  | .cNop => Sys2Proof.Machine.execCNop s
  | .vtWrite tile slot q => Sys2Proof.Machine.execVtWrite tile slot q s
  | .vlWrite tile slot q => Sys2Proof.Machine.execVlWrite tile slot q s
  | .xclassWrite tile slot q => Sys2Proof.Machine.execXclassWrite tile slot q s
  | .xmWrite tile slot q => Sys2Proof.Machine.execXmWrite tile slot q s
  | .fmaskWrite tile slot q => Sys2Proof.Machine.execFmaskWrite tile slot q s
  | .statusWrite tile slot q => Sys2Proof.Machine.execStatusWrite tile slot q s
  | .mslotWrite tile n q => Sys2Proof.Machine.execMslotWrite tile n q s
  | .bfmtWrite tile n q => Sys2Proof.Machine.execBfmtWrite tile n q s
  | .perfselWrite tile n q => Sys2Proof.Machine.execPerfselWrite tile n q s
  | .probeDelayWrite tile q => Sys2Proof.Machine.execProbeDelayWrite tile q s
  | .decodeDeadlineWrite tile q => Sys2Proof.Machine.execDecodeDeadlineWrite tile q s
  | .crateWrite tile n q => Sys2Proof.Machine.execCrateWrite tile n q s
  | .injectDropFragment tile frag => Sys2Proof.Machine.execInjectDropFragment tile frag s
  | .injectHoldFragment tile frag delay => Sys2Proof.Machine.execInjectHoldFragment tile frag delay s
  | .injectCheckerMismatch tile => Sys2Proof.Machine.execInjectCheckerMismatch tile s
  | .injectDoubleMismatch tile => Sys2Proof.Machine.execInjectDoubleMismatch tile s
  | .injectPoisonGranule tile => Sys2Proof.Machine.execInjectPoisonGranule tile s
  | .injectHoldRelease tile imm => Sys2Proof.Machine.execInjectHoldRelease tile imm s
  | .controlRegisterWrite tile slot num q => Sys2Proof.Machine.execControlRegisterWrite tile slot num q s
  | .slotImageWrite tile slot off q => Sys2Proof.Machine.execSlotImageWrite tile slot off q s
  | .watchdogPass tile slot => Sys2Proof.Machine.execWatchdogPass tile slot s
  | .timerExpiry tile slot => Sys2Proof.Machine.execTimerExpiry tile slot s
  | .parkDeadlineExpiry tile imm => Sys2Proof.Machine.execParkDeadlineExpiry tile imm s
  | .watchdogEvent tile => Sys2Proof.Machine.execWatchdogEvent tile s
  | .migrateEvent tile => Sys2Proof.Machine.execMigrateEvent tile s
  | .timerEvent tile => Sys2Proof.Machine.execTimerEvent tile s
  | .wakeEvent tile => Sys2Proof.Machine.execWakeEvent tile s
  | .unitEnd => Sys2Proof.Machine.execUnitEnd s
  | .launch => Sys2Proof.Machine.execLaunch s
  | .abort => Sys2Proof.Machine.execAbort s
  | .captureStart => Sys2Proof.Machine.execCaptureStart s
  | .captureStop => Sys2Proof.Machine.execCaptureStop s
  | .manageCreate => Sys2Proof.Machine.execManageCreate s
  | .manageDestroy => Sys2Proof.Machine.execManageDestroy s
  | .manageSetfield => Sys2Proof.Machine.execManageSetfield s
  | .manageMap => Sys2Proof.Machine.execManageMap s
  | .manageUnmap => Sys2Proof.Machine.execManageUnmap s
  | .manageRebind => Sys2Proof.Machine.execManageRebind s
  | .manageRead => Sys2Proof.Machine.execManageRead s
  | .manageBbclear => Sys2Proof.Machine.execManageBbclear s
  | .manageHalt => Sys2Proof.Machine.execManageHalt s
  | .manageResume => Sys2Proof.Machine.execManageResume s
  | .assistAnswerTranslation => Sys2Proof.Machine.execAssistAnswerTranslation s
  | .assistAnswerGrowth => Sys2Proof.Machine.execAssistAnswerGrowth s
  | .assistAnswerReel => Sys2Proof.Machine.execAssistAnswerReel s
  | .assistAnswerLink => Sys2Proof.Machine.execAssistAnswerLink s
  | .assistAnswerDecode => Sys2Proof.Machine.execAssistAnswerDecode s
  | .assistAnswerMigration => Sys2Proof.Machine.execAssistAnswerMigration s
  | .attest => Sys2Proof.Machine.execAttest s
  | .returnChannelRoom => Sys2Proof.Machine.execReturnChannelRoom s
  | .fragmentArrival imm => Sys2Proof.Machine.execFragmentArrival imm s
  | .heldFragmentNack ep imm => Sys2Proof.Machine.execHeldFragmentNack ep imm s
  | .decodeDeadlineExpiry ep imm => Sys2Proof.Machine.execDecodeDeadlineExpiry ep imm s
  | .filterEntryExpiry ep imm => Sys2Proof.Machine.execFilterEntryExpiry ep imm s
  | .shadowTimerExpiry ep imm => Sys2Proof.Machine.execShadowTimerExpiry ep imm s
  | .done ep imm => Sys2Proof.Machine.execDone ep imm s
  | .release ep imm => Sys2Proof.Machine.execRelease ep imm s
  | .nack ep imm => Sys2Proof.Machine.execNack ep imm s
  | .tokens ep imm => Sys2Proof.Machine.execTokens ep imm s
  | .credit ep imm => Sys2Proof.Machine.execCredit ep imm s
  | .ended ep imm => Sys2Proof.Machine.execEnded ep imm s
  | .copy ep imm => Sys2Proof.Machine.execCopy ep imm s
  | .placed ep imm => Sys2Proof.Machine.execPlaced ep imm s
  | .errandFrameExecution ep => Sys2Proof.Machine.execErrandFrameExecution ep s
  | .replyMessage ep imm => Sys2Proof.Machine.execReplyMessage ep imm s
  | .homeAccess ep imm => Sys2Proof.Machine.execHomeAccess ep imm s
  | .rupdApply ep imm => Sys2Proof.Machine.execRupdApply ep imm s
  | .farReply ep imm => Sys2Proof.Machine.execFarReply ep imm s
  | .serverRead ep imm => Sys2Proof.Machine.execServerRead ep imm s
  | .serverWrite ep imm => Sys2Proof.Machine.execServerWrite ep imm s
  | .serverZero ep imm => Sys2Proof.Machine.execServerZero ep imm s
  | .xlate ep imm => Sys2Proof.Machine.execXlate ep imm s
  | .probeLaunch tile slot => Sys2Proof.Machine.execProbeLaunch tile slot s
  | .probe ep imm => Sys2Proof.Machine.execProbe ep imm s
  | .grow ep imm => Sys2Proof.Machine.execGrow ep imm s
  | .spillClaimReply ep imm => Sys2Proof.Machine.execSpillClaimReply ep imm s
  | .reelCreate ep imm => Sys2Proof.Machine.execReelCreate ep imm s
  | .reelJoin ep imm => Sys2Proof.Machine.execReelJoin ep imm s
  | .reelLeave ep imm => Sys2Proof.Machine.execReelLeave ep imm s
  | .reelArrive ep imm => Sys2Proof.Machine.execReelArrive ep imm s
  | .reelWait ep imm => Sys2Proof.Machine.execReelWait ep imm s
  | .reelInfo ep imm => Sys2Proof.Machine.execReelInfo ep imm s
  | .reelStatus ep imm => Sys2Proof.Machine.execReelStatus ep imm s
  | .reelResult ep imm => Sys2Proof.Machine.execReelResult ep imm s
  | .reelDepart ep imm => Sys2Proof.Machine.execReelDepart ep imm s
  | .reelMoved ep imm => Sys2Proof.Machine.execReelMoved ep imm s
  | .reelGang ep imm => Sys2Proof.Machine.execReelGang ep imm s
  | .reelExpand ep imm => Sys2Proof.Machine.execReelExpand ep imm s
  | .forwardingExpiry tile => Sys2Proof.Machine.execForwardingExpiry tile s
  | .pageMigration tnt pid va stack => Sys2Proof.Machine.execPageMigration tnt pid va stack s
  | .migrationCopy imm => Sys2Proof.Machine.execMigrationCopy imm s
  | .migrationComplete imm => Sys2Proof.Machine.execMigrationComplete imm s
  | .decodeTableUpdate tile => Sys2Proof.Machine.execDecodeTableUpdate tile s
  | .linkStepDown link lane margin => Sys2Proof.Machine.execLinkStepDown link lane margin s
  | .linkStepUp link => Sys2Proof.Machine.execLinkStepUp link s
  | .traceDrain tile => Sys2Proof.Machine.execTraceDrain tile s
  | .gapRecord tile => Sys2Proof.Machine.execGapRecord tile s
  | .throttleStepUp cluster reading => Sys2Proof.Machine.execThrottleStepUp cluster reading s
  | .throttleStepDown cluster reading => Sys2Proof.Machine.execThrottleStepDown cluster reading s
  | .overcurrentThrottle => Sys2Proof.Machine.execOvercurrentThrottle s
  | .thermalTrip cluster reading => Sys2Proof.Machine.execThermalTrip cluster reading s
  | .powerOnReset => Sys2Proof.Machine.execPowerOnReset s
  | .warmReset => Sys2Proof.Machine.execWarmReset s
  | .coreRailReset => Sys2Proof.Machine.execCoreRailReset s
  | .boot => Sys2Proof.Machine.execBoot s
  | .scbaseWrite q => Sys2Proof.Machine.execScbaseWrite q s
  | .rcbaseWrite q => Sys2Proof.Machine.execRcbaseWrite q s
  | .bboxRead => Sys2Proof.Machine.execBboxRead s
  | .illegal enc => Sys2Proof.Machine.execIllegal enc s
  | .voltaOrder tile target => Sys2Proof.Machine.execVoltaOrder tile target s
  | .routerFragment imm router => Sys2Proof.Machine.execRouterFragment imm router s
  | .linkFlitRetry imm link => Sys2Proof.Machine.execLinkFlitRetry imm link s
  | .retrainComplete link => Sys2Proof.Machine.execRetrainComplete link s
  | .spillRead ep imm => Sys2Proof.Machine.execSpillRead ep imm s
  | .tsWrap tile => Sys2Proof.Machine.execTsWrap tile s

end Sys2Proof.Machine
end

