-- ==== Sys2Proof/Machine/Issue.lean ====
section
/-!
DEFINITION. Fetch, decode and issue of a slot's next instruction (01_machine.md R26; 03_encoding.md R109-R111, R128),
and what the supervisor slot does before it (07_control_registers.md R241).
-/
namespace Sys2Proof.Machine

noncomputable section

/-- The instruction's halfwords at a local address. -/
def Tile.halves (x : Tile) (a : Nat) : List (BitVec 16) := [x.half a, x.half (a + 2)]

/-- Its encoding as EVAL shows it: the halfword of a compact instruction, or the 32-bit word (R123). -/
def Tile.encAt (x : Tile) (a : Nat) : BitVec 32 :=
  if (x.half a).getLsbD 15 then (x.half (a + 2)) ++ (x.half a) else (x.half a).setWidth 32

/-- Bytes of the instruction at a local address, by its length bit. -/
def Tile.lenAt (x : Tile) (a : Nat) : Nat := if (x.half a).getLsbD 15 then 4 else 2

/-- Whether the decode-table entry of an assigned encoding fails its check (R128). -/
def DecodeTable.fails (d : DecodeTable) (enc : BitVec 32) : Bool :=
  d.failed || (!d.image.isEmpty && !Config.imageHolds d.image enc.toNat)

/-- What a fetch gives. -/
inductive Fetch where
  /-- An uncorrectable error in the code read, with the EVAL of SDC (08_memories.md R266). -/
  | sdc (v : Word)
  /-- The fetch traps. -/
  | trap (c : BitVec 8) (v : Word)
  | run (i : Instr)
  /-- An assigned encoding whose decode-table entry fails its check (R128). -/
  | noEntry (enc : BitVec 32) (i : Instr)
  deriving DecidableEq, Repr

/-- Whether an instruction is a hint, which raises no fault but that of its fetch (R124). -/
def Instr.isHint : Instr → Bool
  | .hint _ _ => true
  | .nop => true
  | _ => false

/-- The fetch at a local address. The manual places an uncorrectable error in the code read in no order with R111's checks:
the halfword at the PC is read before them, the rest of the instruction after (DESIGN CHOICE:
notes/assumptions/53.md). -/
def Tile.fetch (x : Tile) (pc : Word) : Fetch :=
  let a := pc.toNat
  let inCode := decide (0xD0000 ≤ a ∧ a ≤ 0xDFFFF)
  match (if inCode then x.findErrors a 2 else .ok x) with
  | .error v => .sdc v
  | .ok _ =>
    match x.checkTarget pc with
    | some (c, v) => .trap c v
    | none =>
      match x.findErrors a (x.lenAt a) with
      | .error v => .sdc v
      | .ok _ =>
        let enc := x.encAt a
        match decode (x.halves a) with
        | .error _ => .run (.illegal enc)
        | .ok (i, _) => if x.decTable.fails enc && !Instr.isHint i then .noEntry enc i else .run i

/-- Whether a slot may go on: one that is to stop only with what it has begun to send (R252), one that is to halt only with the
instruction it is in (R243). -/
def Slot.mayIssue (x : Slot) : Bool :=
  match x.run with
  | .running => true
  | .halting => !x.between
  | .stopping => match x.pend with
    | .farDone _ _ _ => true
    | .elems _ => true
    | .copy c => c.sent
    | _ => false
  | _ => false

/-- The event row of the pending event the supervisor slot takes first (R241). -/
def Tile.eventRow (x : Tile) (t : Nat) : Option Instr :=
  if x.takesEvents then
    if (lowestBit x.supStatus 40).isSome then some (.watchdogEvent t)
    else if bit x.supStatus 49 then some (.migrateEvent t)
    else if (lowestBit x.supStatus 32).isSome then some (.timerEvent t)
    else if bit x.supStatus 48 then some (.wakeEvent t)
    else none
  else none

/-- An instruction issued: the slot has issued last and in this cycle, and the cycle is none in which no slot issued (R26,
R28, R463). -/
def State.noteIssue (s : State) (t : Nat) (k : Fin 8) : State :=
  s.modTile t fun x =>
    ({ x with lastIssue := k, issuedAt := some (s.cycle t) }.perf 0x0002 (some k) 1).perf 0x0003 none (2 ^ 64 - 1)

/-- Whether an attempt of a slot's instruction takes an issue cycle: the instruction had not issued, and now it is over or has
begun, a request sent, a copy or an indexed access under way (R26). -/
def takesCycle (before : Slot) (t : Nat) (k : Fin 8) : Res → Bool
  | .next s => !before.hasIssued && ((s.slot t k).wait.isNone || (s.slot t k).hasIssued)
  | _ => true

/-- An outcome's next state changed. -/
def onNext (f : State → State) : Res → Res
  | .next s => .next (f s)
  | .fault e => .fault e
  | .refused e => .refused e

/-- Whether two outcomes are one next state. -/
def sameNext : Res → Res → Bool
  | .next a, .next b => decide (a = b)
  | _, _ => false

/-- A failed decode-table entry met by an instruction: ILLEGAL comes first where the instruction raises it in this slot
(R123, R239). -/
def State.noEntry (s : State) (enc : BitVec 32) (i : Instr) : Res :=
  let bad := runBody s fun _ => .error (.trap cILLEGAL (enc.setWidth 64))
  if sameNext (exec i s) bad then bad else runBody s fun _ => .error (.trap cDECODE_TABLE (enc.setWidth 64))

/-- Whether an instruction accesses the memory of tiles, or hands a park record there to the tile. -/
def Instr.onTileMemory : Instr → Bool
  | .ldB _ _ _ | .ldH _ _ _ | .ldW _ _ _ | .ldD _ _ _ | .ldBu _ _ _ | .ldHu _ _ _ | .ldWu _ _ _ | .ldAcq _ _ _
  | .stB _ _ _ | .stH _ _ _ | .stW _ _ _ | .stD _ _ _ | .stRel _ _ _ | .cLd _ _ | .cSt _ _
  | .vld _ _ _ _ _ _ | .vlds _ _ _ _ _ _ _ | .vldx _ _ _ _ _ _ _ | .vst _ _ _ _ _ _ | .vsts _ _ _ _ _ _ _
  | .vstx _ _ _ _ _ _ _ | .mma _ _ _ _ _ _ _ | .mmab _ _ _ _ | .mdrainSpad _ _ | .mdrainqSpad _ _ _ _
  | .cpy _ _ _ | .cpyrAdd _ _ _ | .cpyrFadd _ _ _ | .cpyrBfadd _ _ _ | .cpyrMin _ _ _ | .cpyrMax _ _ _
  | .cpyrFmin _ _ _ | .cpyrFmax _ _ _ | .cpyf _ _ _ | .cpyMc _ _ _ _ | .errand _ _ | .slotgo _ _ | .slotstop _ _
  | .swset _ _ _ | .swread _ _ | .swwait _ _ _ | .rqpush _ _ _ | .parkwait _ _ => true
  | _ => false

/-- Whether what a slot has sent and is still to be performed may touch the memory of a tile of its cluster. -/
def State.clusterTouched (s : State) (t : Nat) (k : Fin 8) : Bool :=
  let touches := fun (r : Reach) => match r.mem with
    | none => true
    | some m => decide (2 ≤ m) && s.clusterOf (m - 2) == s.clusterOf t
  let x := s.slot t k
  x.rupds.any (fun u => touches u.2) || x.errOut.any fun o => touches o.reach

/-- Whether an instruction must still wait at issue for an update or an errand frame of its slot that may access a byte it
accesses too (09_memory_ordering.md R307, R308). The model waits whichever bytes of its cluster's tiles the two access
(DESIGN CHOICE: notes/assumptions/58.md). -/
def State.memoryWaits (s : State) (t : Nat) (k : Fin 8) (i : Instr) : Bool := Instr.onTileMemory i && s.clusterTouched t k

/-- What a slot's fetch leads to, once the slot is the current one. -/
def State.issueFetched (s : State) (t : Nat) (k : Fin 8) : Fetch → Res
  | .sdc v => runEvent s fun st => st.endSdc t k v
  | .trap c v => runBody s fun _ => .error (.trap c v)
  | .run i =>
    if s.memoryWaits t k i then runBody s fun _ => .error (.wait .issue)
    else
      let r := exec i s
      if takesCycle (s.slot t k) t k r then onNext (fun s' => s'.noteIssue t k) r else r
  | .noEntry enc i => s.noEntry enc i

/-- The same state with a slot made the current one. -/
def State.curAt (s : State) (t : Nat) (k : Fin 8) : State := { s with cur := { tile := t, slot := k } }

/-- Whether a slot that may issue takes a pending event before its next instruction (07_control_registers.md R241). -/
def State.eventFor (s : State) (t : Nat) (k : Fin 8) : Option Instr :=
  if k = (s.tile t).supSlot then (s.tile t).eventRow t else none

/-- What the next instruction of a slot that may issue leads to. -/
def State.attempt (s : State) (t : Nat) (k : Fin 8) : Res :=
  (s.curAt t k).issueFetched t k ((s.tile t).fetch (s.slot t k).pc)

/-- Whether the next instruction of a slot that may issue would issue now. -/
def State.wouldIssue (s : State) (t : Nat) (k : Fin 8) : Bool := takesCycle (s.slot t k) t k (s.attempt t k)

/-- Whether a slot is ready: it may issue, and its next instruction can be accepted (R26). -/
def State.slotReady (s : State) (t : Nat) (k : Fin 8) : Bool := (s.slot t k).mayIssue && s.wouldIssue t k

/-- The slots a tile searches before slot `k` in free mode: those after the one that issued last (R28). -/
def Tile.slotsBefore (x : Tile) (k : Fin 8) : List (Fin 8) :=
  (List.range ((k.val + 7 - x.lastIssue.val) % 8)).map fun i => Fin.ofNat 8 (x.lastIssue.val + 1 + i)

/-- Whether the present cycle is one in which slot `k` may issue if it is ready: no slot has issued in it (R26); in strict
rotation slot `k` owns it (R29), in free mode no slot searched before is ready (R28). -/
def State.mayTake (s : State) (t : Nat) (k : Fin 8) : Bool :=
  let x := s.tile t
  decide (x.issuedAt ≠ some (s.cycle t)) &&
    (if x.strict then decide (s.cycle t % 8 = k.val) else (x.slotsBefore k).all fun j => !s.slotReady t j)

/-- A slot's turn: a pending event first; then its next instruction, which goes on where it has issued, waits, or issues where the
cycle is the slot's. A slot that may not issue changes nothing but the model's own current slot. -/
def State.issue (s : State) (t : Nat) (k : Fin 8) : Res :=
  if (s.slot t k).mayIssue then
    match s.eventFor t k with
    | some i => exec i (s.curAt t k)
    | none =>
      if s.wouldIssue t k && !s.mayTake t k then
        if s.dev.railUp then .next (s.curAt t k) else .fault .coreRailCut
      else s.attempt t k
  else if s.dev.railUp then .next (s.curAt t k) else .fault .coreRailCut

end

end Sys2Proof.Machine
end

