-- ==== Sys2Proof/Machine/Schedule.lean ====
section
/-!
DEFINITION. What a step does: the turn the agenda names, or what the default schedule chooses: an internal event that is
enabled, else the issue of a ready slot (01_machine.md R26-R29), else a cycle of time. Which internal event comes first,
and how long one takes, is timing; the manual leaves it open (DESIGN CHOICE: notes/assumptions/29.md).
-/
namespace Sys2Proof.Machine

noncomputable section

/-- The ends that have a fabric state of their own. -/
def State.listedEnds (s : State) : List Ep :=
  (s.tiles.map fun (p : Nat × Tile) => (⟨.tile, p.1⟩ : Ep)) ++ (s.edges.map fun (p : Nat × EdgeSt) => (⟨.edge, p.1⟩ : Ep)) ++
    (s.reels.map fun (p : Nat × ReelSt) => (⟨.reel, p.1⟩ : Ep))

/-- The rows a message in an end's inbox may be. -/
def inboxRows (e : Ep) (i : Nat) : List Instr :=
  [.done e i, .release e i, .nack e i, .tokens e i, .credit e i, .ended e i, .copy e i, .placed e i, .replyMessage e i,
   .homeAccess e i, .rupdApply e i, .farReply e i, .xlate e i,
   .probe e i, .grow e i, .spillClaimReply e i, .spillRead e i]
  ++ [.reelCreate e i, .reelJoin e i, .reelLeave e i, .reelArrive e i, .reelWait e i, .reelInfo e i, .reelStatus e i,
   .reelResult e i, .reelDepart e i, .reelMoved e i, .reelGang e i, .reelExpand e i]

/-- The rows of a memory server's channel pair. -/
def serverRows (e : Ep) (i : Nat) : List Instr := [.serverRead e i, .serverWrite e i, .serverZero e i]

/-- How many channel pairs an end serves. -/
def State.pairCount (s : State) (e : Ep) : Nat :=
  match e.kind with
  | .edge => (s.edge e.num).pairs.length
  | _ => 0

/-- The rows of an end: its messages, the memory server's requests, its executor, and what of its fragment layer has come due. -/
def State.endRows (s : State) (e : Ep) : List Instr :=
  let f := s.fab e
  (List.range f.inbox.length).flatMap (inboxRows e) ++ (List.range (s.pairCount e)).flatMap (serverRows e)
    ++ [.errandFrameExecution e]
    ++ (List.range f.held.length).map (.heldFragmentNack e ·)
    ++ (List.range f.bufs.length).map (.decodeDeadlineExpiry e ·)
    ++ (List.range f.filter.length).map (.filterEntryExpiry e ·)
    ++ (List.range f.shadow.length).map (.shadowTimerExpiry e ·)
    ++ (if e.kind = .tile then (List.range f.injHeld.length).map (.injectHoldRelease e.num ·) else [])

/-- The rows of a tile that come due by themselves. -/
def State.tileRows (s : State) (t : Nat) : List Instr :=
  (List.finRange 8).flatMap (fun k => [.watchdogPass t k, .timerExpiry t k, .probeLaunch t k])
    ++ (List.range (s.tile t).watch.length).map (.parkDeadlineExpiry t ·)
    ++ [.forwardingExpiry t, .tsWrap t, .gapRecord t, .traceDrain t]

/-- The rows of the host link's messages (01_machine.md R61-R70, 20_device.md R503) and of ASSIST_ANSWERs (R73). -/
def hostRows : List Instr :=
  [.assistAnswerTranslation, .assistAnswerGrowth, .assistAnswerReel, .assistAnswerLink, .assistAnswerDecode,
   .assistAnswerMigration, .launch, .abort, .captureStart, .captureStop, .manageCreate, .manageDestroy, .manageSetfield,
   .manageMap, .manageUnmap, .manageRebind, .manageRead, .manageBbclear, .manageHalt, .manageResume, .attest,
   .returnChannelRoom]

/-- The rows of a fragment on its way: it reaches its end, or a router on the way drops it. -/
def State.wireRows (s : State) (i : Nat) : List Instr :=
  match s.wire[i]? with
  | some f => [.routerFragment i f.hdr.src, .routerFragment i f.hdr.dst, .fragmentArrival i]
  | none => []

/-- The rows of links and page migrations that have come due. -/
def State.dueRows (s : State) : List Instr :=
  (s.links.flatMap fun (p : Nat × Link) =>
    match p.2.retrain with
    | some t => if t ≤ s.units then [.retrainComplete p.1] else []
    | none => [.linkStepUp p.1])
  ++ (List.range s.mgr.migs.length).flatMap fun i => [.migrationComplete i, .migrationCopy i]

/-- The internal events, in the order the default schedule tries them. What only the world decides (register rows driven
from outside, voltas and page migrations ordered, readings, margins, resets, the management interface) is not among
them: it comes by the agenda. -/
def State.rows (s : State) : List Instr :=
  [.boot, .unitEnd] ++ (List.range s.wire.length).flatMap s.wireRows ++ s.listedEnds.flatMap s.endRows
    ++ s.tiles.flatMap (fun (p : Nat × Tile) => s.tileRows p.1) ++ s.dueRows ++ hostRows

/-- What an event leads to, if it is enabled: a next state that differs. -/
def State.tryRow (s : State) (i : Instr) : Option Res :=
  match exec i s with
  | .next s' => if s' = s then none else some (.next s')
  | r => some r

/-- Whether an outcome is a next state that differs from `s`. -/
def goesOn (s : State) : Res → Bool
  | .next s' => decide (s' ≠ s)
  | _ => true

/-- The slot a tile turns to in the present cycle: one whose turn changes the state, searched in the order of R28. Such a
turn takes an event, begins a wait or goes on with one, or is the issue that R28 or R29 gives the cycle to. -/
def State.pickSlot (s : State) (t : Nat) : Option (Fin 8) :=
  ((List.range 8).map fun i => Fin.ofNat 8 ((s.tile t).lastIssue.val + 1 + i)).find? fun k =>
    goesOn (s.curAt t k) (s.issue t k)

/-- Units the default schedule lets go by at a time: a tile cycle at full rate. -/
def scanUnits : Nat := 60

/-- Whether a cycle of a tile has begun in the present pass: a throttled tile's cycles are longer than a pass. -/
def State.onCycle (s : State) (t : Nat) : Bool :=
  let c := s.clusters[s.clusterOf t]
  decide ((s.units - c.base) % Config.cycleUnits c.step < scanUnits)

/-- The next tile of the pass with a slot to turn to. -/
def State.pickIssue (s : State) : List (Nat × Tile) → Option (Nat × Fin 8)
  | [] => none
  | (t, _) :: r =>
    if s.scan ≤ t ∧ s.onCycle t = true then
      match s.pickSlot t with
      | some k => some (t, k)
      | none => s.pickIssue r
    else s.pickIssue r

/-- The default schedule's step. -/
def State.defaultTurn (s : State) : Res :=
  if s.dev.railUp = false then .fault .coreRailCut
  else
    match s.rows.findSome? s.tryRow with
    | some r => r
    | none =>
      match s.pickIssue s.tiles with
      | some (t, k) => onNext (fun s' => { s' with scan := t }) (s.issue t k)
      | none => .next { s.advance scanUnits with scan := 0 }

/-- Whether the agenda may name a row: an event row, and not the illegal encoding, which only a fetch meets. -/
def Instr.onAgenda (i : Instr) : Bool :=
  match i with
  | .illegal _ => false
  | j => j.isEvent

/-- A turn: time goes by, then a slot's turn or an event. -/
def State.turn (s : State) : Turn → Res
  | .issue dt t k => (s.advance dt).issue t k
  | .event dt i => if Instr.onAgenda i then exec i (s.advance dt) else .next (s.advance dt)

/-- A step's meaning. -/
def State.stepTurn (s : State) : Res :=
  match s.agenda with
  | [] => s.defaultTurn
  | a :: r => ({ s with agenda := r } : State).turn a

/-- An instruction's bytes, and the start bits the loader path gives it (03_encoding.md R111), placed in a tile at a
code address. -/
def Tile.placeWord (x : Tile) (a nbits w : Nat) : Tile :=
  let v := w % 2 ^ nbits
  { x with mem := Mem.store x.mem a 4 v, start := setBit (setBit x.start ((a - 0xD0000) / 2) true) ((a - 0xD0000) / 2 + 1) false,
           errs := 0, decTable := { x.decTable with image := [], failed := false } }

/-- Where the instruction goes: the slot's PC, or the start of code memory where the PC cannot hold one. -/
def Slot.placeAt (x : Slot) : Nat :=
  let a := x.pc.toNat
  if a % 2 = 0 ∧ 0xD0000 ≤ a ∧ a ≤ 0xDFFFC then a else 0xD0000

/-- The machine ready to issue an instruction placed at the current slot's PC. -/
def State.fetchWord (s : State) (nbits w : Nat) : State :=
  let t := s.cur.tile
  let k := s.cur.slot
  let s1 := s.modTile t fun x => x.placeWord x.slots[k].placeAt nbits w
  let s2 := s1.modSlot t k fun x =>
    { x with run := .running, pc := BitVec.ofNat 64 x.placeAt, pend := .none, wait := none }
  let s3 := s2.modTile t fun x => if k = x.supSlot then
      x.modSlot k fun y => { y with status := setBit y.status 1 false }
    else x
  let s4 := s3.modTile t fun x => { x with lastIssue := Fin.ofNat 8 (k.val + 7), issuedAt := none, strict := false }
  { s4 with agenda := [.issue 0 t k], dev := { s4.dev with railUp := true } }

end

end Sys2Proof.Machine
end

