-- ==== Sys2Proof/Machine/Step.lean ====
section
/-!
DEFINITION. One step of the machine, and an instruction placed where the step fetches.
-/
namespace Sys2Proof.Machine

noncomputable section

/-- One step. -/
def step (s : State) : Host.Outcome State Fault Refusal := s.stepTurn

/-- The machine with an instruction of the opcode table stored where `step` fetches next (DESIGN CHOICE: notes/assumptions/30.md). -/
def State.withFetchWord (s : State) (nbits w : Nat) : State := s.fetchWord nbits w

end

end Sys2Proof.Machine
end

