-- ==== Sys2Proof/Safety.lean ====
section
/-!
DEFINITION. What counts as a safe step: the machine goes on. The model's one fault is the cut core rail
(20_device.md R495); a refusal would be an instruction without a meaning.
-/
namespace Sys2Proof

/-- A step that goes on. -/
def StepSafe (s : Machine.State) : Prop := ∃ t, Machine.step s = .next t

/-- A machine whose core rail stays up over `k` steps from `s` goes on for all of them. -/
def SafeFor : Nat → Machine.State → Prop
  | 0, _ => True
  | k + 1, s => ∃ t, Machine.step s = .next t ∧ SafeFor k t

end Sys2Proof
end

