-- ==== Sys2Proof/Certificates/Slice0/Obligations.lean ====
section
/-!
DEFINITION. Statements for the provers.
-/
namespace Sys2Proof.Machine

noncomputable section

/-! ### Words used throughout -/

/-- The current slot runs, on a package whose core rail is up. -/
def Ready (s : State) : Prop := s.dev.railUp = true ∧ s.me.run = .running

/-- None of the register fields is a windowed operand (04_scalar_registers.md R144). -/
def Plain (s : State) (l : List (BitVec 5)) : Prop := ∀ n ∈ l, s.me.isWin n = false

/-- The state after an instruction of `len` bytes that completes with a change of the current slot: the PC has moved past
it and its wait, if any, is over. -/
def State.ended (s : State) (len : Nat) (f : Slot → Slot) : State :=
  s.updMe fun x => { f x with pc := x.pc + BitVec.ofNat 64 len, wait := none }

/-- The same with the PC at a target. -/
def State.endedAt (s : State) (target : Word) (f : Slot → Slot) : State :=
  s.updMe fun x => { f x with pc := target, wait := none }

/-! ### Scalar instructions (04_scalar_registers.md) -/

/-- The variant tables of R157 and R161 with R162, and C.MV and C.ADD of R117: an instruction, its length, d, s, t, and
its result from the values of s and t. -/
inductive TwoSource : Instr → Nat → BitVec 5 → BitVec 5 → BitVec 5 → (Word → Word → Word) → Prop
  | add t d a : TwoSource (.add t d a) 4 d a t fun x y => BitVec.ofNat 64 (x.toNat + y.toNat)
  | sub t d a : TwoSource (.sub t d a) 4 d a t fun x y => BitVec.ofInt 64 (x.toInt - y.toInt)
  | and t d a : TwoSource (.and t d a) 4 d a t fun x y => x &&& y
  | or t d a : TwoSource (.or t d a) 4 d a t fun x y => x ||| y
  | xor t d a : TwoSource (.xor t d a) 4 d a t fun x y => x ^^^ y
  | andn t d a : TwoSource (.andn t d a) 4 d a t fun x y => x &&& ~~~y
  | sll t d a : TwoSource (.sll t d a) 4 d a t fun x y => BitVec.ofNat 64 (x.toNat * 2 ^ (y.toNat % 64))
  | srl t d a : TwoSource (.srl t d a) 4 d a t fun x y => BitVec.ofNat 64 (x.toNat / 2 ^ (y.toNat % 64))
  | sra t d a : TwoSource (.sra t d a) 4 d a t fun x y => BitVec.ofInt 64 (x.toInt / 2 ^ (y.toNat % 64))
  | slt t d a : TwoSource (.slt t d a) 4 d a t fun x y => if x.toInt < y.toInt then 1 else 0
  | sltu t d a : TwoSource (.sltu t d a) 4 d a t fun x y => if x.toNat < y.toNat then 1 else 0
  | min t d a : TwoSource (.min t d a) 4 d a t fun x y => BitVec.ofInt 64 (Min.min x.toInt y.toInt)
  | max t d a : TwoSource (.max t d a) 4 d a t fun x y => BitVec.ofInt 64 (Max.max x.toInt y.toInt)
  | minu t d a : TwoSource (.minu t d a) 4 d a t fun x y => BitVec.ofNat 64 (Min.min x.toNat y.toNat)
  | maxu t d a : TwoSource (.maxu t d a) 4 d a t fun x y => BitVec.ofNat 64 (Max.max x.toNat y.toNat)
  | rol t d a : TwoSource (.rol t d a) 4 d a t fun x y => x <<< (y.toNat % 64) ||| x >>> (64 - y.toNat % 64)
  | rotr t d a : TwoSource (.rotr t d a) 4 d a t fun x y => x >>> (y.toNat % 64) ||| x <<< (64 - y.toNat % 64)
  | mul t d a : TwoSource (.mul t d a) 4 d a t fun x y => BitVec.ofNat 64 (x.toNat * y.toNat)
  | mulh t d a : TwoSource (.mulh t d a) 4 d a t fun x y => BitVec.ofInt 64 (x.toInt * y.toInt / 2 ^ 64)
  | mulhu t d a : TwoSource (.mulhu t d a) 4 d a t fun x y => BitVec.ofNat 64 (x.toNat * y.toNat / 2 ^ 64)
  | mulhsu t d a : TwoSource (.mulhsu t d a) 4 d a t fun x y => BitVec.ofInt 64 (x.toInt * (y.toNat : Int) / 2 ^ 64)
  | divu t d a : TwoSource (.divu t d a) 4 d a t fun x y =>
      if y = 0 then 0xFFFFFFFFFFFFFFFF else BitVec.ofNat 64 (x.toNat / y.toNat)
  | div t d a : TwoSource (.div t d a) 4 d a t fun x y =>
      if y = 0 then (if 0 ≤ x.toInt then 0x7FFFFFFFFFFFFFFF else 0x8000000000000000)
      else BitVec.ofInt 64 (Min.min (Int.tdiv x.toInt y.toInt) (2 ^ 63 - 1))
  | remu t d a : TwoSource (.remu t d a) 4 d a t fun x y => if y = 0 then x else BitVec.ofNat 64 (x.toNat % y.toNat)
  | rem t d a : TwoSource (.rem t d a) 4 d a t fun x y => if y = 0 then x else BitVec.ofInt 64 (Int.tmod x.toInt y.toInt)
  | cMv d a : TwoSource (.cMv d a) 2 d a 0 fun x _ => x
  | cAdd d a : TwoSource (.cAdd d a) 2 d d a fun x y => BitVec.ofNat 64 (x.toNat + y.toNat)
  | cNop : TwoSource .cNop 2 0 0 0 fun _ _ => 0

/-- The unary forms of R157, the immediate forms of R159 and C.ADDI of R117: an instruction, its length, d, s, and its
result from the value of s. -/
inductive OneSource : Instr → Nat → BitVec 5 → BitVec 5 → (Word → Word) → Prop
  | clz d a : OneSource (.clz d a) 4 d a fun x => BitVec.ofNat 64 (if x = 0 then 64 else 63 - x.toNat.log2)
  | ctz d a : OneSource (.ctz d a) 4 d a fun x =>
      BitVec.ofNat 64 (((List.range 64).find? fun n => x.getLsbD n).getD 64)
  | popc d a : OneSource (.popc d a) 4 d a fun x => BitVec.ofNat 64 ((List.range 64).countP fun n => x.getLsbD n)
  | rev8 d a : OneSource (.rev8 d a) 4 d a fun x =>
      x.extractLsb' 0 8 ++ x.extractLsb' 8 8 ++ x.extractLsb' 16 8 ++ x.extractLsb' 24 8 ++ x.extractLsb' 32 8
        ++ x.extractLsb' 40 8 ++ x.extractLsb' 48 8 ++ x.extractLsb' 56 8
  | sextB d a : OneSource (.sextB d a) 4 d a fun x => (x.setWidth 8).signExtend 64
  | sextH d a : OneSource (.sextH d a) 4 d a fun x => (x.setWidth 16).signExtend 64
  | sextW d a : OneSource (.sextW d a) 4 d a fun x => (x.setWidth 32).signExtend 64
  | addi i d a : OneSource (.addi i d a) 4 d a fun x => BitVec.ofInt 64 (x.toInt + i.toInt)
  | andi i d a : OneSource (.andi i d a) 4 d a fun x => x &&& BitVec.ofInt 64 i.toInt
  | ori i d a : OneSource (.ori i d a) 4 d a fun x => x ||| BitVec.ofInt 64 i.toInt
  | xori i d a : OneSource (.xori i d a) 4 d a fun x => x ^^^ BitVec.ofInt 64 i.toInt
  | slti i d a : OneSource (.slti i d a) 4 d a fun x => if x.toInt < i.toInt then 1 else 0
  | sltiu i d a : OneSource (.sltiu i d a) 4 d a fun x => if x.toNat < (BitVec.ofInt 64 i.toInt).toNat then 1 else 0
  | slli h d a : OneSource (.slli h d a) 4 d a fun x => BitVec.ofNat 64 (x.toNat * 2 ^ h.toNat)
  | srli h d a : OneSource (.srli h d a) 4 d a fun x => BitVec.ofNat 64 (x.toNat / 2 ^ h.toNat)
  | srai h d a : OneSource (.srai h d a) 4 d a fun x => BitVec.ofInt 64 (x.toInt / 2 ^ h.toNat)
  | cAddi d i : OneSource (.cAddi d i) 2 d d fun x => BitVec.ofInt 64 (x.toInt + i.toInt)

/-- LDHI, ADDPC and C.LDHI (R160, R117) and OXR (R167): an instruction without a g source, its length, d, and its result
in a state. -/
inductive NoSource : Instr → Nat → BitVec 5 → (State → Word) → Prop
  | ldhi i d : NoSource (.ldhi i d) 4 d fun _ => BitVec.ofInt 64 (i.toInt * 2 ^ 12)
  | addpc i d : NoSource (.addpc i d) 4 d fun s => BitVec.ofInt 64 (s.me.pc.toInt + i.toInt * 2 ^ 12)
  | cLdhi d i : NoSource (.cLdhi d i) 2 d fun _ => BitVec.ofInt 64 (i.toInt * 2 ^ 12)
  | oxr d a : NoSource (.oxr d a) 4 d fun s => s.e a

/-- A branch: its length, the fields s and t, its offset in halfwords, its condition (R163, R117). -/
inductive Branch : Instr → Nat → BitVec 5 → BitVec 5 → Int → (Word → Word → Bool) → Prop
  | beq o a t : Branch (.beq o a t) 4 a t o.toInt fun x y => decide (x = y)
  | bne o a t : Branch (.bne o a t) 4 a t o.toInt fun x y => decide (x ≠ y)
  | blt o a t : Branch (.blt o a t) 4 a t o.toInt fun x y => decide (x.toInt < y.toInt)
  | bge o a t : Branch (.bge o a t) 4 a t o.toInt fun x y => decide (y.toInt ≤ x.toInt)
  | bltu o a t : Branch (.bltu o a t) 4 a t o.toInt fun x y => decide (x.toNat < y.toNat)
  | bgeu o a t : Branch (.bgeu o a t) 4 a t o.toInt fun x y => decide (y.toNat ≤ x.toNat)
  | cBeqz d o : Branch (.cBeqz d o) 2 d 0 o.toInt fun x _ => decide (x = 0)
  | cBnez d o : Branch (.cBnez d o) 2 d 0 o.toInt fun x _ => decide (x ≠ 0)

/-- A jump: its length, its destination, its source if any, and its target from the PC and the source (R165, R166). -/
inductive Jump : Instr → Nat → BitVec 5 → BitVec 5 → (Word → Word → Word) → Prop
  | jal i d : Jump (.jal i d) 4 d 0 fun pc _ => BitVec.ofInt 64 (pc.toInt + 2 * i.toInt)
  | jalr i d a : Jump (.jalr i d a) 4 d a fun _ x => BitVec.ofInt 64 (x.toInt + i.toInt)
  | cJ o : Jump (.cJ o) 2 0 0 fun pc _ => BitVec.ofInt 64 (pc.toInt + 2 * o.toInt)


/-- R157, R161, R162, R117: an instruction of two register sources, none of its fields windowed, completes: its result,
by the variant table, is in d (nowhere when d is g0), the PC is past it, and nothing else of the machine changes. -/
def TwoSourceResult : Prop :=
  ∀ i len d a t f s, TwoSource i len d a t f → Ready s → Plain s [a, t, d] →
    exec i s = .next (s.ended len fun x => x.setG d (f (s.g a) (s.g t)))

/-- R157, R159, R117: the same for one register source. -/
def OneSourceResult : Prop :=
  ∀ i len d a f s, OneSource i len d a f → Ready s → Plain s [a, d] →
    exec i s = .next (s.ended len fun x => x.setG d (f (s.g a)))

/-- R160, R167: LDHI, ADDPC and OXR complete. -/
def NoSourceResult : Prop :=
  ∀ i len d f s, NoSource i len d f → Ready s → Plain s [d] →
    exec i s = .next (s.ended len fun x => x.setG d (f s))

/-- R167: OXL and OXM complete, and e[d] is all they write. -/
def ExtensionMoves : Prop :=
  ∀ s, Ready s →
    (∀ d a, Plain s [a] → exec (.oxl d a) s = .next (s.ended 4 fun x => x.setE d (s.g a))) ∧
    (∀ d a, exec (.oxm d a) s = .next (s.ended 4 fun x => x.setE d (s.e a)))

/-- R124: a hint and the 32-bit no-op move the PC and change no other architectural state. -/
def HintsDoNothing : Prop :=
  ∀ s, Ready s → exec .nop s = .next (s.ended 4 id) ∧ ∀ i j, exec (.hint i j) s = .next (s.ended 4 id)

/-- R163, R164: a branch whose condition is false goes on to the next instruction and checks nothing; one whose condition
is true goes to its target where CheckTarget passes, and traps with what CheckTarget gives where it does not. -/
def BranchResult : Prop :=
  ∀ i len a t o c s, Branch i len a t o c → Ready s → Plain s [a, t] →
    let target := BitVec.ofInt 64 (s.me.pc.toInt + 2 * o)
    (c (s.g a) (s.g t) = false → exec i s = .next (s.ended len id)) ∧
    (c (s.g a) (s.g t) = true → s.myTile.checkTarget target = none → exec i s = .next (s.endedAt target id)) ∧
    (∀ k v, c (s.g a) (s.g t) = true → s.myTile.checkTarget target = some (k, v) →
      exec i s = .next (s.trapAt k v s.me.pc))

/-- R165, R166: a jump whose target passes CheckTarget writes the link and goes there; the target is formed before the
link is written. -/
def JumpResult : Prop :=
  ∀ i len d a f s, Jump i len d a f → Ready s → Plain s [a, d] →
    let target := f s.me.pc (s.g a)
    (s.myTile.checkTarget target = none →
      exec i s = .next (s.endedAt target fun x => x.setG d (s.me.pc + BitVec.ofNat 64 len))) ∧
    (∀ k v, s.myTile.checkTarget target = some (k, v) →
      exec i s = .next (s.trapAt k v s.me.pc))
/-! ### The port window (04_scalar_registers.md R146-R150) -/

/-- The wait of the current slot is over; what an instruction's own effect leaves, made final. -/
def State.done (s : State) : State := s.updMe fun x => { x with wait := none }

/-- A state whose instruction at code offset `off` has read poison, or has not (07_control_registers.md R244). -/
def State.noted (s : State) (off : Nat) (psn : Bool) : State := if psn then s.consumePoison off else s

/-- The loads of R273 and C.LD: an instruction, its length, bytes read, how they are extended, offset, d, base. -/
inductive LoadForm : Instr → Nat → Nat → (Nat → Word) → Int → BitVec 5 → BitVec 5 → Prop
  | ldB i d a : LoadForm (.ldB i d a) 4 1 (fun v => (BitVec.ofNat 8 v).signExtend 64) i.toInt d a
  | ldH i d a : LoadForm (.ldH i d a) 4 2 (fun v => (BitVec.ofNat 16 v).signExtend 64) i.toInt d a
  | ldW i d a : LoadForm (.ldW i d a) 4 4 (fun v => (BitVec.ofNat 32 v).signExtend 64) i.toInt d a
  | ldD i d a : LoadForm (.ldD i d a) 4 8 (fun v => BitVec.ofNat 64 v) i.toInt d a
  | ldBu i d a : LoadForm (.ldBu i d a) 4 1 (fun v => BitVec.ofNat 64 v) i.toInt d a
  | ldHu i d a : LoadForm (.ldHu i d a) 4 2 (fun v => BitVec.ofNat 64 v) i.toInt d a
  | ldWu i d a : LoadForm (.ldWu i d a) 4 4 (fun v => BitVec.ofNat 64 v) i.toInt d a
  | ldAcq i d a : LoadForm (.ldAcq i d a) 4 8 (fun v => BitVec.ofNat 64 v) i.toInt d a
  | cLd d i : LoadForm (.cLd d i) 2 8 (fun v => BitVec.ofNat 64 v) (8 * (i.toNat : Int)) d 2

/-- The stores of R273 and C.ST: an instruction, its length, bytes written, offset, data, base. -/
inductive StoreForm : Instr → Nat → Nat → Int → BitVec 5 → BitVec 5 → Prop
  | stB i d a : StoreForm (.stB i d a) 4 1 i.toInt d a
  | stH i d a : StoreForm (.stH i d a) 4 2 i.toInt d a
  | stW i d a : StoreForm (.stW i d a) 4 4 i.toInt d a
  | stD i d a : StoreForm (.stD i d a) 4 8 i.toInt d a
  | stRel i d a : StoreForm (.stRel i d a) 4 8 i.toInt d a
  | cSt d i : StoreForm (.cSt d i) 2 8 (8 * (i.toNat : Int)) d 2

/-- The effective address: base plus offset, modulo 2^64 (R273). -/
def effAddr (s : State) (a : BitVec 5) (off : Int) : Word := BitVec.ofInt 64 ((s.g a).toInt + off)

/-- The instructions of the windowed groups (R144) with the registers they read, in the order s, t, d, and the one they write. -/
inductive Windowed : Instr → List (BitVec 5) → Option (BitVec 5) → Prop
  | two i len d a t f : TwoSource i len d a t f → Windowed i [a, t] (some d)
  | one i len d a f : OneSource i len d a f → Windowed i [a] (some d)
  | none i len d f : NoSource i len d f → Windowed i [] (some d)
  | branch i len a t o c : Branch i len a t o c → Windowed i [a, t] none
  | jal m d : Windowed (.jal m d) [] (some d)
  | jalr m d a : Windowed (.jalr m d a) [a] (some d)
  | oxl d a : Windowed (.oxl d a) [a] none
  | load i len n ext off d a : LoadForm i len n ext off d a → Windowed i [a] (some d)
  | store i len n off d a : StoreForm i len n off d a → Windowed i [a, d] none

/-- The field is windowed and its port is bound to the receive end `e` at index `j` of the endpoint table. -/
def WinRecv (s : State) (n : BitVec 5) (j : Nat) (e : RecvEnd) : Prop :=
  s.me.isWin n = true ∧ s.recvAtPort (portOf n) = some (j, e)

/-- The field is windowed and its port is bound to the send end `e`, open and not told that its consumer has ended. -/
def WinSend (s : State) (n : BitVec 5) (j : Nat) (e : SendEnd) : Prop :=
  s.me.isWin n = true ∧ s.sendAtPort (portOf n) = some (j, e) ∧ e.state = .open ∧ e.noticed = false


/-- R146, R147, R149, R153: a windowed source takes the first token of its port, two windowed sources of one port take
its first two tokens in the order s, then t; a read that meets the end token of a channel without its trap-on-end bit
gives 0, takes nothing and sets STATUS.EOS. -/
def WindowReceive : Prop :=
  ∀ i len d a t f s j e, TwoSource i len d a t f → Ready s → WinRecv s a j e → Plain s [d] →
    (∀ v psn, Plain s [t] → 0 < e.avail 1 → e.tokenAt s.myTile.mem 0 = (v, psn) →
      exec i s = .next (((((s.adv len).takeTokens s.cur.tile j e 1).noted s.pcOff psn).setG d (f v (s.g t))).done)) ∧
    (∀ v w p q, t = a → 1 < e.avail 2 → e.tokenAt s.myTile.mem 0 = (v, p) → e.tokenAt s.myTile.mem 1 = (w, q) →
      exec i s = .next (((((s.adv len).takeTokens s.cur.tile j e 2).noted s.pcOff (p || q)).setG d (f v w)).done)) ∧
    (Plain s [t] → e.avail 1 = 0 → e.endAfter 0 = true → e.toe = false →
      exec i s = .next (((((s.adv len).setEnd s.cur.tile j (.recv e.metEnd)).setEos).setG d (f 0 (s.g t))).done))

/-- R146, R147, R151: a windowed destination sends the result as one token, using a credit, once the slot's earlier updates and
errand frames are performed, and no g register changes. -/
def WindowSend : Prop :=
  ∀ i len d a t f s j e, TwoSource i len d a t f → Ready s → Plain s [a, t] → WinSend s d j e → 0 < e.credits → s.released = true →
    exec i s = .next (((s.adv len).putTokens s.cur.tile j e [(f (s.g a) (s.g t), false)]).done)

/-- R144, R146, R147, R151: the same in the other windowed groups: an operation of one source, OXL, a branch, JALR, a load's base,
a store's base or its data takes its value from the port; and an operation of one source or none, a jump's link, a
load sends its result, a load's with the poison it read. -/
def WindowForms : Prop :=
  ∀ (s : State) n j, Ready s →
    (∀ e v psn, WinRecv s n j e → 0 < e.avail 1 → e.tokenAt s.myTile.mem 0 = (v, psn) →
      let took := fun (t : State) => (t.takeTokens s.cur.tile j e 1).noted s.pcOff psn
      (∀ i len d f, OneSource i len d n f → Plain s [d] → exec i s = .next (((took (s.adv len)).setG d (f v)).done)) ∧
      (∀ d, exec (.oxl d n) s = .next ((took ((s.adv 4).updMe fun x => x.setE d v)).done)) ∧
      (∀ i len t o c, Branch i len n t o c → Plain s [t] →
        let target := BitVec.ofInt 64 (s.me.pc.toInt + 2 * o)
        (c v (s.g t) = false → exec i s = .next ((took (s.adv len)).done)) ∧
        (c v (s.g t) = true → s.myTile.checkTarget target = none →
          exec i s = .next ((took (s.updMe fun x => { x with pc := target })).done))) ∧
      (∀ m d, Plain s [d] → let target := BitVec.ofInt 64 (v.toInt + BitVec.toInt m)
        s.myTile.checkTarget target = none →
        exec (.jalr m d n) s = .next (((took (s.updMe fun x => { x with pc := target })).setG d (s.me.pc + 4)).done)) ∧
      (∀ i len b ext off d u o, LoadForm i len b ext off d n → Plain s [d] → let x := BitVec.ofInt 64 (v.toInt + off)
        s.scalarCheck false x b = .ok (.tile u o) → o < 0xE0000 → (s.tile u).errs = 0 →
        exec i s = .next (((took (((s.crossed x).noted s.pcOff ((s.tile u).poisonAt o b)).adv len)).setG d
          (ext (Mem.load (s.tile u).mem o b))).done)) ∧
      (∀ i len b off d a base data u o, StoreForm i len b off d a → ((∃ x y z, i = .stRel x y z) → s.released = true) →
        (a = n ∧ Plain s [d] ∧ base = v ∧ data = s.g d) ∨ (d = n ∧ Plain s [a] ∧ base = s.g a ∧ data = v) →
        let x := BitVec.ofInt 64 (BitVec.toInt base + off)
        s.scalarCheck true x b = .ok (.tile u o) → o < 0xE0000 →
        exec i s = .next ((took (((s.crossed x).slotWrite s.cur.tile u o (toBytes b (BitVec.toNat data)) false).adv len)).done))) ∧
    (∀ e, WinSend s n j e → 0 < e.credits → s.released = true →
      let sent := fun (t : State) (v : Word) psn => (t.putTokens s.cur.tile j e [(v, psn)]).done
      (∀ i len a f, OneSource i len n a f → Plain s [a] → exec i s = .next (sent (s.adv len) (f (s.g a)) false)) ∧
      (∀ i len f, NoSource i len n f → exec i s = .next (sent (s.adv len) (f s) false)) ∧
      (∀ i len a f, Jump i len n a f → Plain s [a] → let target := f s.me.pc (s.g a)
        s.myTile.checkTarget target = none →
        exec i s = .next (sent (s.updMe fun x => { x with pc := target }) (s.me.pc + BitVec.ofNat 64 len) false)) ∧
      (∀ i len b ext off a u o, LoadForm i len b ext off n a → Plain s [a] → let x := effAddr s a off
        s.scalarCheck false x b = .ok (.tile u o) → o < 0xE0000 → (s.tile u).errs = 0 →
        exec i s = .next (sent (((s.crossed x).noted s.pcOff ((s.tile u).poisonAt o b)).adv len)
          (ext (Mem.load (s.tile u).mem o b)) ((s.tile u).poisonAt o b))))

/-- R147, R148, R149, R150: in every windowed group, a windowed read waits while its port holds neither a token nor the end token, taking nothing;
a windowed write waits while its channel is full, and then while an update or errand frame of the slot is still to be
performed (R151; 09_memory_ordering.md R316); an unbound port, and an end token at a port whose trap-on-end bit is
set, raise CHANNEL_BROKEN with EVAL 0x100 + p. -/
def WindowStops : Prop :=
  ∀ i rs d s, Windowed i rs d → Ready s →
    let alone := fun n => rs.filter s.me.isWin = [n] ∧ ∀ x, d = some x → s.me.isWin x = false
    (∀ n j e, WinRecv s n j e → alone n → e.avail 1 = 0 → e.endAfter 0 = false → e.spilled = [] →
      exec i s = .next (s.block (.recv [(j, 1)]))) ∧
    (∀ n j e, d = some n → Plain s rs → WinSend s n j e → e.credits = 0 → exec i s = .next (s.block (.send j 1 []))) ∧
    (∀ n j e, d = some n → Plain s rs → WinSend s n j e → 0 < e.credits → s.released = false → exec i s = .next (s.block .issue)) ∧
    (∀ n, rs.find? s.me.isWin = some n → s.recvAtPort (portOf n) = none →
      exec i s = .next (s.trapAt 0x10 (0x100 + (portOf n).setWidth 64) s.me.pc)) ∧
    (∀ n, d = some n → Plain s rs → s.me.isWin n = true → s.sendAtPort (portOf n) = none →
      exec i s = .next (s.trapAt 0x10 (0x100 + (portOf n).setWidth 64) s.me.pc)) ∧
    (∀ n j e, WinRecv s n j e → alone n → e.avail 1 = 0 → e.endAfter 0 = true → e.toe = true →
      exec i s = .next ((s.setEnd s.cur.tile j (.recv e.metEnd)).trapAt 0x10 (0x100 + (portOf n).setWidth 64) s.me.pc))

/-- R329, R330, R331 (10_channels.md): taking `n` present tokens of an end that has spilled nothing moves its next token
by `n` and forgets those `n`, and no register of any slot changes. -/
def TokensTaken : Prop :=
  ∀ (s : State) j e n, 0 < n → mapFind s.myTile.ends j = some (.recv e) → e.early = [] → e.spilled = [] → e.ahead = [] →
    let t := s.takeTokens s.cur.tile j e n
    mapFind t.myTile.ends j = some (.recv (e.taken n)) ∧
    (∀ u k, t.slot u k = s.slot u k) ∧ ∀ u, (t.tile u).mem = (s.tile u).mem
/-! ### Traps, control registers and the system instructions (07_control_registers.md) -/

/-- What an update of the current slot's own context leaves: every other slot, and every byte of every memory. -/
def OnlyMe (s t : State) : Prop :=
  (∀ n k, n ≠ s.cur.tile ∨ k ≠ s.cur.slot → t.slot n k = s.slot n k) ∧
  (∀ n a, Mem.read (t.tile n).mem a = Mem.read (s.tile n).mem a) ∧
  (∀ a, Mem.read t.dram a = Mem.read s.dram a) ∧ (∀ a, Mem.read t.host a = Mem.read s.host a) ∧
  t.vec = s.vec

/-- The trap of the current slot runs the handler TVEC names: TD is clear, TVEC passes the checks of R164, and the tile's
supervisor is not the firmware's default one. -/
def HandlerRuns (s : State) : Prop :=
  s.me.td = false ∧ s.myTile.checkTarget s.me.tvec = none ∧ s.myTile.defSup = false

/-- The registers of the slot at trap entry with cause `c`, value `v` and return address `a` (R238). -/
structure TrapEntered (s t : State) (c : BitVec 8) (v a : Word) : Prop where
  saved : bits t.me.status 24 16 = bits s.me.status 8 0
  pw : t.me.pw = false
  ie : t.me.ie = false
  td : t.me.td = true
  prv : t.me.prv = max s.me.prv 1
  eos : bit t.me.status 8 = bit s.me.status 8
  pending : bits t.me.status 63 25 = bits s.me.status 63 25
  cause : t.me.cause = c.setWidth 64
  eval : t.me.eval = v
  epc : t.me.epc = a
  pc : t.me.pc = s.me.tvec
  run : t.me.run = s.me.run
  g : ∀ n, t.me.getG n = s.me.getG n
  e : ∀ n, t.me.getE n = s.me.getE n
  tvec : t.me.tvec = s.me.tvec
  scratch : t.me.scratch = s.me.scratch
  cir : t.me.cir = s.me.cir
  wdog : t.me.wdog = s.me.wdog ∧ t.me.wdlim = s.me.wdlim
  ident : t.me.pid = s.me.pid ∧ t.me.netid = s.me.netid ∧ t.me.tenant = s.me.tenant ∧ t.me.prio = s.me.prio
  rest : OnlyMe s t

/-- The control registers that a CTL instruction of the slot may read at its level (R233). -/
def Readable (s : State) (n : Nat) : Prop :=
  ∃ r w, cregLevels n = some (r, w) ∧ r ≤ s.me.prv ∧ (0x010 ≤ n → n ≤ 0x014 → s.cur.slot.val < 2)

/-- The control registers that it may write (R233, R232, R184). -/
def Writable (s : State) (n : Nat) : Prop :=
  ∃ r l, cregLevels n = some (r, some l) ∧ l ≤ s.me.prv ∧ (0x010 ≤ n → n ≤ 0x014 → s.cur.slot.val < 2) ∧
    (n = 0x013 → s.vec.bad = false)

/-- The CTL instructions (R237): the register named, whether it is read and whether it is written. -/
inductive CtlForm : Instr → BitVec 12 → Bool → Bool → Prop
  | ctlr c d : CtlForm (.ctlr c d) c true false
  | ctlw c a : CtlForm (.ctlw c a) c false true
  | ctls c d a : CtlForm (.ctls c d a) c true true
  | ctlc c d a : CtlForm (.ctlc c d a) c true true


/-- R238: a trap saves STATUS [8:0], clears PW and IE, sets TD, raises PRV to S, writes CAUSE, EVAL and EPC, and goes to
the handler; it writes no g or e register, no byte of memory and no other slot. -/
def TrapEntry : Prop :=
  ∀ s c v a, HandlerRuns s → TrapEntered s (s.trapAt c v a) c v a

/-- R238, R506: with TD = 1, or with a handler address that fails the checks of R164, no handler runs: in a slot other than
the supervisor slot the slot stops, its PC, STATUS and registers stay those of the trapping instruction when TD was 1, the
process placed there is to end with the cause, and the die's ring has one entry more. -/
def DoubleFault : Prop :=
  ∀ (s : State) (c : BitVec 8) (v a : Word), s.cur.slot ≠ s.myTile.supSlot → s.myTile.defSup = false → s.me.run = .running →
    (s.me.td = true ∨ s.myTile.checkTarget s.me.tvec ≠ none) →
    let t := s.trapAt c v a
    t.me.run = .stopped ∧ (s.me.td = true → t.me.pc = s.me.pc ∧ t.me.status = s.me.status) ∧
    (∀ n, t.me.getG n = s.me.getG n) ∧
    (t.bbox[s.dieOfEp ⟨.tile, s.cur.tile⟩]).count = (s.bbox[s.dieOfEp ⟨.tile, s.cur.tile⟩]).count + 1 ∧
    ∀ p, s.procAt s.cur.tile s.cur.slot.val = some p →
      ∃ r, t.mgr.ends = s.mgr.ends ++ [r] ∧ r.pid = some p.pid ∧ r.netid = p.netid ∧ r.cause = c ∧ r.eval = v ∧ r.fault = true

/-- R243, R244, R123: TRAP enters the handler with SYSCALL, its code in EVAL and the next instruction in EPC; BKPT with
BREAK and itself in EPC; an unassigned encoding with ILLEGAL and the encoding in EVAL; CHKERR with POISON and CIR in EVAL
when CIR.PSN is set, and it goes on otherwise. -/
def TrapInstructions : Prop :=
  ∀ s, Ready s → HandlerRuns s →
    (∀ n, ∃ t, exec (.trap n) s = .next t ∧ TrapEntered s t 0x18 (n.setWidth 64) (s.me.pc + 4)) ∧
    (∃ t, exec .bkpt s = .next t ∧ TrapEntered s t 0x0E 0 s.me.pc) ∧
    (∀ w, ∃ t, exec (.illegal w) s = .next t ∧ TrapEntered s t 0x01 (w.setWidth 64) s.me.pc) ∧
    (bit s.me.cir 0 = true → ∃ t, exec .chkerr s = .next t ∧ TrapEntered s t 0x0B s.me.cir (s.me.pc + 4)) ∧
    (bit s.me.cir 0 = false → exec .chkerr s = .next (s.ended 4 id))

/-- R314, R315 (09_memory_ordering.md): a FENCE of an assigned scope moves the PC and changes nothing else once the slot has no
RUPD unapplied and no errand without its REPLY; one that orders earlier writes waits until then. A scope above 4 raises
ILLEGAL. -/
def FenceResult : Prop :=
  ∀ (s : State) (p : BitVec 3) (k : BitVec 4), Ready s →
    (p.toNat ≤ 4 → (bits k 1 0 = 0 ∨ (s.me.rupds = [] ∧ s.me.errOut = [])) → exec (.fence p k) s = .next (s.ended 4 id)) ∧
    (p.toNat ≤ 4 → bits k 1 0 ≠ 0 → (s.me.rupds ≠ [] ∨ s.me.errOut ≠ []) →
      exec (.fence p k) s = .next (s.block .issue)) ∧
    (4 < p.toNat → ∃ v, exec (.fence p k) s = .next (s.trapAt 0x01 v s.me.pc))

/-- R233, R237: CTLR of a register the slot may read writes its value to d; CTLW of one it may write passes the value of s
through the register's write rule; CTLS and CTLC read the old value into d and write it with the bits of s set or
cleared. -/
def ControlRegisters : Prop :=
  ∀ (s : State) (c : BitVec 12) (d a : BitVec 5), Ready s →
    let old := s.creg s.cur.tile s.cur.slot c.toNat
    let put := fun v => s.cregWrite s.cur.tile s.cur.slot s.me.prv c.toNat v
    (Readable s c.toNat → exec (.ctlr c d) s = .next (s.ended 4 fun x => x.setG d old)) ∧
    (Writable s c.toNat → exec (.ctlw c a) s = .next (((put (s.g a)).adv 4).done)) ∧
    (Readable s c.toNat → Writable s c.toNat →
      exec (.ctls c d a) s = .next ((((put (old ||| s.g a)).setG d old).adv 4).done) ∧
      exec (.ctlc c d a) s = .next ((((put (old &&& ~~~ s.g a)).setG d old).adv 4).done))

/-- R231, R232, R237, R184: each of the four CTL instructions raises ILLEGAL where the table lacks its register, where it is a vector register and the
slot is one of 2 to 7, and where it writes VL while VT.BAD is set; else PRIVILEGE below the level of a column it
uses, or where it writes and the column has none; EVAL is its encoding, and nothing is read or written. -/
def ControlRegisterTraps : Prop :=
  ∀ i c rd wr (s : State) bits w, CtlForm i c rd wr → Ready s → encodeWord i = some (bits, w) →
    let ill := cregLevels (BitVec.toNat c) = none ∨ (0x010 ≤ c.toNat ∧ c.toNat ≤ 0x014 ∧ 2 ≤ s.cur.slot.val) ∨
      (wr = true ∧ c.toNat = 0x013 ∧ s.vec.bad = true)
    (ill → exec i s = .next (s.trapAt 0x01 (BitVec.ofNat 64 w) s.me.pc)) ∧
    ∀ r l, ¬ill → cregLevels c.toNat = some (r, l) →
      (rd = true ∧ s.me.prv < r) ∨ (wr = true ∧ ∀ p, l = some p → s.me.prv < p) →
      exec i s = .next (s.trapAt 0x03 (BitVec.ofNat 64 w) s.me.pc)

/-- R478 (15_program_int8_product.md): on a tile whose supervisor is the firmware's default one, SYSCALL 0 in another slot ends
the process placed there without a fault, and any other trap ends it with that cause as a terminal fault; the slot stops in
both. -/
def DefaultSupervisor : Prop :=
  ∀ (s : State) (c : BitVec 8) (v a : Word) (p : Proc), s.cur.slot ≠ s.myTile.supSlot → s.myTile.defSup = true →
    s.me.run = .running → s.me.td = false → s.procAt s.cur.tile s.cur.slot.val = some p →
    let t := s.trapAt c v a
    t.me.run = .stopped ∧
      ∃ r, t.mgr.ends = s.mgr.ends ++ [r] ∧ r.pid = some p.pid ∧ r.netid = p.netid ∧ r.cause = c ∧ r.eval = v ∧
        (r.fault = false ↔ c = 0x18 ∧ v = 0)
/-! ### Loads, stores and far instructions (08_memories.md) -/

/-- What a store of `n` bytes of `v` at offset `off` of tile `u` leaves of memory: its bytes, least significant first, and
every other byte of every memory as it was. -/
def Stored (s t : State) (u off n : Nat) (v : Word) : Prop :=
  (∀ w x, Mem.read (t.tile w).mem x =
    if w = u ∧ off ≤ x ∧ x < off + n then BitVec.ofNat 8 (v.toNat / 256 ^ (x - off)) else Mem.read (s.tile w).mem x) ∧
  (∀ x, Mem.read t.dram x = Mem.read s.dram x) ∧ ∀ x, Mem.read t.host x = Mem.read s.host x

/-- The far instructions that wait for a reply (R277): an instruction, its access size, the request's operation code and words
after the address by the state, the register that names the address, and its result from the value the reply carries. -/
inductive FarWait : Instr → Nat → Nat → (State → List Word) → BitVec 5 → Option (BitVec 5) → (Word → Word) → Prop
  | ldf w d a : FarWait (.ldf w 0 d a) (2 ^ w.toNat) 1 (fun _ => [0, 0]) a (some d)
      fun v => BitVec.ofInt 64 (signExtend v.toNat (8 * 2 ^ w.toNat))
  | ldfu w d a : FarWait (.ldf w 1 d a) (2 ^ w.toNat) 1 (fun _ => [0, 0]) a (some d)
      fun v => BitVec.ofNat 64 (v.toNat % 2 ^ (8 * 2 ^ w.toNat))
  | stf t w a : FarWait (.stf t w a) (2 ^ w.toNat) 2 (fun s => [0, 0, s.g t]) a none id
  | add t w d a : FarWait (.amoAdd t w d a) (amoSize w) 5 (fun s => [0, s.g t, s.g d]) a (some d)
      fun v => BitVec.ofInt 64 (signExtend v.toNat (8 * amoSize w))
  | swap t w d a : FarWait (.amoSwap t w d a) (amoSize w) 5 (fun s => [1, s.g t, s.g d]) a (some d)
      fun v => BitVec.ofInt 64 (signExtend v.toNat (8 * amoSize w))
  | cas t w d a : FarWait (.amoCas t w d a) (amoSize w) 5 (fun s => [2, s.g t, s.g d]) a (some d)
      fun v => BitVec.ofInt 64 (signExtend v.toNat (8 * amoSize w))
  | min t w d a : FarWait (.amoMin t w d a) (amoSize w) 5 (fun s => [3, s.g t, s.g d]) a (some d)
      fun v => BitVec.ofInt 64 (signExtend v.toNat (8 * amoSize w))
  | max t w d a : FarWait (.amoMax t w d a) (amoSize w) 5 (fun s => [4, s.g t, s.g d]) a (some d)
      fun v => BitVec.ofInt 64 (signExtend v.toNat (8 * amoSize w))
  | minu t w d a : FarWait (.amoMinu t w d a) (amoSize w) 5 (fun s => [5, s.g t, s.g d]) a (some d)
      fun v => BitVec.ofInt 64 (signExtend v.toNat (8 * amoSize w))
  | maxu t w d a : FarWait (.amoMaxu t w d a) (amoSize w) 5 (fun s => [6, s.g t, s.g d]) a (some d)
      fun v => BitVec.ofInt 64 (signExtend v.toNat (8 * amoSize w))
  | and t w d a : FarWait (.amoAnd t w d a) (amoSize w) 5 (fun s => [7, s.g t, s.g d]) a (some d)
      fun v => BitVec.ofInt 64 (signExtend v.toNat (8 * amoSize w))
  | or t w d a : FarWait (.amoOr t w d a) (amoSize w) 5 (fun s => [8, s.g t, s.g d]) a (some d)
      fun v => BitVec.ofInt 64 (signExtend v.toNat (8 * amoSize w))
  | xor t w d a : FarWait (.amoXor t w d a) (amoSize w) 5 (fun s => [9, s.g t, s.g d]) a (some d)
      fun v => BitVec.ofInt 64 (signExtend v.toNat (8 * amoSize w))
  | fadd t d a : FarWait (.amoFadd t d a) 4 5 (fun s => [10, s.g t, s.g d]) a (some d)
      fun v => BitVec.ofInt 64 (signExtend v.toNat 32)

/-- The RUPDs (R276, R278): an instruction, its size, its OP, its operand, the register that names the address. -/
inductive Rupd : Instr → Nat → Nat → BitVec 5 → BitVec 5 → Prop
  | add t w a : Rupd (.rupdAdd t w a) (amoSize w) 0 t a
  | min t w a : Rupd (.rupdMin t w a) (amoSize w) 3 t a
  | max t w a : Rupd (.rupdMax t w a) (amoSize w) 4 t a
  | minu t w a : Rupd (.rupdMinu t w a) (amoSize w) 5 t a
  | maxu t w a : Rupd (.rupdMaxu t w a) (amoSize w) 6 t a
  | and t w a : Rupd (.rupdAnd t w a) (amoSize w) 7 t a
  | or t w a : Rupd (.rupdOr t w a) (amoSize w) 8 t a
  | xor t w a : Rupd (.rupdXor t w a) (amoSize w) 9 t a
  | fadd t a : Rupd (.rupdFadd t a) 4 10 t a

/-- A far address aligned to `n` bytes, and its far virtual address (R255, R257). -/
def FarAddr (x : Word) (n va : Nat) : Prop := x.toNat = 2 ^ 63 + va ∧ va < 2 ^ 57 ∧ x.toNat % n = 0

/-- R363 lets the current slot put another message of a class on the wire (11_fragments_and_errands.md). -/
def MaySend (s : State) (cls : Nat) : Prop :=
  s.myTile.fab.awaiting ⟨.tile, s.cur.tile⟩ s.cur.slot.val cls < 32768

/-- What a slot's registers and every memory keep over an instruction that writes at most register `d`. -/
def RegsKept (s t : State) (d : Option (BitVec 5)) : Prop :=
  (∀ n, some n ≠ d → t.me.getG n = s.me.getG n) ∧ (∀ n, t.me.getE n = s.me.getE n) ∧ t.me.status = s.me.status ∧
  t.me.cause = s.me.cause ∧ t.me.epc = s.me.epc ∧ t.me.eval = s.me.eval ∧ t.me.tvec = s.me.tvec ∧
  t.me.scratch = s.me.scratch ∧ t.me.run = s.me.run ∧ t.vec = s.vec ∧
  (∀ w x, Mem.read (t.tile w).mem x = Mem.read (s.tile w).mem x) ∧
  (∀ x, Mem.read t.dram x = Mem.read s.dram x) ∧ ∀ x, Mem.read t.host x = Mem.read s.host x

/-- The slot has sent one request on its implicit channel to the station at the foot of the tile's column, with these words
(R271; 10_channels.md R355). -/
def Asked (s t : State) (words : List Word) : Prop :=
  ∃ m, t.myTile.fab.shadow = s.myTile.fab.shadow ++ [m] ∧ m.msg.payload = ofWords words ∧
    m.msg.hdr.stream = .implicitReq ∧ m.msg.hdr.dst = s.footOf s.cur.tile ∧ m.msg.hdr.slot = s.cur.slot.val


/-- R255, R257, R258: where a scalar access of `n` = 1, 2, 4 or 8 bytes at a local address goes: an aligned one to scratchpad or
scalar data memory reaches the issuing tile's own byte; a read of code memory too, a write of it raises ADDRESS_FORM;
tile control raises PRIVILEGE at P, ADDRESS_FORM at S and F for fewer than 8 bytes; the rest of the map and every other
address of form 0b00 or 0b11 raises ADDRESS_FORM; a misaligned address of the map raises MISALIGN first. -/
def LocalAccess : Prop :=
  ∀ (s : State) (write : Bool) (x : Word) (n : Nat), n ∈ [1, 2, 4, 8] →
    (x.toNat < 0xD0000 → x.toNat % n = 0 → s.scalarCheck write x n = .ok (.tile s.cur.tile x.toNat)) ∧
    (0xD0000 ≤ x.toNat → x.toNat < 0xE0000 → x.toNat % n = 0 →
      s.scalarCheck write x n = if write then .error (0x05, x) else .ok (.tile s.cur.tile x.toNat)) ∧
    (0xE0000 ≤ x.toNat → x.toNat < 0xF0000 → x.toNat % n = 0 →
      s.scalarCheck write x n = if s.me.prv = 0 then .error (0x03, x)
        else if n = 8 then .ok (.tile s.cur.tile x.toNat) else .error (0x05, x)) ∧
    (0xF0000 ≤ x.toNat → x.toNat < 0x100000 → x.toNat % n = 0 → s.scalarCheck write x n = .error (0x05, x)) ∧
    (x.toNat < 0x100000 → x.toNat % n ≠ 0 → s.scalarCheck write x n = .error (0x04, x)) ∧
    (0x100000 ≤ x.toNat → x.toNat < 2 ^ 62 → s.scalarCheck write x n = .error (0x05, x)) ∧
    (2 ^ 62 + 2 ^ 28 ≤ x.toNat → s.scalarCheck write x n = .error (0x05, x))

/-- R255, R257, R259: an aligned scalar access through a cluster window reaches the scratchpad of the tile the index names; an
index that names no tile, and an offset past 0xC_0000, raise CLUSTER_VIOLATION; a misaligned one MISALIGN. -/
def WindowAccess : Prop :=
  ∀ (s : State) (write : Bool) (x : Word) (n i o : Nat), n ∈ [1, 2, 4, 8] → x.toNat = 2 ^ 62 + i * 2 ^ 20 + o →
    i < 256 → o < 2 ^ 20 →
    (s.windowTile s.cur.tile i = none → s.scalarCheck write x n = .error (0x06, x)) ∧
    (∀ u, s.windowTile s.cur.tile i = some u →
      (0xC0000 < o + n → s.scalarCheck write x n = .error (0x06, x)) ∧
      (o + n ≤ 0xC0000 → o % n ≠ 0 → s.scalarCheck write x n = .error (0x04, x)) ∧
      (o + n ≤ 0xC0000 → o % n = 0 → s.scalarCheck write x n = .ok (.tile u o)))

/-- R273, R265: a load whose AccessCheck passes, below tile control and with no uncorrectable error waiting in the tile reached,
writes its bytes, little-endian and extended, to d; CIR.PSN is set when a granule read is poisoned; nothing else
changes but the FWD counters of a window access that follows a forwarding entry. One whose AccessCheck fails traps with what the check gives. -/
def LoadResult : Prop :=
  ∀ i len n ext off d a s, LoadForm i len n ext off d a → Ready s → Plain s [a, d] →
    let x := effAddr s a off
    (∀ u o, s.scalarCheck false x n = .ok (.tile u o) → o < 0xE0000 → (s.tile u).errs = 0 →
      exec i s = .next ((s.crossed x).ended len fun y =>
        (if (s.tile u).poisonAt o n then y.consumePoison s.pcOff else y).setG d (ext (Mem.load (s.tile u).mem o n)))) ∧
    (∀ c v, s.scalarCheck false x n = .error (c, v) → exec i s = .next (s.trapAt c v s.me.pc))

/-- R273, R274: a store whose AccessCheck passes, below tile control and with no granule injection armed, writes the low bytes of
its data, least significant first, and no other byte of any memory, and no register. One whose AccessCheck fails traps
with what the check gives. ST.REL, a release, waits first while an update or errand frame of the slot is still to be
performed (09_memory_ordering.md R316). -/
def StoreResult : Prop :=
  ∀ i len n off d a s, StoreForm i len n off d a → Ready s → Plain s [a, d] →
    let x := effAddr s a off
    let rel : Prop := ∃ i' d' a', i = .stRel i' d' a'
    (rel → s.released = false → exec i s = .next (s.block .issue)) ∧
    ((rel → s.released = true) → ∀ u o, s.scalarCheck true x n = .ok (.tile u o) → o < 0xE0000 → bits s.myTile.inject 3 0 ≠ 5 →
      ∃ t, exec i s = .next t ∧ Stored s t u o n (s.g d) ∧ t.me.pc = s.me.pc + BitVec.ofNat 64 len ∧
        (∀ k, t.me.getG k = s.me.getG k) ∧ (∀ k, t.me.getE k = s.me.getE k) ∧ t.me.status = s.me.status ∧
        t.me.cir = s.me.cir ∧ t.vec = s.vec) ∧
    ((rel → s.released = true) → ∀ c v, s.scalarCheck true x n = .error (c, v) → exec i s = .next (s.trapAt c v s.me.pc))

/-- R265: bytes written without poison clear the poison of the granules they cover whole and of no other; bytes written with
poison set that of every granule they touch. -/
def GranulePoison : Prop :=
  ∀ (x : Tile) (off : Nat) (bs : List Byte) (psn : Bool) (g : Nat), bs ≠ [] → off + bs.length ≤ 0xD0000 →
    (x.writeBytes off bs psn).poison.getLsbD g =
      if psn then x.poison.getLsbD g || (decide (off / 32 ≤ g) && decide (32 * g < off + bs.length))
      else x.poison.getLsbD g && !(decide (off ≤ 32 * g) && decide (32 * g + 32 ≤ off + bs.length))

/-- R277, R271: LDF, STF and an AMO at an aligned far address send their request once, with the next TAG of the slot's channel, and
wait, the PC and every register unchanged. They wait at issue first while an earlier update or frame of the slot must be
performed before (09_memory_ordering.md R307, R312). -/
def FarRequest : Prop :=
  ∀ i n op f a d r s va, FarWait i n op f a d r → Ready s → s.me.pend = .none → FarAddr (s.g a) n va →
    (farMustWait s va n = true → exec i s = .next (s.block .issue)) ∧
    (farMustWait s va n = false → ∃ t, exec i s = .next t ∧ t.me.pend = .far s.me.farTag ∧ t.me.farTag = s.me.farTag + 1 ∧ t.me.pc = s.me.pc ∧
      t.me.wait.isSome = true ∧ (MaySend s 0 → s.wire.length < t.wire.length) ∧ RegsKept s t none ∧
      Asked s t (reqWords op 0 n s.me.farTag (s.g a) ++ f s))

/-- R277, R356: when the reply has come with status 0, or with poison, the instruction completes with the value it carries, CIR.PSN
set for poison; with another status it raises the cause that status names, with the address in EVAL. -/
def FarResult : Prop :=
  ∀ i n op f a d r s st v psn, FarWait i n op f a d r → Ready s → s.me.pend = .farDone st v psn →
    ((st = 0 ∨ st = 4) → exec i s = .next (s.ended 4 fun x =>
      let y := (match d with
        | some k => ({ x with pend := .none } : Slot).setG k (r v)
        | none => { x with pend := .none })
      if psn then y.consumePoison s.pcOff else y)) ∧
    (1 ≤ st → st ≤ 3 → exec i s = .next
      ((s.updMe fun x => { x with pend := .none }).trapAt (BitVec.ofNat 8 (st + 6)) (s.g a) s.me.pc))

/-- R257, R276: a far instruction at an address of another form, or one not aligned to its size, traps at the issuer. -/
def FarTraps : Prop :=
  ∀ i n op f a d r s, FarWait i n op f a d r → Ready s → s.me.pend = .none →
    ((s.g a).toNat < 2 ^ 63 ∨ 2 ^ 63 + 2 ^ 57 ≤ (s.g a).toNat → exec i s = .next (s.trapAt 0x05 (s.g a) s.me.pc)) ∧
    (∀ va, (s.g a).toNat = 2 ^ 63 + va → va < 2 ^ 57 → (s.g a).toNat % n ≠ 0 →
      exec i s = .next (s.trapAt 0x04 (s.g a) s.me.pc))

/-- R278: a RUPD at an aligned far address sends its update and goes on at once: the PC moves, the update is outstanding at the slot
until its home has applied or discarded it, and no register and no byte of memory changes. -/
def RupdSends : Prop :=
  ∀ i n op o a s va, Rupd i n op o a → Ready s → FarAddr (s.g a) n va → farMustWait s va n = false →
    ∃ t, exec i s = .next t ∧ t.me.rupds = s.me.rupds ++ [(s.me.farTag % 2 ^ 32, s.reachOf va n)] ∧
      t.me.farTag = s.me.farTag + 1 ∧ t.me.pc = s.me.pc + 4 ∧ t.me.wait = none ∧ (MaySend s 0 → s.wire.length < t.wire.length) ∧
      RegsKept s t none ∧ Asked s t (reqWords 5 0 n s.me.farTag (s.g a) ++ [BitVec.ofNat 64 (op + 256), s.g o, 0])

/-- R277, R279: an update performed at a DRAM page leaves the value its OP gives in the location, least significant byte first,
every other byte of DRAM as it was, and gives the old value. -/
def AmoAtHome : Prop :=
  ∀ (s : State) (pa op n x c : Nat), n ∈ [4, 8] → op ≤ 9 →
    let old := Mem.load s.dram pa n
    let w := 2 ^ (8 * n)
    let sg := fun v : Nat => signExtend v (8 * n)
    let new : Nat := match op with
      | 0 => (old + x) % w
      | 1 => x % w
      | 2 => if old = c % w then x % w else old
      | 3 => if sg x < sg old then x % w else old
      | 4 => if sg old < sg x then x % w else old
      | 5 => Nat.min old (x % w)
      | 6 => Nat.max old (x % w)
      | 7 => old &&& (x % w)
      | 8 => old ||| (x % w)
      | _ => old ^^^ (x % w)
    let r := s.targetAmo (.dram pa) op n x c false
    r.2.1 = old ∧ (∀ b, Mem.read r.1.dram b =
      if pa ≤ b ∧ b < pa + n then BitVec.ofNat 8 (new / 256 ^ (b - pa)) else Mem.read s.dram b) ∧
    r.1.tiles = s.tiles ∧ r.1.host = s.host
/-! ### Vector instructions (05_vector_registers.md) -/

/-- A vector slot ready for a long-vector instruction: VT is good, VL is not 0, and no checker injection is armed. -/
def VecReady (s : State) : Prop :=
  Ready s ∧ s.cur.slot.val < 2 ∧ s.vec.bad = false ∧ s.vec.vl ≠ 0 ∧ bits s.myTile.inject 3 0 ≠ 3 ∧
  bits s.myTile.inject 3 0 ≠ 4

/-- Active(i) (03_encoding.md R126): below VL, FMASK set, and the governing mask set where mask enable is 1. -/
def ActiveAt (s : State) (m : BitVec 3) (e : BitVec 1) (i : Nat) : Bool :=
  decide (i < s.vec.vl.toNat) && s.vec.fmask.getLsbD i && (e == 0 || (s.vec.mask m).getLsbD i)

/-- Element `i` of a register, in the width of the current format. -/
def elemOf (s : State) (r : BitVec 5) (i : Nat) : Nat := elemAt (fmtWidth s.vec.fmt) (s.vec.reg r) i

/-- Register `d` after an instruction: each element below `n` is what `f` gives it, or kept. -/
def Wrote (s t : State) (d : BitVec 5) (n : Nat) (f : Nat → Option Nat) : Prop :=
  ∀ k, k < n → elemOf t d k = (f k).getD (elemOf s d k)

/-- What a long-vector instruction keeps of its context: every vector register but `d` with its side array, every mask but `md`,
VL, VT, XCLASS, the accumulators, every scalar register but `g`, the status and trap registers. -/
structure VecRegs (s t : State) (d : Option (BitVec 5)) (md : Option (BitVec 3)) (g : Option (BitVec 5)) : Prop where
  v : ∀ r, some r ≠ d → t.vec.v[r.toFin] = s.vec.v[r.toFin]
  m : ∀ r, some r ≠ md → t.vec.mask r = s.vec.mask r
  side : ∀ r, some r ≠ d → t.vec.x[r.toFin] = s.vec.x[r.toFin]
  vl : t.vec.vl = s.vec.vl
  vt : t.vec.vt = s.vec.vt
  xclass : t.vec.xclass = s.vec.xclass
  acc : t.vec.acc = s.vec.acc ∧ t.vec.rs = s.vec.rs
  regs : ∀ n, some n ≠ g → t.me.getG n = s.me.getG n
  ext : ∀ n, t.me.getE n = s.me.getE n
  status : t.me.status = s.me.status ∧ t.me.cause = s.me.cause ∧ t.me.epc = s.me.epc ∧ t.me.eval = s.me.eval

/-- The same, and every byte of memory. -/
structure VecKept (s t : State) (d : Option (BitVec 5)) (md : Option (BitVec 3)) (g : Option (BitVec 5)) : Prop
    extends VecRegs s t d md g where
  mem : ∀ w x, Mem.read (t.tile w).mem x = Mem.read (s.tile w).mem x
  dram : ∀ x, Mem.read t.dram x = Mem.read s.dram x
  host : ∀ x, Mem.read t.host x = Mem.read s.host x

/-- It has completed: the PC is past it and FMASK is all ones (R177). -/
def VecDone (s t : State) : Prop := t.me.pc = s.me.pc + 4 ∧ t.vec.fmask = BitVec.allOnes 4096 ∧ t.me.wait = none

/-- XM after classes are raised: bit k is set where the class XCLASS names is among those of element k (02_number_formats.md
R89, R90). -/
def Flagged (s t : State) (cls : Nat → Nat) : Prop :=
  ∀ k, k < 4096 → t.vec.xm.getLsbD k =
    (s.vec.xm.getLsbD k || (decide (s.vec.xclass.toNat ≤ 5) && (cls k).testBit s.vec.xclass.toNat))

/-- The variants of R188 that do not saturate: an instruction, its fields vs2, mask, mask enable, vd, vs1, and its result from W, the
elements' bits and their values; the low W bits are kept. -/
inductive VecInt : Instr → BitVec 5 → BitVec 3 → BitVec 1 → BitVec 5 → BitVec 5 → (Nat → Nat → Nat → Int → Int → Int) → Prop
  | vadd b x y m e d a : VecInt (.vadd b x y m e d a) b m e d a fun _ _ _ p q => p + q
  | vsub b x y m e d a : VecInt (.vsub b x y m e d a) b m e d a fun _ _ _ p q => p - q
  | vmul b x y m e d a : VecInt (.vmul b x y m e d a) b m e d a fun _ _ _ p q => p * q
  | vmulh b x y m e d a : VecInt (.vmulh b x y m e d a) b m e d a fun w _ _ p q => p * q / (2 : Int) ^ w
  | vand b x y m e d a : VecInt (.vand b x y m e d a) b m e d a fun _ u v _ _ => ((u &&& v : Nat) : Int)
  | vor b x y m e d a : VecInt (.vor b x y m e d a) b m e d a fun _ u v _ _ => ((u ||| v : Nat) : Int)
  | vxor b x y m e d a : VecInt (.vxor b x y m e d a) b m e d a fun _ u v _ _ => ((u ^^^ v : Nat) : Int)
  | vsll b x y m e d a : VecInt (.vsll b x y m e d a) b m e d a fun w u v _ _ => (u : Int) * 2 ^ (v % w)
  | vsrl b x y m e d a : VecInt (.vsrl b x y m e d a) b m e d a fun w u v _ _ => (u : Int) / 2 ^ (v % w)
  | vsra b x y m e d a : VecInt (.vsra b x y m e d a) b m e d a fun w _ v p _ => p / 2 ^ (v % w)
  | vmin b x y m e d a : VecInt (.vmin b x y m e d a) b m e d a fun _ _ _ p q => Min.min p q
  | vmax b x y m e d a : VecInt (.vmax b x y m e d a) b m e d a fun _ _ _ p q => Max.max p q
  | vminu b x y m e d a : VecInt (.vminu b x y m e d a) b m e d a fun _ u v _ _ => ((Min.min u v : Nat) : Int)
  | vmaxu b x y m e d a : VecInt (.vmaxu b x y m e d a) b m e d a fun _ u v _ _ => ((Max.max u v : Nat) : Int)
  | vabsd b x y m e d a : VecInt (.vabsd b x y m e d a) b m e d a fun _ _ _ p q => ((p - q).natAbs : Int)

/-- VSADD and VSSUB: the exact sum or difference (R188). -/
inductive VecSat : Instr → BitVec 5 → BitVec 3 → BitVec 1 → BitVec 5 → BitVec 5 → (Int → Int → Int) → Prop
  | vsadd b x y m e d a : VecSat (.vsadd b x y m e d a) b m e d a fun p q => p + q
  | vssub b x y m e d a : VecSat (.vssub b x y m e d a) b m e d a fun p q => p - q

/-- The instructions of R189: the mode a static form names, the mask, mask enable, vd, the sources in the order of R87, and the
operation in a format with a mode and an origin payload, which gives the result and its classes. -/
inductive VecFp : Instr → Option Nat → BitVec 3 → BitVec 1 → BitVec 5 → List (BitVec 5) →
    (Nat → Nat → Nat → List Nat → Nat × Nat) → Prop
  | vfadd b x y m e d a : VecFp (.vfadd b x y m e d a) none m e d [a, b] fun f r o l => fpAdd f r o false (l.getD 0 0) (l.getD 1 0)
  | vfsub b x y m e d a : VecFp (.vfsub b x y m e d a) none m e d [a, b] fun f r o l => fpAdd f r o true (l.getD 0 0) (l.getD 1 0)
  | vfmul b x y m e d a : VecFp (.vfmul b x y m e d a) none m e d [a, b] fun f r o l => fpMul f r o (l.getD 0 0) (l.getD 1 0)
  | vfma b x y m e d a : VecFp (.vfma b x y m e d a) none m e d [a, b, d]
      fun f r o l => fpFma f r o false false (l.getD 0 0) (l.getD 1 0) (l.getD 2 0)
  | vfms b x y m e d a : VecFp (.vfms b x y m e d a) none m e d [a, b, d]
      fun f r o l => fpFma f r o false true (l.getD 0 0) (l.getD 1 0) (l.getD 2 0)
  | vfnma b x y m e d a : VecFp (.vfnma b x y m e d a) none m e d [a, b, d]
      fun f r o l => fpFma f r o true false (l.getD 0 0) (l.getD 1 0) (l.getD 2 0)
  | vfdiv b x y m e d a : VecFp (.vfdiv b x y m e d a) none m e d [a, b] fun f r o l => fpDiv f r o (l.getD 0 0) (l.getD 1 0)
  | vfsqrt x m e d a : VecFp (.vfsqrt x m e d a) none m e d [a] fun f r o l => fpSqrt f r o (l.getD 0 0)
  | vfmin b x y m e d a : VecFp (.vfmin b x y m e d a) none m e d [a, b] fun f _ _ l => fpMinMax f false (l.getD 0 0) (l.getD 1 0)
  | vfmax b x y m e d a : VecFp (.vfmax b x y m e d a) none m e d [a, b] fun f _ _ l => fpMinMax f true (l.getD 0 0) (l.getD 1 0)
  | vfabs x m e d a : VecFp (.vfabs x m e d a) none m e d [a] fun f _ _ l => (l.getD 0 0 % 2 ^ (fmtWidth f - 1), 0)
  | vfneg x m e d a : VecFp (.vfneg x m e d a) none m e d [a] fun f _ _ l => (l.getD 0 0 ^^^ 2 ^ (fmtWidth f - 1), 0)
  | vfaddStatic b x y m e r d a : VecFp (.vfaddStatic b x y m e r d a) (some r.toNat) m e d [a, b]
      fun f r o l => fpAdd f r o false (l.getD 0 0) (l.getD 1 0)
  | vfsubStatic b x y m e r d a : VecFp (.vfsubStatic b x y m e r d a) (some r.toNat) m e d [a, b]
      fun f r o l => fpAdd f r o true (l.getD 0 0) (l.getD 1 0)
  | vfmulStatic b x y m e r d a : VecFp (.vfmulStatic b x y m e r d a) (some r.toNat) m e d [a, b]
      fun f r o l => fpMul f r o (l.getD 0 0) (l.getD 1 0)
  | vfmaStatic b x y m e r d a : VecFp (.vfmaStatic b x y m e r d a) (some r.toNat) m e d [a, b, d]
      fun f r o l => fpFma f r o false false (l.getD 0 0) (l.getD 1 0) (l.getD 2 0)

/-- The compares of R191: fields vs2, mask, mask enable, md, vs1; the formats accepted; the relation of two elements in a
format; whether a quiet NaN raises invalid. -/
inductive VecCmp : Instr → BitVec 5 → BitVec 3 → BitVec 1 → BitVec 3 → BitVec 5 → (Nat → Bool) → (Nat → Nat → Nat → Bool) → Bool → Prop
  | vcmpEq b x y m e d a : VecCmp (.vcmpEq b x y m e d a) b m e d a isInt (fun f p q => decide (intVal f p = intVal f q)) false
  | vcmpNe b x y m e d a : VecCmp (.vcmpNe b x y m e d a) b m e d a isInt (fun f p q => decide (intVal f p ≠ intVal f q)) false
  | vcmpLt b x y m e d a : VecCmp (.vcmpLt b x y m e d a) b m e d a isInt (fun f p q => decide (intVal f p < intVal f q)) false
  | vcmpLe b x y m e d a : VecCmp (.vcmpLe b x y m e d a) b m e d a isInt (fun f p q => decide (intVal f p ≤ intVal f q)) false
  | vcmpGt b x y m e d a : VecCmp (.vcmpGt b x y m e d a) b m e d a isInt (fun f p q => decide (intVal f q < intVal f p)) false
  | vcmpGe b x y m e d a : VecCmp (.vcmpGe b x y m e d a) b m e d a isInt (fun f p q => decide (intVal f q ≤ intVal f p)) false
  | vcmpLtu b x y m e d a : VecCmp (.vcmpLtu b x y m e d a) b m e d a isInt (fun _ p q => decide (p < q)) false
  | vcmpLeu b x y m e d a : VecCmp (.vcmpLeu b x y m e d a) b m e d a isInt (fun _ p q => decide (p ≤ q)) false
  | vcmpGtu b x y m e d a : VecCmp (.vcmpGtu b x y m e d a) b m e d a isInt (fun _ p q => decide (q < p)) false
  | vcmpGeu b x y m e d a : VecCmp (.vcmpGeu b x y m e d a) b m e d a isInt (fun _ p q => decide (q ≤ p)) false
  | vfcmpEq b x y m e d a : VecCmp (.vfcmpEq b x y m e d a) b m e d a isFp
      (fun f p q => !isNan f p && !isNan f q && decide (fpOrder f p q = 0)) false
  | vfcmpNe b x y m e d a : VecCmp (.vfcmpNe b x y m e d a) b m e d a isFp
      (fun f p q => isNan f p || isNan f q || decide (fpOrder f p q ≠ 0)) false
  | vfcmpLt b x y m e d a : VecCmp (.vfcmpLt b x y m e d a) b m e d a isFp
      (fun f p q => !isNan f p && !isNan f q && decide (fpOrder f p q < 0)) true
  | vfcmpLe b x y m e d a : VecCmp (.vfcmpLe b x y m e d a) b m e d a isFp
      (fun f p q => !isNan f p && !isNan f q && decide (fpOrder f p q ≤ 0)) true
  | vfcmpGt b x y m e d a : VecCmp (.vfcmpGt b x y m e d a) b m e d a isFp
      (fun f p q => !isNan f p && !isNan f q && decide (0 < fpOrder f p q)) true
  | vfcmpGe b x y m e d a : VecCmp (.vfcmpGe b x y m e d a) b m e d a isFp
      (fun f p q => !isNan f p && !isNan f q && decide (0 ≤ fpOrder f p q)) true
  | vfcmpUn b x y m e d a : VecCmp (.vfcmpUn b x y m e d a) b m e d a isFp (fun f p q => isNan f p || isNan f q) false

/-- MAND to MNOT (R192): md, and the bit written to each i below VL. -/
inductive MaskLogic : Instr → BitVec 3 → (VecCtx → Nat → Bool) → Prop
  | mand b d a : MaskLogic (.mand b d a) d fun c i => (c.mask a).getLsbD i && (c.mask b).getLsbD i
  | mor b d a : MaskLogic (.mor b d a) d fun c i => (c.mask a).getLsbD i || (c.mask b).getLsbD i
  | mxor b d a : MaskLogic (.mxor b d a) d fun c i => (c.mask a).getLsbD i ^^ (c.mask b).getLsbD i
  | mandn b d a : MaskLogic (.mandn b d a) d fun c i => (c.mask a).getLsbD i && !(c.mask b).getLsbD i
  | mnot d a : MaskLogic (.mnot d a) d fun c i => !(c.mask a).getLsbD i

/-- The active elements in ascending order. -/
def activesOf (s : State) (m : BitVec 3) (e : BitVec 1) : List Nat :=
  (List.range s.vec.vl.toNat).filter (ActiveAt s m e)

/-- The moves of R194 to a vector register in a format that is not BFP: vd, and what element k is given. -/
inductive VecMove : Instr → BitVec 5 → (State → Nat → Option Nat) → Prop
  | vsel b x y m d a : VecMove (.vsel b x y m d a) d fun s k =>
      if ActiveAt s m 0 k then some (elemOf s (if (s.vec.mask m).getLsbD k then a else b) k) else none
  | vmv x m e d a : VecMove (.vmv x m e d a) d fun s k => if ActiveAt s m e k then some (elemOf s a k) else none
  | vmvx m e d a : VecMove (.vmvx m e d a) d fun s k =>
      if ActiveAt s m e k then some ((s.g a).toNat % 2 ^ fmtWidth s.vec.fmt) else none
  | vslideup t x m e d a : VecMove (.vslideup t x m e d a) d fun s k =>
      if ActiveAt s m e k && decide ((s.g t).toNat ≤ k) then some (elemOf s a (k - (s.g t).toNat)) else none
  | vslidedn t x m e d a : VecMove (.vslidedn t x m e d a) d fun s k =>
      if ActiveAt s m e k then some (if k + (s.g t).toNat < s.vec.vlMax then elemOf s a (k + (s.g t).toNat) else 0) else none
  | vgath b x y m e d a : VecMove (.vgath b x y m e d a) d fun s k =>
      if ActiveAt s m e k then some (if elemOf s b k < s.vec.vlMax then elemOf s a (elemOf s b k) else 0) else none
  | vcomp x m e d a : VecMove (.vcomp x m e d a) d fun s k => ((activesOf s m e)[k]?).map (elemOf s a)
  | vexp x m e d a : VecMove (.vexp x m e d a) d fun s k =>
      if ActiveAt s m e k then some (elemOf s a ((activesOf s m e).countP fun j => decide (j < k))) else none
  | viota m e d : VecMove (.viota m e d) d fun s k =>
      if k < s.vec.vl.toNat then some ((activesOf s m e).countP (fun j => decide (j < k)) % 2 ^ fmtWidth s.vec.fmt) else none

/-- The integer reductions of R195: mask, mask enable, vd, vs1, and the value written, from the list of active values. -/
inductive VecRed : Instr → BitVec 3 → BitVec 1 → BitVec 5 → BitVec 5 → (Nat → List Int → Int) → Prop
  | vredsum x m e d a : VecRed (.vredsum x m e d a) m e d a fun _ l => l.foldr (· + ·) 0
  | vredmin x m e d a : VecRed (.vredmin x m e d a) m e d a fun f l => l.foldr Min.min (intHi f)
  | vredmax x m e d a : VecRed (.vredmax x m e d a) m e d a fun f l => l.foldr Max.max (intLo f)

/-- VCVT: source format, mask, mask enable, the mode a static form names, vd, vs1 (R196). -/
inductive VecCvt : Instr → Nat → BitVec 3 → BitVec 1 → Option Nat → BitVec 5 → BitVec 5 → Prop
  | vcvt g x m e d a : VecCvt (.vcvt g x m e d a) g.toNat m e none d a
  | vcvtStatic g x m e r d a : VecCvt (.vcvtStatic g x m e r d a) g.toNat m e (some r.toNat) d a

/-- The indexed forms: a load or store, the index register, the vector register, mask, mask enable, base. -/
inductive VecIdx : Instr → Bool → BitVec 5 → BitVec 5 → BitVec 3 → BitVec 1 → BitVec 5 → Prop
  | vldx i o v m e d a : VecIdx (.vldx i o v m e d a) false i d m e a
  | vstx i o v m e d a : VecIdx (.vstx i o v m e d a) true i d m e a

/-- What each copy asks of the shared operation. -/
inductive CopyAsks : Instr → CopyOp → Prop
  | cpy y d a : CopyAsks (.cpy y d a) ⟨7, some a, none, none, y, d⟩
  | add y d a : CopyAsks (.cpyrAdd y d a) ⟨0, some a, none, none, y, d⟩
  | fadd y d a : CopyAsks (.cpyrFadd y d a) ⟨1, some a, none, none, y, d⟩
  | bfadd y d a : CopyAsks (.cpyrBfadd y d a) ⟨2, some a, none, none, y, d⟩
  | min y d a : CopyAsks (.cpyrMin y d a) ⟨3, some a, none, none, y, d⟩
  | max y d a : CopyAsks (.cpyrMax y d a) ⟨4, some a, none, none, y, d⟩
  | fmin y d a : CopyAsks (.cpyrFmin y d a) ⟨5, some a, none, none, y, d⟩
  | fmax y d a : CopyAsks (.cpyrFmax y d a) ⟨6, some a, none, none, y, d⟩
  | fill t y d : CopyAsks (.cpyf t y d) ⟨7, none, some t, none, y, d⟩
  | mc h y d a : CopyAsks (.cpyMc h y d a) ⟨7, some a, none, some h, y, d⟩

/-- The instructions that need a long-vector context (R24), but for SETVT, each with the VT.FMT values it accepts (R184). -/
inductive VecAccepts : Instr → (Nat → Bool) → Prop
  | int i b m e d a f : VecInt i b m e d a f → VecAccepts i isInt
  | sat i b m e d a f : VecSat i b m e d a f → VecAccepts i isInt
  | fp i rm m e d l f : VecFp i rm m e d l f → VecAccepts i isFp
  | cmp i b m e d a ok f o : VecCmp i b m e d a ok f o → VecAccepts i ok
  | logic i d f : MaskLogic i d f → VecAccepts i fun _ => true
  | red i m e d a f : VecRed i m e d a f → VecAccepts i isInt
  | cvt i g m e r d a : VecCvt i g m e r d a → VecAccepts i fun _ => true
  | copy i o : CopyAsks i o → VecAccepts i fun _ => true
  | setvl d a : VecAccepts (.setvl d a) fun _ => true
  | setvli q d : VecAccepts (.setvli q d) fun _ => true
  | msetn d a : VecAccepts (.msetn d a) fun _ => true
  | mpopc m e d a : VecAccepts (.mpopc m e d a) fun _ => true
  | mfirst m e d a : VecAccepts (.mfirst m e d a) fun _ => true
  | mmove d a : VecAccepts (.mmove d a) fun _ => true
  | vsel b x y m d a : VecAccepts (.vsel b x y m d a) fun f => !isBfp f
  | vmv x m e d a : VecAccepts (.vmv x m e d a) fun _ => true
  | vmvx m e d a : VecAccepts (.vmvx m e d a) fun f => !isBfp f
  | vext t x d a : VecAccepts (.vext t x d a) fun f => !isBfp f
  | vslideup t x m e d a : VecAccepts (.vslideup t x m e d a) fun f => !isBfp f
  | vslidedn t x m e d a : VecAccepts (.vslidedn t x m e d a) fun f => !isBfp f
  | vgath b x y m e d a : VecAccepts (.vgath b x y m e d a) fun f => !isBfp f
  | vcomp x m e d a : VecAccepts (.vcomp x m e d a) fun f => !isBfp f
  | vexp x m e d a : VecAccepts (.vexp x m e d a) fun f => !isBfp f
  | viota m e d : VecAccepts (.viota m e d) fun f => !isBfp f
  | vfredsum x m e d a : VecAccepts (.vfredsum x m e d a) isFp
  | vbfpxX x d a : VecAccepts (.vbfpxX x d a) isBfp
  | vbfpxI x d a : VecAccepts (.vbfpxI x d a) isBfp
  | vld o v m e d a : VecAccepts (.vld o v m e d a) fun _ => true
  | vst o v m e d a : VecAccepts (.vst o v m e d a) fun _ => true
  | vlds o v m e k d a : VecAccepts (.vlds o v m e k d a) fun f => !isBfp f
  | vsts o v m e k d a : VecAccepts (.vsts o v m e k d a) fun f => !isBfp f
  | vldx i o v m e d a : VecAccepts (.vldx i o v m e d a) fun f => !isBfp f
  | vstx i o v m e d a : VecAccepts (.vstx i o v m e d a) fun f => !isBfp f
  | mzero c : VecAccepts (.mzero c) fun _ => true
  | minit t c a : VecAccepts (.minit t c a) fun f => f == fINT32 || f == fFP32
  | mma t e c p q x a : VecAccepts (.mma t e c p q x a) fun _ => true
  | mmab t e c a : VecAccepts (.mmab t e c a) fun _ => true
  | mrowsum c d : VecAccepts (.mrowsum c d) fun _ => true
  | mdrainReg c d a : VecAccepts (.mdrainReg c d a) fun _ => true
  | mdrainSpad c a : VecAccepts (.mdrainSpad c a) fun _ => true
  | mdrainqReg t e c d : VecAccepts (.mdrainqReg t e c d) fun _ => true
  | mdrainqSpad t e c a : VecAccepts (.mdrainqSpad t e c a) fun _ => true
  | vsend p a : VecAccepts (.vsend p a) fun f => !isBfp f
  | vrecv p d : VecAccepts (.vrecv p d) fun f => !isBfp f
  | garrMask h k : VecAccepts (.garrMask h k) fun _ => true
  | gvoteAllMask h d k : VecAccepts (.gvoteAllMask h d k) fun _ => true
  | gvoteAnyMask h d k : VecAccepts (.gvoteAnyMask h d k) fun _ => true
  | gvoteCountMask h d k : VecAccepts (.gvoteCountMask h d k) fun _ => true


/-- R188, R181, R177: a vector integer instruction writes the low W bits of its result to each active element of vd below VLMAX,
keeps the others, raises no class, makes FMASK all ones, and changes no other register and no memory. -/
def VectorInteger : Prop :=
  ∀ i b m e d a f s, VecInt i b m e d a f → VecReady s → isInt s.vec.fmt = true →
    let w := fmtWidth s.vec.fmt
    ∃ t, exec i s = .next t ∧ VecDone s t ∧ VecKept s t (some d) none none ∧ t.vec.xm = s.vec.xm ∧
      Wrote s t d s.vec.vlMax fun k => if ActiveAt s m e k then
        some ((f w (elemOf s a k) (elemOf s b k) (intVal s.vec.fmt (elemOf s a k)) (intVal s.vec.fmt (elemOf s b k))
          % 2 ^ w).toNat) else none

/-- R188, R92: VSADD and VSSUB write the exact result clamped to the format's range, and a clamp raises integer saturate and
inexact for its element. -/
def VectorSaturating : Prop :=
  ∀ i b m e d a f s, VecSat i b m e d a f → VecReady s → isInt s.vec.fmt = true →
    let fm := s.vec.fmt
    let r := fun k => f (intVal fm (elemOf s a k)) (intVal fm (elemOf s b k))
    ∃ t, exec i s = .next t ∧ VecDone s t ∧ VecKept s t (some d) none none ∧
      (Wrote s t d s.vec.vlMax fun k => if ActiveAt s m e k then
        some ((Max.max (intLo fm) (Min.min (r k) (intHi fm)) % 2 ^ fmtWidth fm).toNat) else none) ∧
      Flagged s t fun k => if ActiveAt s m e k && (decide (r k < intLo fm) || decide (intHi fm < r k)) then 48 else 0

/-- R189, R190, R181: a vector FP instruction writes its rounded result to each active element of vd and collects the classes of
those elements in XM; VFABS and VFNEG change the sign bit alone. -/
def VectorFloat : Prop :=
  ∀ i rm m e d l f s, VecFp i rm m e d l f → VecReady s → isFp s.vec.fmt = true →
    let r := fun k => f s.vec.fmt (rm.getD s.vec.rm) (originOf k s.cur.slot.val s.pcOff) (l.map fun x => elemOf s x k)
    ∃ t, exec i s = .next t ∧ VecDone s t ∧ VecKept s t (some d) none none ∧
      (Wrote s t d s.vec.vlMax fun k => if ActiveAt s m e k then some ((r k).1 % 2 ^ fmtWidth s.vec.fmt) else none) ∧
      Flagged s t fun k => if ActiveAt s m e k then (r k).2 else 0

/-- R191, R181: a compare writes its relation to the bits of md of the active elements and keeps the others; VFCMP raises invalid
for a signalling NaN, and for any NaN in an ordered relation. -/
def VectorCompare : Prop :=
  ∀ i b m e d a ok f ord s, VecCmp i b m e d a ok f ord → VecReady s → ok s.vec.fmt = true →
    let fm := s.vec.fmt
    let p := elemOf s a
    let q := elemOf s b
    ∃ t, exec i s = .next t ∧ VecDone s t ∧ VecKept s t none (some d) none ∧
      (∀ k, k < 4096 → (t.vec.mask d).getLsbD k = if ActiveAt s m e k then f fm (p k) (q k) else (s.vec.mask d).getLsbD k) ∧
      Flagged s t fun k => if ActiveAt s m e k && isFp fm && (isSnan fm (p k) || isSnan fm (q k) ||
        (ord && (isNan fm (p k) || isNan fm (q k)))) then 1 else 0

/-- R192, R193, R177: MAND to MNOT write the bits of md below VL, whatever FMASK holds; MSETN sets the first g s bits of md; MMOVE
copies a whole mask register, XM or FMASK; all leave FMASK unchanged but where MMOVE names it, and no scalar register
changes. -/
def MaskWrites : Prop :=
  ∀ s, Ready s → s.cur.slot.val < 2 → s.vec.bad = false →
    (∀ i d f, MaskLogic i d f → ∃ t, exec i s = .next t ∧ t.me.pc = s.me.pc + 4 ∧ t.vec.fmask = s.vec.fmask ∧
      VecKept s t none (some d) none ∧ t.vec.xm = s.vec.xm ∧
      ∀ k, k < 4096 → (t.vec.mask d).getLsbD k = if k < s.vec.vl.toNat then f s.vec k else (s.vec.mask d).getLsbD k) ∧
    (∀ d a, ∃ t, exec (.msetn d a) s = .next t ∧ t.me.pc = s.me.pc + 4 ∧ t.vec.fmask = s.vec.fmask ∧
      VecKept s t none (some d) none ∧ t.vec.xm = s.vec.xm ∧
      ∀ k, k < 4096 → (t.vec.mask d).getLsbD k = decide (k < (s.g a).toNat)) ∧
    (∀ (d a : BitVec 5) v, s.vec.wide a = some v → d.toNat ≤ 9 → ∃ t, exec (.mmove d a) s = .next t ∧ t.me.pc = s.me.pc + 4 ∧
      t.vec.wide d = some v ∧ (∀ r : BitVec 5, r ≠ d → t.vec.wide r = s.vec.wide r) ∧
      VecKept s t none (if d.toNat < 8 then some (d.setWidth 3) else none) none) ∧
    (∀ d a : BitVec 5, 10 ≤ d.toNat ∨ 10 ≤ a.toNat → ∃ v, exec (.mmove d a) s = .next (s.trapAt 0x01 v s.me.pc))

/-- R192, R194: MPOPC counts the active set bits of a mask, MFIRST finds the least of them (all ones where there is none), VEXT reads
one element, sign-extended for a signed format, or 0 beyond VLMAX; each writes g d, and VL = 0 does not stop them. -/
def VectorToScalar : Prop :=
  ∀ s, Ready s → s.cur.slot.val < 2 → s.vec.bad = false →
    (∀ m e d a, ∃ t, exec (.mpopc m e d a) s = .next t ∧ VecDone s t ∧ VecKept s t none none (some d) ∧
      (d ≠ 0 → t.me.getG d = BitVec.ofNat 64
        ((List.range 4096).countP fun k => ActiveAt s m e k && (s.vec.mask a).getLsbD k))) ∧
    (∀ m e d a, ∃ t, exec (.mfirst m e d a) s = .next t ∧ VecDone s t ∧ VecKept s t none none (some d) ∧
      (d ≠ 0 → t.me.getG d = match (List.range 4096).find? (fun k => ActiveAt s m e k && (s.vec.mask a).getLsbD k) with
        | some k => BitVec.ofNat 64 k
        | none => 0xFFFFFFFFFFFFFFFF)) ∧
    (∀ r x d a, isBfp s.vec.fmt = false → ∃ t, exec (.vext r x d a) s = .next t ∧ VecDone s t ∧
      VecKept s t none none (some d) ∧
      (d ≠ 0 → t.me.getG d = if (s.g r).toNat < s.vec.vlMax then
        (let v := elemOf s a (s.g r).toNat
         if isInt s.vec.fmt then BitVec.ofInt 64 (intVal s.vec.fmt v) else BitVec.ofNat 64 v) else 0))

/-- R194, R181: the moves of major 0x10 in a format that is not BFP, every source read whole before any element is written. -/
def VectorMoves : Prop :=
  ∀ i d f s, VecMove i d f → VecReady s → isBfp s.vec.fmt = false →
    ∃ t, exec i s = .next t ∧ VecDone s t ∧ VecKept s t (some d) none none ∧ t.vec.xm = s.vec.xm ∧
      Wrote s t d s.vec.vlMax (f s)

/-- R196, R99: VCVT between formats that are not BFP converts the active elements below VL and the source's VLMAX, keeps the others,
and collects their classes; with a BFP format on either side it completes, writing vd and its side array alone. -/
def VectorConvert : Prop :=
  ∀ i sf m e rm d a s, VecCvt i sf m e rm d a → VecReady s → fmtKnown sf = true →
    let n := Min.min s.vec.vl.toNat (vlMax sf s.vec.sblk)
    let r := fun k => convert sf (rm.getD s.vec.rm) s.vec.fmt (elemAt (fmtWidth sf) (s.vec.reg a) k)
    ∃ t, exec i s = .next t ∧ VecDone s t ∧ VecKept s t (some d) none none ∧
      (isBfp sf = false → isBfp s.vec.fmt = false →
        (Wrote s t d s.vec.vlMax fun k => if ActiveAt s m e k && decide (k < n) then some ((r k).1 % 2 ^ fmtWidth s.vec.fmt)
          else none) ∧
        Flagged s t fun k => if ActiveAt s m e k && decide (k < n) then (r k).2 else 0)

/-- R197, R173: VBFPX.X writes the exponents of the blocks below VL to bytes of vd; VBFPX.I writes bytes of vs1 to those exponents and
leaves the mantissas; VMV in a BFP format copies the mantissas and exponent of each wholly active block below VL, and keeps every other element
and exponent. -/
def VectorExponents : Prop :=
  ∀ s x d a, VecReady s → isBfp s.vec.fmt = true →
    let nb := s.vec.vl.toNat / s.vec.blk
    (∃ t, exec (.vbfpxX x d a) s = .next t ∧ VecDone s t ∧ VecKept s t (some d) none none ∧ t.vec.xm = s.vec.xm ∧
      ∀ k, k < 1024 → elemAt 8 (t.vec.reg d) k = if k < nb then s.vec.side a k else elemAt 8 (s.vec.reg d) k) ∧
    (∃ t, exec (.vbfpxI x d a) s = .next t ∧ VecDone s t ∧ VecKept s t (some d) none none ∧ t.vec.xm = s.vec.xm ∧
      t.vec.v[d.toFin] = s.vec.v[d.toFin] ∧
      ∀ k, k < 512 → t.vec.side d k = if k < nb then elemAt 8 (s.vec.reg a) k else s.vec.side d k) ∧
    (∀ m e,
      let moved := fun j => decide (j < nb) && (List.range s.vec.blk).all fun k => ActiveAt s m e (j * s.vec.blk + k)
      ∃ t, exec (.vmv x m e d a) s = .next t ∧ VecDone s t ∧ VecKept s t (some d) none none ∧ t.vec.xm = s.vec.xm ∧
        (∀ j, j < 512 → t.vec.side d j = if moved j then s.vec.side a j else s.vec.side d j) ∧
        Wrote s t d s.vec.vlMax fun k => if moved (k / s.vec.blk) then some (elemOf s a k) else none)

/-- R24, R184: in slots 2 to 7, with VT.BAD, and in a format its row does not accept, each long-vector instruction, VSEND, VRECV
and mask form of GARR and GVOTE raises ILLEGAL with EVAL its encoding, and so does an indexed access of 8-bit elements
with VL above 512 (08_memories.md R283); SETVT does so in slots 2 to 7 alone. -/
def VectorIllegal : Prop :=
  ∀ i s n w, Ready s → (∀ p, s.me.pend ≠ .elems p) → encodeWord i = some (n, w) →
    let illegal := exec i s = .next (s.trapAt 0x01 (BitVec.ofNat 64 w) s.me.pc)
    (∀ ok, VecAccepts i ok → (2 ≤ s.cur.slot.val ∨ s.vec.bad = true ∨ ok s.vec.fmt = false) → illegal) ∧
    (∀ st x d m e a, VecIdx i st x d m e a → fmtWidth s.vec.fmt = 8 → 512 < s.vec.vl.toNat → illegal) ∧
    ∀ d a, i = .setvt d a → 2 ≤ s.cur.slot.val → illegal

/-- R183: with VL = 0 a long-vector instruction of these groups writes no element, no XM bit and no register, and completes. -/
def VectorEmpty : Prop :=
  ∀ i s, Ready s → s.cur.slot.val < 2 → s.vec.bad = false → s.vec.vl = 0 →
    ((∃ b m e d a f, VecInt i b m e d a f ∧ isInt s.vec.fmt = true) ∨
     (∃ rm m e d l f, VecFp i rm m e d l f ∧ isFp s.vec.fmt = true) ∨
     (∃ b m e d a ok f o, VecCmp i b m e d a ok f o ∧ ok s.vec.fmt = true) ∨
     (∃ d f, VecMove i d f ∧ isBfp s.vec.fmt = false)) →
    ∃ t, exec i s = .next t ∧ VecDone s t ∧ VecKept s t none none none ∧ t.vec.xm = s.vec.xm
/-! ### Vector memory (08_memories.md R282-R289) -/

/-- The unit and strided forms: a load or store, the vector register, mask, mask enable, base, and the address of element k for a
memory element of `n` bytes (R284). -/
inductive VecMem : Instr → Bool → BitVec 5 → BitVec 3 → BitVec 1 → BitVec 5 → (State → Nat → Nat → Word) → Prop
  | vld o v m e d a : VecMem (.vld o v m e d a) false d m e a fun s n k => s.g a + BitVec.ofNat 64 (k * n)
  | vlds o v m e j d a : VecMem (.vlds o v m e j d a) false d m e a fun s _ k => s.g a + BitVec.ofNat 64 k * s.e j
  | vst o v m e d a : VecMem (.vst o v m e d a) true d m e a fun s n k => s.g a + BitVec.ofNat 64 (k * n)
  | vsts o v m e j d a : VecMem (.vsts o v m e j d a) true d m e a fun s _ k => s.g a + BitVec.ofNat 64 k * s.e j

/-- Width of an index element (R284). -/
def idxWidth (s : State) : Nat := if fmtWidth s.vec.fmt = 8 then 16 else fmtWidth s.vec.fmt

/-- Address of element k of an indexed form. -/
def idxAddr (s : State) (i a : BitVec 5) (n k : Nat) : Word :=
  s.g a + BitVec.ofNat 64 (elemAt (idxWidth s) (s.vec.reg i) k * n)

/-- The base lies in a tile's memory whose format `f`, like VT's, is not BFP. -/
def PlainRun (s : State) (a : BitVec 5) (f : MemFmt) : Prop :=
  (∃ u o, s.basePlace (s.g a) = some (.tile u o) ∧ f = s.memFmt s.vec.memFmt (.tile u o)) ∧
  fmtKnown f.fmt = true ∧ isBfp f.fmt = false ∧ fmtKnown s.vec.fmt = true ∧ isBfp s.vec.fmt = false

/-- Element k, active, passes its AccessCheck and lies at offset `(p k).2` of tile `(p k).1`, where no uncorrectable error
waits. -/
def Lies (s : State) (m : BitVec 3) (e : BitVec 1) (f : MemFmt) (addr : Nat → Word) (p : Nat → Nat × Nat) : Prop :=
  ∀ k, ActiveAt s m e k = true → s.vecCheck true f.size (addr k) f.size = .ok (.tile (p k).1 (p k).2) ∧
    (s.tile (p k).1).errs = 0

/-- What a load leaves: each element of `on` converted from memory, and its classes (R285, R286). -/
def LoadedElems (s t : State) (d : BitVec 5) (f : MemFmt) (p : Nat → Nat × Nat) (on : Nat → Bool) : Prop :=
  let r := fun k => convert f.fmt s.vec.rm s.vec.fmt (Mem.load (s.tile (p k).1).mem (p k).2 f.size)
  (Wrote s t d s.vec.vlMax fun k => if on k then some ((r k).1 % 2 ^ fmtWidth s.vec.fmt) else none) ∧
  Flagged s t fun k => if on k then (r k).2 else 0

/-- What a store leaves: every byte of every tile is that of the highest element of `on` that covers it, converted to memory, or
as it was (R286, R289). -/
def StoredElems (s t : State) (d : BitVec 5) (f : MemFmt) (p : Nat → Nat × Nat) (on : Nat → Bool) : Prop :=
  let r := fun k => convert s.vec.fmt s.vec.rm f.fmt (elemOf s d k)
  (∀ w x, Mem.read (t.tile w).mem x =
    match (List.range s.vec.vl.toNat).reverse.find? fun k =>
      on k && decide ((p k).1 = w ∧ (p k).2 ≤ x ∧ x < (p k).2 + f.size) with
    | some k => BitVec.ofNat 8 ((r k).1 / 256 ^ (x - (p k).2))
    | none => Mem.read (s.tile w).mem x) ∧
  (∀ x, Mem.read t.dram x = Mem.read s.dram x) ∧ (∀ x, Mem.read t.host x = Mem.read s.host x) ∧
  Flagged s t fun k => if on k then (r k).2 else 0


/-- R284, R285, R286: VLD and VLDS whose active elements all pass AccessCheck load each from its address, converted from the memory
format to VT's, and write nothing else. -/
def VectorLoad : Prop :=
  ∀ i d m e a addr s f p, VecMem i false d m e a addr → VecReady s → PlainRun s a f → Lies s m e f (addr s f.size) p →
    ∃ t, exec i s = .next t ∧ VecDone s t ∧ VecKept s t (some d) none none ∧ LoadedElems s t d f p (ActiveAt s m e)

/-- R284, R285, R286, R289: VST and VSTS whose active elements all pass AccessCheck store each at its address, converted to the
memory format; where two touch a byte the higher remains; no other byte and no register changes. -/
def VectorStore : Prop :=
  ∀ i d m e a addr s f p, VecMem i true d m e a addr → VecReady s → bits s.myTile.inject 3 0 ≠ 5 → PlainRun s a f →
    Lies s m e f (addr s f.size) p →
    ∃ t, exec i s = .next t ∧ VecDone s t ∧ VecRegs s t none none none ∧ StoredElems s t d f p (ActiveAt s m e)

/-- R287 step 4: in a unit or strided form the first active element that fails AccessCheck traps the whole instruction with its
cause and EVAL, and nothing is accessed. -/
def VectorMemoryTrap : Prop :=
  ∀ i st d m e a addr s f k c v, VecMem i st d m e a addr → VecReady s → PlainRun s a f → ActiveAt s m e k = true →
    s.vecCheck false f.size (addr s f.size k) f.size = .error (c, v) →
    (∀ j, j < k → ActiveAt s m e j = true → ∃ q, s.vecCheck false f.size (addr s f.size j) f.size = .ok q) →
    exec i s = .next (s.trapAt c v s.me.pc)

/-- R284, R286, R246: VLDX and VSTX that begin and whose active elements lie in tile memory perform those that pass AccessCheck. With none that
fails they complete. Otherwise FMASK becomes 1 exactly for the active elements that failed, and the trap is that of the
lowest of them, with EPC at the instruction. -/
def VectorIndexed : Prop :=
  ∀ i st x d m e a s f p, VecIdx i st x d m e a → VecReady s → (∀ q, s.me.pend ≠ .elems q) → bits s.myTile.inject 3 0 ≠ 5 → PlainRun s a f →
    ¬(fmtWidth s.vec.fmt = 8 ∧ 512 < s.vec.vl.toNat) →
    let addr := idxAddr s x a f.size
    let good := fun k => ActiveAt s m e k && ((s.vecCheck true f.size (addr k) f.size).toOption == some (.tile (p k).1 (p k).2))
    (∀ k, ActiveAt s m e k = true → (∀ va, addrForm (addr k) ≠ .far va) ∧
      (good k = true → (s.tile (p k).1).errs = 0) ∧
      (good k = false → ∃ c v, s.vecCheck true f.size (addr k) f.size = .error (c, v))) →
    let effect := fun t => if st then StoredElems s t d f p good else
      LoadedElems s t d f p good ∧ ∀ w b, Mem.read (t.tile w).mem b = Mem.read (s.tile w).mem b
    ((∀ k, ActiveAt s m e k = true → good k = true) → ∃ t, exec i s = .next t ∧ VecDone s t ∧ effect t ∧
      VecRegs s t (if st then none else some d) none none) ∧
    (∀ k c v, ActiveAt s m e k = true → s.vecCheck true f.size (addr k) f.size = .error (c, v) →
      (∀ j, j < k → ActiveAt s m e j = true → good j = true) →
      ∃ t, exec i s = .next (t.trapAt c v s.me.pc) ∧ effect t ∧
        ∀ j, j < 4096 → t.vec.fmask.getLsbD j = (ActiveAt s m e j && !good j))

/-- R271, R284: VLDX and VSTX whose lowest active element lies in far memory send that element's request on the slot's implicit
channel, with its value converted to the memory format where they store, and wait, the PC and every register
unchanged. -/
def VectorIndexedFar : Prop :=
  ∀ i st x d m e a s f k va, VecIdx i st x d m e a → VecReady s → s.me.pend = .none → PlainRun s a f →
    ¬(fmtWidth s.vec.fmt = 8 ∧ 512 < s.vec.vl.toNat) →
    ActiveAt s m e k = true → (∀ j, j < k → ActiveAt s m e j = false) →
    let addr := idxAddr s x a f.size k
    s.vecCheck true f.size addr f.size = .ok (.far va) → farMustWait s va f.size = false →
    ∃ t, exec i s = .next t ∧ t.me.pc = s.me.pc ∧ t.me.wait.isSome = true ∧ t.me.farTag = s.me.farTag + 1 ∧ RegsKept s t none ∧
      Asked s t (reqWords (if st then 2 else 1) 0 f.size s.me.farTag addr ++ [0, 0] ++
        (if st then [BitVec.ofNat 64 ((convert s.vec.fmt s.vec.rm f.fmt (elemOf s d k)).1 % 2 ^ (8 * f.size))] else []))

/-- R95, R96, R285: VLD from blocks in VT's own BFP format and block length, at a block boundary and whole in their bank or in
untyped memory, moves the exponent and the mantissas of every wholly active block raw. -/
def VectorLoadBlocks : Prop :=
  ∀ (s : State) o v m e d a u b, VecReady s → s.basePlace (s.g a) = some (.tile u b) →
    let f := s.memFmt s.vec.memFmt (.tile u b)
    f.fmt = s.vec.fmt → f.blk = s.vec.blk → isBfp f.fmt = true → fmtKnown f.fmt = true →
    s.vec.vl.toNat % f.blk = 0 → s.vec.vl.toNat ≤ s.vec.vlMax →
    (f.typed = true → f.boundary b = true ∧ f.inBank b (s.vec.vl.toNat / f.blk) = true) → (s.tile u).errs = 0 →
    (∀ j, j < s.vec.vl.toNat / f.blk →
      (∀ x n, (x, n) = (f.expAt b j, 1) ∨ (x, n) = (f.manAt b j, f.mb) →
        s.vecCheck false 1 (s.g a + BitVec.ofNat 64 (x - b)) n = .ok (.tile u x))) →
    ∃ t, exec (.vld o v m e d a) s = .next t ∧ VecDone s t ∧ VecKept s t (some d) none none ∧ t.vec.xm = s.vec.xm ∧
      ∀ j, j < s.vec.vl.toNat / f.blk →
        if (List.range f.blk).all fun k => ActiveAt s m e (j * f.blk + k) then
          t.vec.side d j = Mem.load (s.tile u).mem (f.expAt b j) 1 ∧
          ∀ k, k < f.blk → elemOf t d (j * f.blk + k) = elemAt f.w (Mem.load (s.tile u).mem (f.manAt b j) f.mb) k
        else t.vec.side d j = s.vec.side d j ∧ ∀ k, k < f.blk → elemOf t d (j * f.blk + k) = elemOf s d (j * f.blk + k)

/-! ### The matrix unit (06_matrix_accumulators.md) -/

/-- What a matrix instruction that writes accumulator `c` keeps: the other accumulator, every register, every byte. -/
def AccKept (s t : State) (c : BitVec 1) : Prop :=
  (∀ k : BitVec 1, k ≠ c → t.vec.acc[k.toFin] = s.vec.acc[k.toFin] ∧ t.vec.rs[k.toFin] = s.vec.rs[k.toFin]) ∧
  VecKept (s.updVec fun v => { v with acc := t.vec.acc, rs := t.vec.rs }) t none none none

/-- The cells of accumulator `c` with their classes, and its row sums. -/
def CellsAre (s t : State) (c : BitVec 1) (f : Nat → Nat → Nat × Nat) (rows : Nat → Nat) : Prop :=
  (∀ i j, i < 32 → j < 32 → t.vec.cell c (32 * i + j) = (f i j).1 % 2 ^ 32) ∧ (∀ i, i < 32 → t.vec.rowSum c i = rows i) ∧
  Flagged s t fun k => if k < 1024 then (f (k / 32) (k % 32)).2 else 0

/-- Row r of a panel lies at offset `(p r).2` of tile `(p r).1`, for `n` bytes, no uncorrectable error waiting (R210, R213). -/
def PanelAt (s : State) (base : Word) (stride n : Nat) (p : Nat → Nat × Nat) : Prop :=
  ∀ r, r < 32 → s.panelAt (base + BitVec.ofNat 64 (r * stride)) n = .ok (p r) ∧ (s.tile (p r).1).errs = 0

/-- Element k of row r of an integer panel of packed elements of `w` bits (R211). -/
def panelElem (s : State) (p : Nat → Nat × Nat) (n w : Nat) (sg : BitVec 1) (r k : Nat) : Int :=
  let v := elemAt w (Mem.load (s.tile (p r).1).mem (p r).2 n) k
  if sg = 1 then signExtend v w else v

/-- Row r of a BFP panel of `n` blocks (R212). -/
def BlockPanel (s : State) (base : Word) (stride n : Nat) (f : Nat → MemFmt) (p : Nat → Nat × Nat) : Prop :=
  PanelAt s base stride 1 p ∧ isBfp (f 0).fmt = true ∧ ∀ r, r < 32 →
    s.panelAt (base + BitVec.ofNat 64 (r * stride)) (n * (f r).step) = .ok (p r) ∧
    (s.tile (p r).1).bankFmt (p r).2 = some (f r) ∧ (f r).fmt = (f 0).fmt ∧ (f r).blk = (f 0).blk ∧
    (f r).boundary (p r).2 = true ∧ (f r).inBank (p r).2 n = true

/-- Exponent and signed mantissas of block j of row r. -/
def panelBlock (s : State) (f : Nat → MemFmt) (p : Nat → Nat × Nat) (r j : Nat) : Nat × List Int :=
  (Mem.load (s.tile (p r).1).mem ((f r).expAt (p r).2 j) 1,
   (List.range (f r).blk).map fun k =>
     signExtend (elemAt (f r).w (Mem.load (s.tile (p r).1).mem ((f r).manAt (p r).2 j) (f r).mb) k) (f r).w)

/-- One K-block step (02_number_formats.md R105): the product of two blocks, rounded, added to the accumulator. -/
def blockStep (wa wb o : Nat) (acc : Nat × Nat) (a b : Nat × List Int) : Nat × Nat :=
  let p : Nat × Nat :=
    if a.1 = 255 ∨ b.1 = 255 then (canonNan fFP32 o, xINVALID)
    else if a.1 = 0 ∨ b.1 = 0 then (0, 0)
    else
      let v := ((a.2.zip b.2).map fun q => q.1 * q.2).foldr (· + ·) 0
      roundFp fFP32 0 (decide (v < 0)) v.natAbs ((a.1 : Int) - 127 - (wa - 1 : Nat) + ((b.1 : Int) - 127 - (wb - 1 : Nat))) false
  let r := fpAdd fFP32 0 o false acc.1 p.1
  (r.1, acc.2 ||| p.2 ||| r.2)

/-- The byte a cell gives, and its classes (R92, R224). -/
def requantCell (zp cell m : Int) (sh : Nat) (u : Bool) : Nat × Nat :=
  let lo : Int := if u then 0 else -128
  let hi : Int := if u then 255 else 127
  let raw := roundShiftRne (cell * m) 31
  let x := Max.max (-2147483648) (Min.min raw 2147483647)
  let y := zp + roundShiftRne x sh
  let q := Max.max lo (Min.min y hi)
  ((q % 256).toNat, if x ≠ raw ∨ q ≠ y then xSATURATE + xINEXACT
    else if (q - zp) * 2 ^ (31 + sh) = cell * m then 0 else xINEXACT)

/-- R217, R218: MZERO clears an accumulator, its row sums and its poison; MINIT, in INT32 and FP32, writes each cell (r, c) the sum of
element c of vs and element r of vt, wrapped or rounded in RNE, and clears the row sums. -/
def MatrixInit : Prop :=
  ∀ (s : State) (c : BitVec 1), VecReady s →
    (∃ t, exec (.mzero c) s = .next t ∧ VecDone s t ∧ AccKept s t c ∧ CellsAre s t c (fun _ _ => (0, 0)) (fun _ => 0) ∧
      t.vec.accPoison c = false) ∧
    (∀ b a, s.vec.fmt = fINT32 ∨ s.vec.fmt = fFP32 →
      ∃ t, exec (.minit b c a) s = .next t ∧ VecDone s t ∧ AccKept s t c ∧
        t.vec.accPoison c = (bit (s.vec.poisReg a) 0 || bit (s.vec.poisReg b) 0) ∧
        CellsAre s t c (fun i j =>
          let x := elemAt 32 (s.vec.reg a) j
          let y := elemAt 32 (s.vec.reg b) i
          if s.vec.fmt = fINT32 then ((x + y) % 2 ^ 32, 0)
          else fpAdd fFP32 0 (originOf (32 * i + j) s.cur.slot.val s.pcOff) false x y) fun _ => 0)

/-- R210, R219, R220: MMA adds to each cell the exact integer product of its row and column, wrapped, or clamped with its classes
when SAT is 1, and to each row sum the sum of its row. MMAB takes each cell through the K-block steps of its row and
column in ascending order, and leaves the row sums. -/
def MatrixProduct : Prop :=
  ∀ (s : State) (e : BitVec 3) (c : BitVec 1) (a b : BitVec 5) (p q : Nat → Nat × Nat), VecReady s →
    let w := s.e e
    let k := s.vec.vl.toNat
    (∀ (sa sb x : BitVec 1), let wa := bits w 43 40; let wb := bits w 47 44
      bits w 63 48 = 0 → 2 ≤ wa → wa ≤ 8 → 2 ≤ wb → wb ≤ 8 →
      PanelAt s (s.g a) (bits w 19 0) ((k * wa + 7) / 8) p → PanelAt s (s.g b) (bits w 39 20) ((k * wb + 7) / 8) q →
      ∃ t, exec (.mma b e c sa sb x a) s = .next t ∧ VecDone s t ∧ AccKept s t c ∧
        CellsAre s t c (fun i j =>
          let v := signExtend (s.vec.cell c (32 * i + j)) 32 + ((List.range k).map fun z =>
            panelElem s p ((k * wa + 7) / 8) wa sa i z * panelElem s q ((k * wb + 7) / 8) wb sb j z).foldr (· + ·) 0
          let z := if x = 1 then Max.max (-2147483648) (Min.min v 2147483647) else v
          ((z % 2 ^ 32).toNat, if z = v then 0 else 48))
        fun i => (((s.vec.rowSum c i : Int) + ((List.range k).map
          (panelElem s p ((k * wa + 7) / 8) wa sa i)).foldr (· + ·) 0) % 2 ^ 32).toNat) ∧
    (∀ f g : Nat → MemFmt, bits w 63 40 = 0 → (f 0).blk = (g 0).blk → k % (f 0).blk = 0 →
      BlockPanel s (s.g a) (bits w 19 0) (k / (f 0).blk) f p → BlockPanel s (s.g b) (bits w 39 20) (k / (f 0).blk) g q →
      ∃ t, exec (.mmab b e c a) s = .next t ∧ VecDone s t ∧ AccKept s t c ∧
        CellsAre s t c (fun i j => (List.range (k / (f 0).blk)).foldl
          (fun acc z => blockStep (f 0).w (g 0).w (originOf j s.cur.slot.val s.pcOff) acc (panelBlock s f p i z) (panelBlock s g q j z))
          (s.vec.cell c (32 * i + j), 0)) (s.vec.rowSum c))

/-- R221, R222, R224: MROWSUM and MDRAIN copy row sums and cells to a register without change, or, MDRAIN, to the scratchpad; MDRAINQ
writes every cell requantised to a byte. No accumulator changes; elements and bytes outside the image are kept. -/
def MatrixDrain : Prop :=
  ∀ (s : State) (c : BitVec 1) (d a b : BitVec 5) (e : BitVec 3), VecReady s →
    let w := s.e e
    let q := fun k => requantCell (signExtend (bits w 63 32) 32) (signExtend (s.vec.cell c k) 32)
      (signExtend (elemAt 32 (s.vec.reg b) (k % 32)) 32) (bits w 5 0) (bit w 6)
    let room := fun x n => x < 0xC0000 ∧ x % 8 = 0 ∧ x + n ≤ 0xC0000 ∧ bits s.myTile.inject 3 0 ≠ 5
    (∃ t, exec (.mrowsum c d) s = .next t ∧ VecDone s t ∧ VecKept s t (some d) none none ∧ t.vec.xm = s.vec.xm ∧
      ∀ k, k < 256 → elemAt 32 (t.vec.reg d) k = if k < 32 then s.vec.rowSum c k else elemAt 32 (s.vec.reg d) k) ∧
    ((s.g a).toNat ∈ [0, 8, 16, 24] → ∃ t, exec (.mdrainReg c d a) s = .next t ∧ VecDone s t ∧
      VecKept s t (some d) none none ∧ t.vec.xm = s.vec.xm ∧
      ∀ k, k < 256 → elemAt 32 (t.vec.reg d) k = s.vec.cell c (32 * (s.g a).toNat + k)) ∧
    (room (s.g a).toNat 4096 → ∃ t, exec (.mdrainSpad c a) s = .next t ∧ VecDone s t ∧ VecRegs s t none none none ∧
      t.vec.xm = s.vec.xm ∧ ∀ u x, Mem.read (t.tile u).mem x =
        if u = s.cur.tile ∧ (s.g a).toNat ≤ x ∧ x < (s.g a).toNat + 4096 then
          BitVec.ofNat 8 (s.vec.cell c ((x - (s.g a).toNat) / 4) / 256 ^ ((x - (s.g a).toNat) % 4))
        else Mem.read (s.tile u).mem x) ∧
    (bits w 31 7 = 0 → ∃ t, exec (.mdrainqReg b e c d) s = .next t ∧ VecDone s t ∧ VecKept s t (some d) none none ∧
      (∀ k, k < 1024 → elemAt 8 (t.vec.reg d) k = (q k).1) ∧ Flagged s t fun k => if k < 1024 then (q k).2 else 0) ∧
    (bits w 31 7 = 0 → room (s.g a).toNat 1024 → ∃ t, exec (.mdrainqSpad b e c a) s = .next t ∧ VecDone s t ∧
      VecRegs s t none none none ∧ (∀ u x, Mem.read (t.tile u).mem x =
        if u = s.cur.tile ∧ (s.g a).toNat ≤ x ∧ x < (s.g a).toNat + 1024 then
          BitVec.ofNat 8 (q (x - (s.g a).toNat)).1 else Mem.read (s.tile u).mem x) ∧
      Flagged s t fun k => if k < 1024 then (q k).2 else 0)

/-! ### Copies (08_memories.md R292-R299) -/

/-- The copies of one source and one destination: what the instruction names, the operation's formats, and the destination
element from its old value and the converted source element, in the destination format (R296). -/
inductive CopyForm : Instr → BitVec 3 → BitVec 5 → BitVec 5 → (Nat → Bool) → (Nat → Nat → Nat → Nat) → Prop
  | cpy y d a : CopyForm (.cpy y d a) y d a (fun _ => true) fun _ _ x => x
  | add y d a : CopyForm (.cpyrAdd y d a) y d a isInt fun f o x => (o + x) % 2 ^ fmtWidth f
  | fadd y d a : CopyForm (.cpyrFadd y d a) y d a (fun f => f == fFP32) fun _ o x => (fpAdd fFP32 0 0 false o x).1
  | bfadd y d a : CopyForm (.cpyrBfadd y d a) y d a (fun f => f == fBF16) fun _ o x => (fpAdd fBF16 0 0 false o x).1
  | min y d a : CopyForm (.cpyrMin y d a) y d a isInt fun f o x => if intVal f o ≤ intVal f x then o else x
  | max y d a : CopyForm (.cpyrMax y d a) y d a isInt fun f o x => if intVal f o < intVal f x then x else o
  | fmin y d a : CopyForm (.cpyrFmin y d a) y d a (fun f => f == fFP32) fun _ o x => (fpMinMax fFP32 false o x).1
  | fmax y d a : CopyForm (.cpyrFmax y d a) y d a (fun f => f == fFP32) fun _ o x => (fpMinMax fFP32 true o x).1

/-- One side of a copy lies in tile memory, in a format that is not BFP, aligned; element k, active, passes its AccessCheck and
lies at `p k`. -/
def CopySide (s : State) (x : Word) (f : MemFmt) (p : Nat → Nat × Nat) : Prop :=
  (∃ u o, s.basePlace x = some (.tile u o)) ∧ f = s.fmtOfBase x ∧ fmtKnown f.fmt = true ∧ isBfp f.fmt = false ∧
  x.toNat % f.size = 0 ∧ ∀ k, ActiveAt s 0 0 k = true →
    s.vecCheck true 1 (x + BitVec.ofNat 64 (k * f.size)) f.size = .ok (.tile (p k).1 (p k).2) ∧ (s.tile (p k).1).errs = 0

/-- The sync-word operand is absent, or names the word at offset `o` of the issuing tile (R294). -/
def SyncWord (q : Word) (o : Option Nat) : Prop :=
  (q = 0 ∧ o = none) ∨ ∃ x, o = some x ∧ x % 16 = 0 ∧ x ≤ 0xCFFF0 ∧ q.toNat = 2 ^ 63 + x

/-- Every byte of memory after elements were placed at `p` in this tile, each `v` of `n` bytes, but for the sync word. -/
def PlacedElems (s t : State) (p : Nat → Nat × Nat) (n : Nat) (v : Nat → Nat) (o : Option Nat) : Prop :=
  (∀ w b, ¬(w = s.cur.tile ∧ ∃ x, o = some x ∧ x ≤ b ∧ b < x + 16) → Mem.read (t.tile w).mem b =
    match (List.range s.vec.vl.toNat).find? fun k =>
      ActiveAt s 0 0 k && decide (w = s.cur.tile ∧ (p k).2 ≤ b ∧ b < (p k).2 + n) with
    | some k => BitVec.ofNat 8 (v k / 256 ^ (b - (p k).2))
    | none => Mem.read (s.tile w).mem b) ∧
  (∀ b, Mem.read t.dram b = Mem.read s.dram b) ∧ ∀ b, Mem.read t.host b = Mem.read s.host b

/-! ### Channels (10_channels.md) -/

/-- SEND and RECV with their compressed forms: length, port, register (R335; 03_encoding.md R117). -/
inductive Sends : Instr → Nat → BitVec 4 → BitVec 5 → Prop
  | send p a : Sends (.send p a) 4 p a
  | cSend p a : Sends (.cSend p a) 2 p a

inductive Recvs : Instr → Nat → BitVec 4 → BitVec 5 → Prop
  | recv p d : Recvs (.recv p d) 4 p d
  | cRecv d p : Recvs (.cRecv d p) 2 p d

/-- The receive end has spilled nothing and holds nothing that waits for a place. -/
def Unspilled (e : RecvEnd) : Prop := e.early = [] ∧ e.spilled = [] ∧ e.ahead = []

/-- One new message stands in the tile's send shadow: a TOKENS message to the end's peer with these bytes. -/
def SentTokens (s t : State) (e : SendEnd) (bytes : List Byte) : Prop :=
  ∃ m, t.myTile.fab.shadow = s.myTile.fab.shadow ++ [m] ∧ m.msg.payload = bytes ∧ m.msg.hdr.dst = e.peer ∧
    m.msg.hdr.cls = clsTOKENS ∧ m.msg.hdr.stream = .chan e.netid e.chan

/-- Token `j` of the elements below VL of a register: bits [64j + 63 : 64j] of their concatenation (R336). -/
def vecToken (s : State) (r : BitVec 5) (j : Nat) : Word :=
  BitVec.ofNat 64 (s.vec.reg r % 2 ^ (s.vec.vl.toNat * fmtWidth s.vec.fmt) / 2 ^ (64 * j))

/-- R293, R296, R298: a copy from tile memory to the issuing tile's own memory, both sides in formats that are not BFP, reads every
active element, converts it in RNE, combines it with the destination where the copy reduces, writes it, and retires; no
other byte but the sync word's changes, and no register. A reducing copy does so when the tile's executor holds nothing
before it (R390). CPYF writes the low bits of g t to each. -/
def CopyInTile : Prop :=
  ∀ (s : State) fd q o, VecReady s → s.me.pend = .none → bits s.myTile.inject 3 0 ≠ 5 →
    (∀ i y d a ok f fs p, CopyForm i y d a ok f → CopySide s (s.g a) fs p → CopySide s (s.g d) fd q →
      (∃ x, s.basePlace (s.g d) = some (.tile s.cur.tile x)) → (∀ k, ActiveAt s 0 0 k = true → (q k).1 = s.cur.tile) →
      ok fd.fmt = true → SyncWord (s.e y) o →
      ((∃ y' d' a', i = .cpy y' d' a') ∨ s.execBusy ⟨.tile, s.cur.tile⟩ = false) →
      ∃ t, exec i s = .next t ∧ VecDone s t ∧ VecRegs s t none none none ∧ t.vec.xm = s.vec.xm ∧
        PlacedElems s t q fd.size (fun k => f fd.fmt (Mem.load s.myTile.mem (q k).2 fd.size)
          (convert fs.fmt 0 fd.fmt (Mem.load (s.tile (p k).1).mem (p k).2 fs.size)).1) o) ∧
    (∀ r y d, CopySide s (s.g d) fd q → (∃ x, s.basePlace (s.g d) = some (.tile s.cur.tile x)) →
      (∀ k, ActiveAt s 0 0 k = true → (q k).1 = s.cur.tile) → SyncWord (s.e y) o →
      ∃ t, exec (.cpyf r y d) s = .next t ∧ VecDone s t ∧ VecRegs s t none none none ∧ t.vec.xm = s.vec.xm ∧
        PlacedElems s t q fd.size (fun _ => (s.g r).toNat) o)

/-- R298, R246: a copy whose destinations have all answered retires: with no element refused it completes; otherwise FMASK becomes 1
exactly for the active elements refused, and the trap is that of the lowest. The strip is the one its issue fixed, whatever
its registers and formats name now. -/
def CopyRetires : Prop :=
  ∀ i o (s : State) c, CopyAsks i o → VecReady s → s.me.pend = .copy c → c.sent = true → c.await = [] → c.faults = [] →
    (∀ h, o.mc = some h → bit s.me.handles[h.toFin] 63 = true) →
    let st := c.strip
    (c.refused = [] → ∃ t, exec i s = .next t ∧ VecDone s t ∧ VecKept s t none none none ∧ t.vec.xm = s.vec.xm ∧
      t.me.pend = .none) ∧
    (∀ lo hi k, c.refused = [(lo, hi, k)] → (∃ j, lo ≤ j ∧ j < hi ∧ st.act.testBit j = true) →
      ∃ (t : State) (j : Nat), exec i s = .next (t.trapAt k (sideAddr st.fd st.da j) s.me.pc) ∧ lo ≤ j ∧ j < hi ∧ st.act.testBit j = true ∧
        (∀ l, lo ≤ l → l < j → st.act.testBit l = false) ∧
        ∀ l, l < 4096 → t.vec.fmask.getLsbD l = (decide (lo ≤ l ∧ l < hi) && st.act.testBit l))

/-- R335, R329: SEND with a credit sends one token and uses the credit; without one it waits, and with one it waits
while an update or errand frame of the slot is still to be performed (R337); at an unbound port, or one whose end is
CLOSED or GONE, it raises CHANNEL_BROKEN. -/
def ChannelSend : Prop :=
  ∀ i len p a s, Sends i len p a → Ready s →
    (∀ j e, s.sendAtPort p = some (j, e) → e.state = .open → e.noticed = false → s.released = false → 0 < e.credits →
      exec i s = .next (s.block .issue)) ∧
    (∀ j e, s.sendAtPort p = some (j, e) → e.state = .open → e.noticed = false → s.released = true → 0 < e.credits →
      ∃ t, exec i s = .next t ∧ t.me.pc = s.me.pc + BitVec.ofNat 64 len ∧ RegsKept s t none ∧
        SentTokens s t e (toBytes 8 (s.g a).toNat) ∧
        mapFind t.myTile.ends j = some (.send { e with nextSeq := (e.nextSeq + 1) % 2 ^ 32, credits := e.credits - 1 })) ∧
    (∀ j e, s.sendAtPort p = some (j, e) → e.state = .open → e.noticed = false → e.credits = 0 →
      exec i s = .next (s.block (.send j 1 []))) ∧
    ((s.sendAtPort p = none ∨ ∃ j e, s.sendAtPort p = some (j, e) ∧ e.state ≠ .open) →
      exec i s = .next (s.trapAt 0x10 (0x100 + p.setWidth 64) s.me.pc))

/-- R335, R329, R331: RECV takes the first token of its port into d, and the end's number moves on by one; at an end token it gives 0
and sets EOS, or raises CHANNEL_BROKEN where the trap-on-end bit is set; with neither it waits. -/
def ChannelReceive : Prop :=
  ∀ i len p d s, Recvs i len p d → Ready s →
    (∀ j e v psn, s.recvAtPort p = some (j, e) → 0 < e.avail 1 → e.tokenAt s.myTile.mem 0 = (v, psn) → Unspilled e →
      ∃ t, exec i s = .next t ∧ t.me.pc = s.me.pc + BitVec.ofNat 64 len ∧ RegsKept s t (some d) ∧
        (d ≠ 0 → t.me.getG d = v) ∧ mapFind t.myTile.ends j = some (.recv (e.taken 1))) ∧
    (∀ j e, s.recvAtPort p = some (j, e) → e.avail 1 = 0 → e.endAfter 0 = true → e.toe = false →
      exec i s = .next ((((s.setEnd s.cur.tile j (.recv e.metEnd)).setEos).setG d 0).adv len).done) ∧
    (∀ j e, s.recvAtPort p = some (j, e) → e.avail 1 = 0 → e.endAfter 0 = true → e.toe = true →
      exec i s = .next ((s.setEnd s.cur.tile j (.recv e.metEnd)).trapAt 0x10 (0x100 + p.setWidth 64) s.me.pc)) ∧
    (∀ j e, s.recvAtPort p = some (j, e) → e.avail 1 = 0 → e.endAfter 0 = false → e.spilled = [] →
      exec i s = .next (s.block (.recv [(j, 1)]))) ∧
    (s.recvAtPort p = none → exec i s = .next (s.trapAt 0x10 (0x100 + p.setWidth 64) s.me.pc))

/-- R335, R338: SENDE sends the end token and closes its end; RECVE gives the data and a status, and never traps on an end token; PORTQ
gives the state of a port, 0 for an unbound one. -/
def ChannelEnds : Prop :=
  ∀ (s : State) (p : BitVec 4) (d a : BitVec 5), Ready s →
    (∀ j e, s.sendAtPort p = some (j, e) → e.state = .open → e.noticed = false → s.released = true →
      ∃ t m, exec (.sende p) s = .next t ∧ t.me.pc = s.me.pc + 4 ∧ RegsKept s t none ∧
        mapFind t.myTile.ends j = some (.send { e with state := .closed }) ∧
        t.myTile.fab.shadow = s.myTile.fab.shadow ++ [m] ∧ m.msg.hdr.dst = e.peer ∧ m.msg.hdr.cls = clsTOKENS ∧
        bits m.msg.hdr.arg 42 41 = 1) ∧
    (∀ j e v psn, ¬(d = a ∧ d ≠ 0) → s.recvAtPort p = some (j, e) → 0 < e.avail 1 → e.tokenAt s.myTile.mem 0 = (v, psn) →
      Unspilled e → ∃ t, exec (.recve p d a) s = .next t ∧ t.me.pc = s.me.pc + 4 ∧ (d ≠ 0 → t.me.getG d = v) ∧
        (a ≠ 0 → t.me.getG a = 0) ∧ (∀ n, n ≠ d → n ≠ a → t.me.getG n = s.me.getG n) ∧
        mapFind t.myTile.ends j = some (.recv (e.taken 1))) ∧
    (∀ j e, ¬(d = a ∧ d ≠ 0) → s.recvAtPort p = some (j, e) → e.avail 1 = 0 → e.endAfter 0 = true →
      exec (.recve p d a) s = .next (((((s.setEnd s.cur.tile j (.recv e.metEnd)).setG d 0).setG a
        (if e.endBroken then 2 else 1)).adv 4).done)) ∧
    (d = a → d ≠ 0 → ∃ v, exec (.recve p d a) s = .next (s.trapAt 0x01 v s.me.pc)) ∧
    exec (.portq p d) s = .next (s.ended 4 fun x => x.setG d (match s.portEnd s.cur.tile s.cur.slot p with
      | none => 0
      | some (_, .send e) => BitVec.ofNat 64 (3 + (match e.state with
          | .open => 0
          | .closed => 4
          | .gone => 8) + e.chan * 2 ^ 16 + e.cap * 2 ^ 40)
      | some (_, .recv e) => BitVec.ofNat 64 (1 + (match e.state with
          | .open => 0
          | .ended => 4
          | .broken => 8) + (if e.toe then 16 else 0) + e.chan * 2 ^ 16 + e.decl * 2 ^ 40)))

/-! ### Errands (11_fragments_and_errands.md R382-R390) -/

/-- The 64 bytes of a frame image lie at local address `a` of the issuing tile, aligned, in scratchpad or scalar data memory (R388). -/
def FrameImage (s : State) (a : Word) (f : List Byte) : Prop :=
  a.toNat % 8 = 0 ∧ a.toNat + 64 ≤ 0xD0000 ∧ s.myTile.errs = 0 ∧ f = (List.range 64).map fun k => Mem.read s.myTile.mem (a.toNat + k)

/-- An event on a package whose core rail is up completes, in the state given. -/
def Happens (i : Instr) (s t : State) : Prop := exec i s = .next t

/-- Message `n` of an end's inbox. -/
def Inbox (s : State) (e : Ep) (n : Nat) (m : Msg) : Prop := (s.fab e).inbox[n]? = some m

/-- The executor of a tile has a frame at its head, and nothing decoded at the tile waits to join its queue. -/
def FrameFirst (s : State) (u : Nat) (m : Msg) (q : List ExecEntry) : Prop :=
  (s.tile u).execQ = .frame m :: q ∧ (∀ x ∈ (s.fab ⟨.tile, u⟩).inbox, execKind ⟨.tile, u⟩ x = .other) ∧
  m.payload.length = 64

/-- A REPLY to the frame's errand has been sent by tile `u`: status, value. -/
def Replied (s t : State) (u : Nat) (m : Msg) (status : Nat) (v : Word) : Prop :=
  ∃ r, (t.tile u).fab.shadow = (s.tile u).fab.shadow ++ [r] ∧ r.msg.hdr.cls = clsREPLY ∧ r.msg.hdr.dst = ⟨.tile, m.hdr.src.num⟩ ∧
    bits r.msg.hdr.arg 15 0 = m.hdr.seq % 65536 ∧ bits r.msg.hdr.arg 23 16 = status ∧ r.msg.payload = toBytes 8 v.toNat

/-- What an event that touches no program keeps: every g and e register, PC, STATUS and vector register of every slot. -/
def RegsAll (s t : State) : Prop :=
  ∀ u, (∀ k : Fin 8, (∀ n, (t.slot u k).getG n = (s.slot u k).getG n) ∧ (∀ n, (t.slot u k).getE n = (s.slot u k).getE n) ∧
    (t.slot u k).pc = (s.slot u k).pc ∧ (t.slot u k).status = (s.slot u k).status) ∧ (t.tile u).vecs = (s.tile u).vecs

/-- Every byte of every memory kept. -/
def MemAll (s t : State) : Prop :=
  (∀ w x, Mem.read (t.tile w).mem x = Mem.read (s.tile w).mem x) ∧ (∀ x, Mem.read t.dram x = Mem.read s.dram x) ∧
  ∀ x, Mem.read t.host x = Mem.read s.host x

/-- R388, R384, R385: ERRAND with a frame that passes its checks, fewer than 16 errands kept and nothing earlier of the slot that must be
performed first (09_memory_ordering.md R307, R312) sends the frame, with its own PID, and gives the errand's tag in d;
otherwise it waits; a frame that fails raises ERRAND_REJECT with the reason of the check. -/
def ErrandSend : Prop :=
  ∀ (s : State) (d a : BitVec 5) f, Ready s → s.me.errRec = 0 → FrameImage s (s.g a) f →
    (∀ ops, frameCheck f = .ok ops → s.me.errOut.length + s.me.validComps < 16 →
      frameMustWait s (s.frameReach (frameTarget f)) = false → s.me.tagUsed s.me.errTag = false →
      ∃ t m, exec (.errand d a) s = .next t ∧ t.me.pc = s.me.pc + 4 ∧ RegsKept s t (some d) ∧
        (d ≠ 0 → t.me.getG d = s.me.errTag.setWidth 64) ∧ t.me.errTag = s.me.errTag + 1 ∧
        t.me.errOut = s.me.errOut ++ [{ tag := s.me.errTag, wait := frameWait f, reach := s.frameReach (frameTarget f) }] ∧
        t.myTile.fab.shadow = s.myTile.fab.shadow ++ [m] ∧ m.msg.hdr.cls = clsERRAND ∧ m.msg.hdr.seq = s.me.errTag.toNat ∧
        m.msg.hdr.dst = s.frameDest (frameTarget f) ∧ m.msg.payload = f.take 2 ++ toBytes 2 s.me.pid.toNat ++ f.drop 4) ∧
    (∀ ops, frameCheck f = .ok ops →
      (16 ≤ s.me.errOut.length + s.me.validComps ∨ frameMustWait s (s.frameReach (frameTarget f)) = true) →
      exec (.errand d a) s = .next (s.block .issue)) ∧
    (∀ r, frameCheck f = .error r → exec (.errand d a) s = .next (s.trapAt 0x1A (BitVec.ofNat 64
      (r.reason % 256 * 2 ^ 56 + r.idx % 256 * 2 ^ 48 + r.cause % 256 * 2 ^ 40 + 0xFFFF)) s.me.pc))

/-- R388, R389: ERRWAIT of a tag whose completion is kept with status 0 takes the value into d and empties the position; it waits while
the errand is outstanding; a tag that is neither raises ERRAND_REJECT with reason 0x0A. -/
def ErrandWait : Prop :=
  ∀ (s : State) (d a : BitVec 5), Ready s → s.me.errRec = 0 →
    (∀ (j : Fin 16), s.me.comps[j].valid = true → s.me.comps[j].tag = (s.g a).setWidth 16 →
      (∀ k : Fin 16, k < j → ¬(s.me.comps[k].valid = true ∧ s.me.comps[k].tag = (s.g a).setWidth 16)) →
      s.me.comps[j].status = 0 →
      exec (.errwait d a) s = .next (s.ended 4 fun x =>
        ({ x with comps := x.comps.set j Completion.reset, pend := .none } : Slot).setG d s.me.comps[j].val)) ∧
    ((∀ k : Fin 16, ¬(s.me.comps[k].valid = true ∧ s.me.comps[k].tag = (s.g a).setWidth 16)) →
      ((∃ o ∈ s.me.errOut, o.tag = (s.g a).setWidth 16 ∧ o.wait = true) →
        exec (.errwait d a) s = .next ((s.updMe fun x => { x with pend := .begun }).block .issue)) ∧
      ((∀ o ∈ s.me.errOut, ¬(o.tag = (s.g a).setWidth 16 ∧ o.wait = true)) →
        exec (.errwait d a) s = .next (s.trapAt 0x1A (BitVec.ofNat 64
          (0x0A * 2 ^ 56 + 0xFF * 2 ^ 48 + (s.g a).toNat % 65536)) s.me.pc)))

/-- R388, R507: a REPLY that arrives for an outstanding errand with WAIT = 1 ends it, and its completion is kept; with WAIT = 0 and
status 0 it ends without a trace. -/
def ErrandReply : Prop :=
  ∀ (s : State) u n m o, s.dev.railUp = true → u < 8192 → Inbox s ⟨.tile, u⟩ n m → m.hdr.cls = clsREPLY →
    let k : Fin 8 := Fin.ofNat 8 m.hdr.aslot
    (s.slot u k).run = .running → (s.slot u k).errOut = [o] → o.tag.toNat = bits m.hdr.arg 15 0 →
    (∀ j : Fin 16, (s.slot u k).comps[j].valid = false) →
    ∃ t, Happens (.replyMessage ⟨.tile, u⟩ n) s t ∧ (t.slot u k).errOut = [] ∧
      (o.wait = true → (t.slot u k).comps[(0 : Fin 16)] =
        { valid := true, tag := o.tag, status := BitVec.ofNat 8 (bits m.hdr.arg 23 16),
          val := wordAt (toWords m.payload) 0, idx := BitVec.ofNat 8 (bits m.hdr.arg 31 24),
          why := BitVec.ofNat 8 (bits m.hdr.arg 39 32) }) ∧
      (o.wait = false → bits m.hdr.arg 23 16 = 0 → (t.slot u k).comps = (s.slot u k).comps ∧
        (t.slot u k).errRec = (s.slot u k).errRec) ∧
      (∀ r, (t.slot u k).getG r = (s.slot u k).getG r) ∧ (t.slot u k).pc = (s.slot u k).pc

/-! ### Reels (12_reels.md) -/

/-- The word of a handle of the current slot (R407). -/
def handleWord (s : State) (h : BitVec 4) : Word := s.me.handles[h.toFin]

/-- The slot has sent the reel message `op` with these words on the handle's account (R434). -/
def SentReel (s t : State) (station entry rank op : Nat) (words : List Word) : Prop :=
  ∃ m, t.myTile.fab.shadow = s.myTile.fab.shadow ++ [m] ∧ m.msg.hdr.cls = clsREEL ∧ m.msg.hdr.dst = ⟨.reel, station⟩ ∧
    bits m.msg.hdr.arg 7 0 = op ∧ bits m.msg.hdr.arg 15 8 = entry ∧ bits m.msg.hdr.arg 25 16 = rank ∧
    m.msg.payload = ofWords words

/-- The active elements of a mask, below VL (R420, R423). -/
def activeCount (s : State) (k : BitVec 3) : Nat :=
  (List.range s.vec.vl.toNat).countP fun i => s.vec.fmask.getLsbD i && (s.vec.mask k).getLsbD i

/-- GARR: its handle, and the weight it arrives with (R420). -/
inductive Arrives : Instr → BitVec 4 → (State → Nat) → (State → Prop) → Prop
  | garr h a : Arrives (.garr h a) h (fun s => (s.g a).toNat) fun _ => True
  | garrMask h k : Arrives (.garrMask h k) h (fun s => activeCount s k) fun s => s.cur.slot.val < 2 ∧ s.vec.bad = false

/-- The word a GVOTE writes from the station's answer (R423). -/
def voteResult (ans : List Word) : Word :=
  BitVec.ofNat 64 ((wordAt ans 1).toNat % 2 ^ 32 + (wordAt ans 2).toNat % 2 ^ 16 * 2 ^ 32 + (wordAt ans 3).toNat % 2 * 2 ^ 63)

/-- The second register of a GRED: the departed count and MIXED (R424). -/
def redSecond (ans : List Word) : Word :=
  BitVec.ofNat 64 ((wordAt ans 2).toNat % 2 ^ 32 + (wordAt ans 3).toNat % 2 * 2 ^ 63)

/-- The collectives that wait (R421-R424): handle, kind, what they contribute when arriving with weight n, when they are legal,
and what they write from the answer. -/
inductive Collective : Instr → BitVec 4 → Nat → (State → Nat → Word) → (State → Prop) → (List Word → Slot → Slot) → Prop
  | gbar h d : Collective (.gbar h d) h 0 (fun _ _ => 0) (fun _ => True) fun w x => x.setG d (wordAt w 0)
  | voteAll h d a : Collective (.gvoteAll h d a) h 1 (fun s n => if s.g a ≠ 0 then BitVec.ofNat 64 n else 0) (fun _ => True)
      fun w x => x.setG d (voteResult w)
  | voteAny h d a : Collective (.gvoteAny h d a) h 2 (fun s n => if s.g a ≠ 0 then BitVec.ofNat 64 n else 0) (fun _ => True)
      fun w x => x.setG d (voteResult w)
  | voteCount h d a : Collective (.gvoteCount h d a) h 3 (fun s n => if s.g a ≠ 0 then BitVec.ofNat 64 n else 0)
      (fun _ => True) fun w x => x.setG d (voteResult w)
  | voteAllMask h d k : Collective (.gvoteAllMask h d k) h 1 (fun s _ => BitVec.ofNat 64 (activeCount s k))
      (fun s => s.cur.slot.val < 2 ∧ s.vec.bad = false) fun w x => x.setG d (voteResult w)
  | voteAnyMask h d k : Collective (.gvoteAnyMask h d k) h 2 (fun s _ => BitVec.ofNat 64 (activeCount s k))
      (fun s => s.cur.slot.val < 2 ∧ s.vec.bad = false) fun w x => x.setG d (voteResult w)
  | voteCountMask h d k : Collective (.gvoteCountMask h d k) h 3 (fun s _ => BitVec.ofNat 64 (activeCount s k))
      (fun s => s.cur.slot.val < 2 ∧ s.vec.bad = false) fun w x => x.setG d (voteResult w)
  | redSum h y d a : Collective (.gredSum h y d a) h (4 + y.toNat) (fun s _ => BitVec.ofNat 64 ((s.g a).toNat % 2 ^ redWidth y.toNat))
      (fun _ => ¬(d = a ∧ d ≠ 0)) fun w x => (x.setG d (wordAt w 1)).setG a (redSecond w)
  | redMin h y d a : Collective (.gredMin h y d a) h (7 + y.toNat) (fun s _ => BitVec.ofNat 64 ((s.g a).toNat % 2 ^ redWidth y.toNat))
      (fun _ => ¬(d = a ∧ d ≠ 0)) fun w x => (x.setG d (wordAt w 1)).setG a (redSecond w)
  | redMax h y d a : Collective (.gredMax h y d a) h (10 + y.toNat) (fun s _ => BitVec.ofNat 64 ((s.g a).toNat % 2 ^ redWidth y.toNat))
      (fun _ => ¬(d = a ∧ d ≠ 0)) fun w x => (x.setG d (wordAt w 1)).setG a (redSecond w)

/-- GNEW and GJOIN: handle, operation code, scope, d, s (R411). -/
inductive Joins : Instr → BitVec 4 → Nat → Nat → BitVec 5 → BitVec 5 → Prop
  | gnew h c d a : Joins (.gnew h c d a) h 1 c.toNat d a
  | gjoin h d a : Joins (.gjoin h d a) h 2 0 d a

/-- A REEL message of operation `op`, the first of its class at station `n`, is to be taken. -/
def AtStation (s : State) (n j op : Nat) (m : Msg) : Prop :=
  s.dev.railUp = true ∧ n < 32 ∧ Inbox s ⟨.reel, n⟩ j m ∧ m.hdr.cls = clsREEL ∧ bits m.hdr.arg 7 0 = op ∧
  ∀ k x, k < j → Inbox s ⟨.reel, n⟩ k x → x.hdr.cls ≠ clsREEL

/-- Word `k` of a message. -/
def msgWord (m : Msg) (k : Nat) : Nat := (wordAt (toWords m.payload) k).toNat

/-- The member a request's handle fields name is `o`, slot `i` of the station's members, of entry `e` (R410). -/
def Names (s : State) (n : Nat) (m : Msg) (pid : Nat) (e : ReelEntry) (i : Nat) (o : Member) : Prop :=
  mapFind (s.reelSt n).entries (bits m.hdr.arg 15 8) = some e ∧
  (s.reelSt n).member (bits m.hdr.arg 15 8) (bits m.hdr.arg 25 16) pid m.hdr.netid = some (i, o)

/-- Station `n` has sent one reel message with these words for a slot of a tile; a station's header names slot 0 (R362). -/
def StationSent (s t : State) (n tile slot op : Nat) (words : List Word) : Prop :=
  ∃ m, (t.reelSt n).fab.shadow = (s.reelSt n).fab.shadow ++ [m] ∧ m.msg.hdr.cls = clsREEL ∧ m.msg.hdr.dst = ⟨.tile, tile⟩ ∧
    m.msg.hdr.slot = 0 ∧ m.msg.hdr.aslot = slot ∧ bits m.msg.hdr.arg 7 0 = op ∧ m.msg.payload = ofWords words

/-- R410, R419, R420: GARR through a bound handle with room for its weight sends the arrival, once every earlier write is performed,
and counts it in the handle; a weight of 0 does nothing; one above the room, or an unbound handle, raises GROUP_FAULT. -/
def ReelArrival : Prop :=
  ∀ i h n ok s, Arrives i h n ok → Ready s → ok s →
    let w := handleWord s h
    let room := bits w 37 22 - bits w 21 6
    (bit w 63 = false → exec i s = .next (s.trapAt 0x14 (BitVec.ofNat 64 (2 ^ 56 + h.toNat * 2 ^ 52)) s.me.pc)) ∧
    (bit w 63 = true → bit w 5 = false → bits w 21 6 < bits w 37 22 →
      (n s = 0 → exec i s = .next (s.ended 4 id)) ∧
      (room < n s → ∃ v, exec i s = .next (s.trapAt 0x14 v s.me.pc) ∧ bits v 63 56 = 2 ∧ bits v 55 52 = h.toNat) ∧
      (0 < n s → n s ≤ room → s.me.rupds = [] → s.me.errOut = [] →
        ∃ t, exec i s = .next t ∧ t.me.pc = s.me.pc + 4 ∧ t.me.wait = none ∧ RegsKept s t none ∧
          bits (handleWord t h) 63 22 = bits w 63 22 ∧ bits (handleWord t h) 21 6 = bits w 21 6 + n s ∧
          bits (handleWord t h) 5 0 = bits w 5 0 ∧ (∀ k, k ≠ h → handleWord t k = handleWord s k) ∧
          SentReel s t (bits w 60 56) (bits w 55 48) (bits w 47 38) 4
            [BitVec.ofNat 64 (bits w 4 0), BitVec.ofNat 64 (n s), 0, 0, 0]))

/-- R419, R421, R422, R423, R424: GBAR, GVOTE and GRED arrive with the handle's room and wait; when the answer has come they write it,
and the handle goes on to the next phase, empty. -/
def ReelCollectives : Prop :=
  ∀ i h kind give ok fin s, Collective i h kind give ok fin → Ready s → ok s →
    let w := handleWord s h
    let room := bits w 37 22 - bits w 21 6
    bit w 63 = true →
    (bit w 5 = false → bits w 21 6 < bits w 37 22 → (isVote kind = true → (give s room).toNat ≤ room) →
      s.me.rupds = [] → s.me.errOut = [] →
      ∃ t, exec i s = .next t ∧ t.me.pc = s.me.pc ∧ t.me.wait.isSome = true ∧ RegsKept s t none ∧
        bits (handleWord t h) 63 22 = bits w 63 22 ∧ bits (handleWord t h) 21 6 = bits w 37 22 ∧
        bit (handleWord t h) 5 = true ∧ bits (handleWord t h) 4 0 = bits w 4 0 ∧
        SentReel s t (bits w 60 56) (bits w 55 48) (bits w 47 38) 4
          [BitVec.ofNat 64 (bits w 4 0), BitVec.ofNat 64 room, BitVec.ofNat 64 kind, give s room, 1]) ∧
    (∀ op ans, bit w 5 = true → s.me.pend = .reelDone op ans →
      ∃ t, exec i s = .next t ∧ t.me.pc = s.me.pc + 4 ∧ t.me.wait = none ∧ t.me.pend = .none ∧
        (∀ r, t.me.getG r = (fin ans s.me).getG r) ∧ (∀ r, t.me.getE r = s.me.getE r) ∧
        bits (handleWord t h) 63 22 = bits w 63 22 ∧ bits (handleWord t h) 21 5 = 0 ∧
        bits (handleWord t h) 4 0 = (bits w 4 0 + 1) % 32 ∧ OnlyMe s t)

/-- R411, R413, R415: GNEW and GJOIN write the station's status to d and, when it is OK, bind the handle; a bound handle gives 6 and
a bad weight 5, asking nothing. GLEAVE unbinds its handle and gives 0, or 7 for an unbound one. -/
def ReelMembership : Prop :=
  ∀ s, Ready s →
    (∀ i h op sc d a, Joins i h op sc d a → let jw := s.g a
      (s.me.pend = .none → bit (handleWord s h) 63 = true → exec i s = .next (s.ended 4 fun x => x.setG d 6)) ∧
      (s.me.pend = .none → bit (handleWord s h) 63 = false → (bits jw 47 32 = 0 ∨ bits jw 63 58 ≠ 0) →
        exec i s = .next (s.ended 4 fun x => x.setG d 5)) ∧
      (s.me.pend = .none → bit (handleWord s h) 63 = false → bits jw 47 32 ≠ 0 → bits jw 63 58 = 0 →
        ∃ t home, exec i s = .next t ∧ t.me.pc = s.me.pc ∧ t.me.wait.isSome = true ∧ RegsKept s t none ∧
          SentReel s t home 0 (bits jw 57 48) op [jw, BitVec.ofNat 64 sc, s.me.pid.setWidth 64,
            BitVec.ofNat 64 s.cur.tile, BitVec.ofNat 64 s.cur.slot.val]) ∧
      ∀ o ans, s.me.pend = .reelDone o ans →
        ∃ t, exec i s = .next t ∧ t.me.pc = s.me.pc + 4 ∧ RegsKept s t (some d) ∧ (d ≠ 0 → t.me.getG d = wordAt ans 0) ∧
          (wordAt ans 0 ≠ 0 → handleWord t h = handleWord s h) ∧
          (wordAt ans 0 = 0 → bit (handleWord t h) 63 = true ∧ bits (handleWord t h) 60 56 = (wordAt ans 5).toNat % 32 ∧
            bits (handleWord t h) 55 48 = (wordAt ans 4).toNat % 256 ∧ bits (handleWord t h) 47 38 = bits jw 57 48 ∧
            bits (handleWord t h) 37 22 = bits jw 47 32 ∧ bits (handleWord t h) 21 5 = 0 ∧
            bits (handleWord t h) 4 0 = (wordAt ans 1).toNat % 32)) ∧
    ∀ h d, (bit (handleWord s h) 63 = false → exec (.gleave h d) s = .next (s.ended 4 fun x => x.setG d 7)) ∧
      (bit (handleWord s h) 63 = true →
        ∃ t, exec (.gleave h d) s = .next t ∧ t.me.pc = s.me.pc + 4 ∧ RegsKept s t (some d) ∧ (d ≠ 0 → t.me.getG d = 0) ∧
          handleWord t h = 0 ∧ SentReel s t (bits (handleWord s h) 60 56) (bits (handleWord s h) 55 48)
            (bits (handleWord s h) 47 38) 3 [s.me.pid.setWidth 64])

/-- R421, R426: GWAIT of a phase that has completed writes the station's phase to d, and a full handle whose phase that completes goes
on, its W bit as it was; GINFO writes the phase, the members and the departed. -/
def ReelQueries : Prop :=
  ∀ (s : State) (h : BitVec 4) (d a : BitVec 5) op ans, Ready s → bit (handleWord s h) 63 = true → s.me.pend = .reelDone op ans →
    (let p : BitVec 32 := (wordAt ans 0).setWidth 32
     let w := handleWord s h
     (p - (s.g a).setWidth 32 - 1).toNat < 2 ^ 31 →
       ∃ t, exec (.gwait h d a) s = .next t ∧ t.me.pc = s.me.pc + 4 ∧ t.me.pend = .none ∧ RegsKept s t (some d) ∧
         (d ≠ 0 → t.me.getG d = p.setWidth 64) ∧
         (if bits w 21 6 = bits w 37 22 ∧ p.toNat % 32 = (bits w 4 0 + 1) % 32 then
            bits (handleWord t h) 21 6 = 0 ∧ bit (handleWord t h) 5 = bit w 5 ∧ bits (handleWord t h) 4 0 = (bits w 4 0 + 1) % 32
          else handleWord t h = w)) ∧
    ∃ t, exec (.ginfo h d) s = .next t ∧ t.me.pc = s.me.pc + 4 ∧ t.me.pend = .none ∧ RegsKept s t (some d) ∧
      (d ≠ 0 → t.me.getG d = BitVec.ofNat 64 ((wordAt ans 0).toNat % 2 ^ 32 + (wordAt ans 1).toNat % 2 ^ 11 * 2 ^ 32 +
        (wordAt ans 2).toNat % 2 ^ 16 * 2 ^ 48))

/-- R411, R413, R414, R429, R433: at a station, CREATE of a new name that finds space makes an entry of one member counted in phase 0;
JOIN of a name whose phase has no arrival adds a member counted at once; both answer OK. LEAVE and DEPART of a member
without arrivals remove it, DEPART counting it; MOVED writes a member's new place. -/
def ReelMembers : Prop :=
  ∀ (s : State) n j (m : Msg),
    let name := msgWord m 0 % 2 ^ 32
    let weight := msgWord m 0 / 2 ^ 32 % 2 ^ 16
    let rank := msgWord m 0 / 2 ^ 48 % 2 ^ 10
    let ok := fun (t : State) first sc => StationSent s t n (msgWord m 3 % 8192) (msgWord m 4 % 8) 7
      [0, BitVec.ofNat 64 first, BitVec.ofNat 64 sc, BitVec.ofNat 64 name]
    (∀ k i, AtStation s n j 1 m → (s.reelSt n).named m.hdr.netid name = none → s.reelWant n m.hdr.netid true = none →
      freeKey (s.reelSt n).entries 0 256 = some k → freeKey (s.reelSt n).members 0 4096 = some i →
      ∃ t e o, Happens (.reelCreate ⟨.reel, n⟩ j) s t ∧ mapFind (t.reelSt n).entries k = some e ∧ e.name.toNat = name ∧
        e.phase = 0 ∧ e.counted = weight ∧ e.arrived = 0 ∧ mapFind (t.reelSt n).members i = some o ∧ o.entry = k ∧
        o.rank = rank ∧ o.weight = weight ∧ o.state = .counted ∧ ok t 0 (msgWord m 1 % 4) ∧ RegsAll s t ∧ MemAll s t) ∧
    (∀ k e i, AtStation s n j 2 m → (s.reelSt n).named m.hdr.netid name = some (k, e) → mapFind (s.reelSt n).entries k = some e →
      (∀ x ∈ (s.reelSt n).of k, x.2.rank ≠ rank) → ((s.reelSt n).of k).length < 1024 → s.reelWant n m.hdr.netid false = none →
      freeKey (s.reelSt n).members 0 4096 = some i → e.arrived = 0 →
      ∃ t o, Happens (.reelJoin ⟨.reel, n⟩ j) s t ∧
        mapFind (t.reelSt n).entries k = some { e with counted := e.counted + weight } ∧
        mapFind (t.reelSt n).members i = some o ∧ o.entry = k ∧ o.rank = rank ∧ o.weight = weight ∧ o.state = .counted ∧
        ok t e.phase.toNat e.scope.toNat ∧ RegsAll s t ∧ MemAll s t) ∧
    (∀ op e i o, AtStation s n j op m → Names s n m (msgWord m 0 % 65536) e i o → o.state = .counted → o.arr = 0 →
      o.early = 0 → e.arrived = 0 →
      (op = 3 → ∃ t, Happens (.reelLeave ⟨.reel, n⟩ j) s t ∧ mapFind (t.reelSt n).members i = none ∧
        (∀ f, mapFind (t.reelSt n).entries o.entry = some f → f = { e with counted := e.counted - o.weight }) ∧
        RegsAll s t ∧ MemAll s t) ∧
      (op = 9 → ∃ t, Happens (.reelDepart ⟨.reel, n⟩ j) s t ∧ mapFind (t.reelSt n).members i = none ∧
        (∀ f, mapFind (t.reelSt n).entries o.entry = some f →
          f = { e with counted := e.counted - o.weight, departed := e.departed + 1 }) ∧ RegsAll s t ∧ MemAll s t)) ∧
    (∀ i o, AtStation s n j 10 m → (s.reelSt n).member (bits m.hdr.arg 15 8) (bits m.hdr.arg 25 16) (msgWord m 0 % 65536) m.hdr.netid = some (i, o) →
      ∃ t, Happens (.reelMoved ⟨.reel, n⟩ j) s t ∧
        mapFind (t.reelSt n).members i = some { o with tile := msgWord m 1 % 8192, slot := msgWord m 2 % 8 } ∧
        (t.reelSt n).entries = (s.reelSt n).entries ∧ RegsAll s t ∧ MemAll s t)

/-- R418, R419, R421, R426, R432: an arrival for the open phase adds its weight to the entry and the member; the one that makes the
arrived weight the counted weight completes the phase: PHASE goes on by one, LASTDEP is DEPARTED, and the next phase has
no arrival. A wait for the open phase is kept; INFO is answered at once; a gang notice marks the entry. -/
def ReelPhases : Prop :=
  ∀ (s : State) n j (m : Msg) e i o, Names s n m m.hdr.pid e i o → o.entry = bits m.hdr.arg 15 8 →
    let k := bits m.hdr.arg 15 8
    (AtStation s n j 4 m → msgWord m 0 % 32 = e.phase.toNat % 32 → msgWord m 2 = 0 →
      (e.arrived + msgWord m 1 ≠ e.counted → ∃ t, Happens (.reelArrive ⟨.reel, n⟩ j) s t ∧
        mapFind (t.reelSt n).entries k = some { e with arrived := e.arrived + msgWord m 1 } ∧
        mapFind (t.reelSt n).members i = some { o with arr := o.arr + msgWord m 1 } ∧ RegsAll s t ∧ MemAll s t) ∧
      (e.arrived + msgWord m 1 = e.counted → 0 < e.counted → e.early = 0 → o.state = .counted →
        (s.reelSt n).waiters = [] → msgWord m 4 = 0 → ∃ t f, Happens (.reelArrive ⟨.reel, n⟩ j) s t ∧
        mapFind (t.reelSt n).entries k = some f ∧ f.phase = e.phase + 1 ∧ f.lastDep = e.departed ∧ f.arrived = 0 ∧
        RegsAll s t ∧ MemAll s t)) ∧
    (AtStation s n j 5 m → msgWord m 1 = 0 → msgWord m 0 % 32 = e.phase.toNat % 32 →
      ∃ t w, Happens (.reelWait ⟨.reel, n⟩ j) s t ∧ w ∈ (t.reelSt n).waiters ∧ w.entry = k ∧ w.pid = m.hdr.pid ∧
        w.tile = o.tile ∧ w.slot = o.slot ∧ w.phase = e.phase ∧ (t.reelSt n).entries = (s.reelSt n).entries ∧
        RegsAll s t ∧ MemAll s t) ∧
    (AtStation s n j 6 m → ∃ t, Happens (.reelInfo ⟨.reel, n⟩ j) s t ∧ (t.reelSt n).entries = (s.reelSt n).entries ∧
      StationSent s t n o.tile o.slot 8 [e.phase.setWidth 64,
        BitVec.ofNat 64 (((s.reelSt n).of k).countP fun x => decide (x.2.state ≠ .pending)), e.departed.setWidth 64,
        BitVec.ofNat 64 (2 * 2 ^ 56)] ∧ RegsAll s t ∧ MemAll s t) ∧
    (AtStation s n j 11 m → ∃ t, Happens (.reelGang ⟨.reel, n⟩ j) s t ∧
      mapFind (t.reelSt n).entries k = some { e with gang := true } ∧ RegsAll s t ∧ MemAll s t)

/-- R297, R411, R422, R432: an answer that its slot awaits is handed to it and the slot wakes: STATUS to a GNEW or GJOIN, RESULT to a
wait; EXPAND gives the tiles of the members counted to the copy that asked; a gang notice makes TMP pending for its slot. -/
def ReelAnswers : Prop :=
  ∀ (s : State) u j (m : Msg), s.dev.railUp = true → m.hdr.cls = clsREEL →
    let k : Fin 8 := Fin.ofNat 8 m.hdr.aslot
    (u < 8192 → Inbox s ⟨.tile, u⟩ j m →
      (bits m.hdr.arg 7 0 = 7 → (s.slot u k).pend = .reel 7 (msgWord m 3) → ∃ t ans, Happens (.reelStatus ⟨.tile, u⟩ j) s t ∧
        (t.slot u k).pend = .reelDone 7 ans ∧ (∀ z, z < 4 → (toWords m.payload).length = 4 → wordAt ans z = wordAt (toWords m.payload) z) ∧
        (t.slot u k).wait = none ∧ RegsAll s t ∧ MemAll s t) ∧
      (bits m.hdr.arg 7 0 = 8 → (s.slot u k).pend = .reel 8 (reelKey (msgWord m 3 / 2 ^ 56) m.hdr.src.num (bits m.hdr.arg 15 8) (msgWord m 0)) →
        ∃ t ans, Happens (.reelResult ⟨.tile, u⟩ j) s t ∧ (t.slot u k).pend = .reelDone 8 ans ∧
          (∀ z, z < 3 → (toWords m.payload).length = 4 → wordAt ans z = wordAt (toWords m.payload) z) ∧
          (t.slot u k).wait = none ∧ RegsAll s t ∧ MemAll s t) ∧
      (bits m.hdr.arg 7 0 = 11 → (s.slot u k).run ≠ .empty → (s.slot u k).pid.toNat = m.hdr.pid →
        ∃ t, Happens (.reelGang ⟨.tile, u⟩ j) s t ∧ bit (t.slot u (s.tile u).supSlot).status (32 + k.val) = true ∧ MemAll s t)) ∧
    (∀ n e i o c, AtStation s n j 12 m → Names s n m m.hdr.pid e i o → o.tile < 8192 →
      (s.slot o.tile (Fin.ofNat 8 o.slot)).pend = .copy c →
      ∃ t ts, Happens (.reelExpand ⟨.reel, n⟩ j) s t ∧
        (t.slot o.tile (Fin.ofNat 8 o.slot)).pend = .copy { c with members := some ts } ∧
        (t.slot o.tile (Fin.ofNat 8 o.slot)).wait = none ∧
        (∀ x, x ∈ ts ↔ ∃ p ∈ (s.reelSt n).of (bits m.hdr.arg 15 8), p.2.state ≠ .pending ∧ p.2.tile = x) ∧
        RegsAll s t ∧ MemAll s t)

/-! ### Sync words, trace records, and scheduling -/

/-- The four words of a sync word (14_counters_and_records.md R455): TARGET, COUNT, GEN. -/
def swTarget (s : State) (u off : Nat) : Nat := Mem.load (s.tile u).mem off 4
def swCount (s : State) (u off : Nat) : Nat := Mem.load (s.tile u).mem (off + 4) 4
def swGen (s : State) (u off : Nat) : Nat := Mem.load (s.tile u).mem (off + 8) 4

/-- An update that added `n` to a word of target `g`, count `c`, generation `n0` (R456). -/
def Advanced (t : State) (u off g c n0 n : Nat) : Prop :=
  swTarget t u off = g ∧
  (g = 0 → swCount t u off = (c + n) % 2 ^ 32 ∧ swGen t u off = n0) ∧
  (0 < g → swCount t u off = (c + n) % g ∧ swGen t u off = (n0 + (c + n) / g) % 2 ^ 32)

/-- Every byte outside [off, off + n) of tile `u` kept. -/
def OutsideKept (s t : State) (u off n : Nat) : Prop :=
  (∀ w x, ¬(w = u ∧ off ≤ x ∧ x < off + n) → Mem.read (t.tile w).mem x = Mem.read (s.tile w).mem x) ∧
  (∀ x, Mem.read t.dram x = Mem.read s.dram x) ∧ ∀ x, Mem.read t.host x = Mem.read s.host x

/-- The scalar registers of the current slot, but for `d`. -/
def GKept (s t : State) (d : Option (BitVec 5)) : Prop :=
  (∀ n, some n ≠ d → t.me.getG n = s.me.getG n) ∧ (∀ n, t.me.getE n = s.me.getE n) ∧ t.me.status = s.me.status ∧
  t.me.cause = s.me.cause ∧ t.me.epc = s.me.epc ∧ t.me.eval = s.me.eval ∧ t.vec = s.vec

/-- The record address of a SCHED instruction: an aligned park record in the range of 07_control_registers.md R251. -/
def RecAddr (s : State) (a : BitVec 5) (x : Nat) : Prop :=
  (s.g a).toNat = x ∧ 0xC0000 ≤ x ∧ x ≤ 0xCFFC0 ∧ x % 64 = 0

/-- A slot other than the issuer's, named by a register. -/
def OtherSlot (s : State) (a : BitVec 5) (k : Fin 8) : Prop := (s.g a).toNat = k.val ∧ k ≠ s.cur.slot

/-- R252, R33, R36: RQPUSH appends a record to the FIFO of its priority and marks it READY, or gives 1 when the FIFO is full; RQPOP takes
the head of the highest non-empty FIFO, or gives 0; PARKWAIT watches a record whose condition does not hold, and wakes
one whose deadline has passed. -/
def ReadyQueue : Prop :=
  ∀ (s : State) (r d a : BitVec 5) x, Ready s → 1 ≤ s.me.prv →
    (RecAddr s a x → let p : Fin 4 := Fin.ofNat 4 (s.g r).toNat
      (32 ≤ (s.myTile.ready[p]).length → exec (.rqpush r d a) s = .next (s.ended 4 fun y => y.setG d 1)) ∧
      ((s.myTile.ready[p]).length < 32 → ∃ t, exec (.rqpush r d a) s = .next t ∧ t.me.pc = s.me.pc + 4 ∧ GKept s t (some d) ∧
        (d ≠ 0 → t.me.getG d = 0) ∧ t.myTile.ready[p] = s.myTile.ready[p] ++ [s.g a] ∧
        (∀ q : Fin 4, q ≠ p → t.myTile.ready[q] = s.myTile.ready[q]) ∧ OutsideKept s t s.cur.tile (x + 2) 3 ∧
        Mem.load t.myTile.mem (x + 2) 2 = Mem.load s.myTile.mem (x + 2) 2 / 2 * 2 + 1 ∧
        Mem.load t.myTile.mem (x + 4) 1 = Mem.load s.myTile.mem (x + 4) 1 / 4 * 4 + p.val)) ∧
    ((∀ p : Fin 4, s.myTile.ready[p] = []) → exec (.rqpop d) s = .next (s.ended 4 fun y => y.setG d 0)) ∧
    (∀ (p : Fin 4) h l, s.myTile.ready[p] = h :: l → (∀ q : Fin 4, q < p → s.myTile.ready[q] = []) →
      ∃ t, exec (.rqpop d) s = .next t ∧ t.me.pc = s.me.pc + 4 ∧ RegsKept s t (some d) ∧ (d ≠ 0 → t.me.getG d = h) ∧
        t.myTile.ready[p] = l ∧ ∀ q : Fin 4, q ≠ p → t.myTile.ready[q] = s.myTile.ready[q]) ∧
    (RecAddr s a x → let w := Mem.load s.myTile.mem (x + 5) 1
      ((w = 2 ∨ w = 3) → Mem.load s.myTile.mem (x + 16) 8 ≤ s.time → Mem.load s.myTile.mem (x + 2) 2 % 2 = 0 →
        (s.myTile.ready[Fin.ofNat 4 (Mem.load s.myTile.mem (x + 4) 1)]).length < 32 → s.cur.slot ≠ s.myTile.supSlot →
        ∃ t, exec (.parkwait d a) s = .next t ∧ t.me.pc = s.me.pc + 4 ∧ GKept s t (some d) ∧ (d ≠ 0 → t.me.getG d = 1) ∧
          t.myTile.ready[Fin.ofNat 4 (Mem.load s.myTile.mem (x + 4) 1)] =
            s.myTile.ready[Fin.ofNat 4 (Mem.load s.myTile.mem (x + 4) 1)] ++ [s.g a] ∧
          bit (t.slot s.cur.tile s.myTile.supSlot).status 48 = true ∧ OutsideKept s t s.cur.tile (x + 2) 2) ∧
      (w = 2 → s.time < Mem.load s.myTile.mem (x + 16) 8 → s.myTile.watch.length < 32 →
        ∃ t v, exec (.parkwait d a) s = .next t ∧ t.me.pc = s.me.pc + 4 ∧ GKept s t (some d) ∧ (d ≠ 0 → t.me.getG d = 0) ∧
          v ∈ t.myTile.watch ∧ v.addr = x ∧ v.wait = w ∧ v.deadline = Mem.load s.myTile.mem (x + 16) 8 ∧
          v.pid = Mem.load s.myTile.mem x 2 ∧ OutsideKept s t s.cur.tile (x + 2) 2 ∧
          Mem.load t.myTile.mem (x + 2) 2 / 2 % 2 = 1))

/-- R252, R248, R250: SLOTGO starts a stopped slot at its image, and changes nothing of one that is not stopped; SLOTSTOP of a slot that has
nothing outstanding, or that DEBUG_HALT holds with nothing outstanding, stops it, and waits for one that has; TIMERSET arms or clears the timer of a slot. -/
def SlotControl : Prop :=
  ∀ (s : State) (r a : BitVec 5) (k : Fin 8), Ready s → 1 ≤ s.me.prv →
    (OtherSlot s a k → (2 ≤ k.val ∨ s.g r = 0) →
      ((s.slot s.cur.tile k).run = .stopped → ∃ t, exec (.slotgo r a) s = .next t ∧ t.me.pc = s.me.pc + 4 ∧ RegsKept s t none ∧
        t.slot s.cur.tile k = { s.slot s.cur.tile k with run := .running, wait := none, pend := .none }) ∧
      ((s.slot s.cur.tile k).run ≠ .stopped → exec (.slotgo r a) s = .next (s.ended 4 id)) ∧
      ((s.slot s.cur.tile k).run = .running → (s.slot s.cur.tile k).quiet = true →
        ∃ t, exec (.slotstop r a) s = .next t ∧ t.me.pc = s.me.pc + 4 ∧ RegsKept s t none ∧
          (t.slot s.cur.tile k).run = .stopped ∧ (t.slot s.cur.tile k).pc = (s.slot s.cur.tile k).pc ∧
          ∀ n, (t.slot s.cur.tile k).getG n = (s.slot s.cur.tile k).getG n) ∧
      ((s.slot s.cur.tile k).run = .halted → (s.slot s.cur.tile k).quiet = true →
        exec (.slotstop r a) s = .next ((s.modSlot s.cur.tile k fun x => { x with run := .stopped, wait := none, pend := .none }).ended
          4 fun x => { x with pend := .none })) ∧
      ((s.slot s.cur.tile k).run = .halted ∨ (s.slot s.cur.tile k).run = .running → (s.slot s.cur.tile k).quiet = false →
        ∃ t, exec (.slotstop r a) s = .next t ∧ t.me.pc = s.me.pc ∧ t.me.wait.isSome = true ∧ RegsKept s t none ∧
          (t.slot s.cur.tile k).run = .stopping) ∧
      ((s.slot s.cur.tile k).run = .stopped ∨ (s.slot s.cur.tile k).run = .empty →
        exec (.slotstop r a) s = .next (s.ended 4 fun x => { x with pend := .none }))) ∧
    (OtherSlot s a k → k.val < 2 → (s.slot s.cur.tile k).run = .stopped → s.g r ≠ 0 → (s.g r).toNat % 64 = 0 →
      (s.g r).toNat + 0xF540 ≤ 0xC0000 → s.myTile.errs = 0 → bits s.myTile.inject 3 0 ≠ 5 →
      (∃ t, exec (.slotgo r a) s = .next t ∧ (t.slot s.cur.tile k).run = .running ∧
        ∀ z : Fin 32, (t.myTile.vecs[(⟨k.val % 2, by omega⟩ : Fin 2)]).v[z] =
          BitVec.ofNat 8192 (Mem.load s.myTile.mem ((s.g r).toNat + 1024 * z.val) 1024)) ∧
      ∃ t, exec (.slotstop r a) s = .next t ∧ OutsideKept s t s.cur.tile (s.g r).toNat 0xF540 ∧
        ∀ z : Fin 32, Mem.load t.myTile.mem ((s.g r).toNat + 1024 * z.val) 1024 =
          ((s.myTile.vecs[(⟨k.val % 2, by omega⟩ : Fin 2)]).v[z]).toNat) ∧
    ((s.g a).toNat = k.val → ∃ t, exec (.timerset r a) s = .next t ∧ t.me.pc = s.me.pc + 4 ∧ RegsKept s t none ∧
      t.myTile.timers[k] = (if s.g r = 0 then none else some (s.time + (s.g r).toNat)) ∧
      ∀ j : Fin 8, j ≠ k → t.myTile.timers[j] = s.myTile.timers[j])

/-! ### Events at a tile -/

/-- Nothing of another tile, of a station, of the manager or of a memory outside tile `n` changes. -/
def OnlyTile (s t : State) (n : Nat) : Prop :=
  (∀ u, u ≠ n → t.tile u = s.tile u) ∧ t.edges = s.edges ∧ t.reels = s.reels ∧ t.mgr = s.mgr ∧ t.dram = s.dram ∧ t.host = s.host

/-- The events a supervisor takes: the pending bit, cause and EVAL, and the fields of STATUS that stand before it (R241). -/
inductive SupEvent : Instr → Nat → (State → Nat → Nat → BitVec 8 × Word × Prop) → Prop
  | watchdog n : SupEvent (.watchdogEvent n) n fun s k i => (0x0C, BitVec.ofNat 64 (i - 40),
      40 ≤ i ∧ i < 48 ∧ ∀ j, 40 ≤ j → j < i → bit (s.slot n (Fin.ofNat 8 k)).status j = false)
  | migrate n : SupEvent (.migrateEvent n) n fun s k i => (0x17, BitVec.ofNat 64 ((s.tile n).voltaTarget % 65536),
      i = 49 ∧ bits (s.slot n (Fin.ofNat 8 k)).status 47 40 = 0)
  | timer n : SupEvent (.timerEvent n) n fun s k i => (0x0D, BitVec.ofNat 64 (i - 32),
      32 ≤ i ∧ i < 40 ∧ bits (s.slot n (Fin.ofNat 8 k)).status 47 40 = 0 ∧ bit (s.slot n (Fin.ofNat 8 k)).status 49 = false ∧
      ∀ j, 32 ≤ j → j < i → bit (s.slot n (Fin.ofNat 8 k)).status j = false)
  | wake n : SupEvent (.wakeEvent n) n fun s k i => (0x16, (s.tile n).wakeEval,
      i = 48 ∧ bits (s.slot n (Fin.ofNat 8 k)).status 47 32 = 0 ∧ bit (s.slot n (Fin.ofNat 8 k)).status 49 = false)

/-- A write row of one register of the tile: the tile after it (R208, R262, R344, R368, R462). -/
inductive TileWrite : Instr → Nat → (Tile → Tile) → Prop
  | mslot n i q : TileWrite (.mslotWrite n i q) n fun x =>
      if q.toNat % 4 = 3 then x else { x with mslot := x.mslot.set i (BitVec.ofNat 2 q.toNat) }
  | bfmt n i q : TileWrite (.bfmtWrite n i q) n fun x =>
      if bit q 7 = true ∧ fmtKnown (q.toNat % 32) = false then x else { x with bfmt := x.bfmt.set i (q &&& 0xF9F) }
  | perfsel n i q : TileWrite (.perfselWrite n i q) n fun x =>
      if 1 ≤ q.toNat % 2 ^ 16 ∧ q.toNat % 2 ^ 16 ≤ 0x16 then { x with perfNew := x.perfNew ++ [(i.val, q &&& 0x1FFFFFF)] } else x
  | probeDelay n q : TileWrite (.probeDelayWrite n q) n fun x => { x with probeDelay := BitVec.ofNat 32 (max 256 (q.toNat % 2 ^ 32)) }
  | decDeadline n q : TileWrite (.decodeDeadlineWrite n q) n fun x =>
      { x with decDeadline := BitVec.ofNat 16 (max 256 (q.toNat % 2 ^ 16)) }
  | crate n i q : TileWrite (.crateWrite n i q) n fun x =>
      if 1 ≤ q.toNat % 8 ∧ q.toNat % 8 ≤ 4 then { x with crate := x.crate.set i (BitVec.ofNat 3 q.toNat) } else x
  | drop n f : TileWrite (.injectDropFragment n f) n fun x => { x with inject := BitVec.ofNat 64 (1 + f.toNat * 2 ^ 8) }
  | hold n f d : TileWrite (.injectHoldFragment n f d) n fun x =>
      { x with inject := BitVec.ofNat 64 (2 + f.toNat * 2 ^ 8 + d.toNat * 2 ^ 16) }
  | mismatch n : TileWrite (.injectCheckerMismatch n) n fun x => { x with inject := 3 }
  | double n : TileWrite (.injectDoubleMismatch n) n fun x => { x with inject := 4 }
  | poison n : TileWrite (.injectPoisonGranule n) n fun x => { x with inject := 5 }

/-- The registers of a slot's context that a CONTROL_REGISTER_WRITE or an image write replaces (R233, R249): number, image
offset, and the context with the value. -/
inductive SlotReg : Nat → Nat → (Word → Slot → Slot) → Prop
  | epc : SlotReg 0x002 344 fun q x => { x with epc := q }
  | eval : SlotReg 0x003 352 fun q x => { x with eval := q }
  | tvec : SlotReg 0x004 360 fun q x => { x with tvec := q }
  | scratch : SlotReg 0x005 368 fun q x => { x with scratch := q }
  | cause : SlotReg 0x001 336 fun q x => { x with cause := q &&& 0xFF }
  | prio : SlotReg 0x035 400 fun q x => { x with prio := BitVec.ofNat 2 q.toNat }

/-- R241: with IE set, TD clear and no earlier event pending, the supervisor takes its event: the pending bit is cleared, CAUSE and
EVAL are the event's, EPC the next instruction, and the handler runs. -/
def SupervisorEvents : Prop :=
  ∀ i n c s j, SupEvent i n c → s.dev.railUp = true →
    let k := (s.tile n).supSlot
    let e := c s k.val j
    let x := s.slot n k
    e.2.2 → x.run = .running → x.pend = .none → x.ie = true → x.td = false → bit x.status j = true →
    (s.tile n).checkTarget x.tvec = none →
    ∃ t, Happens i s t ∧ bit (t.slot n k).status j = false ∧ (t.slot n k).cause = e.1.setWidth 64 ∧ (t.slot n k).eval = e.2.1 ∧
      (t.slot n k).epc = x.pc ∧ (t.slot n k).pc = x.tvec ∧ (t.slot n k).td = true ∧ (t.slot n k).ie = false ∧
      (t.slot n k).prv = max x.prv 1 ∧ (∀ r, (t.slot n k).getG r = x.getG r) ∧ ∀ q : Fin 8, q ≠ k → t.slot n q = s.slot n q

/-- R247, R248, R251: a watchdog above its limit stops its slot and makes WDP pending, once; a timer whose time has come disarms
itself and makes TMP pending; a watched record whose deadline has come becomes READY in the FIFO of its priority. -/
def TimersExpire : Prop :=
  ∀ (s : State) n (k : Fin 8), s.dev.railUp = true →
    let sup := (s.tile n).supSlot
    ((s.slot n k).wdlim.toNat < (s.slot n k).wdog.toNat → (s.slot n k).wdFired = false → (s.slot n k).run = .running →
      (s.slot n k).quiet = true → k ≠ sup →
      ∃ t, Happens (.watchdogPass n k) s t ∧ (t.slot n k).run = .stopped ∧ (t.slot n k).wdFired = true ∧
        (t.slot n k).pc = (s.slot n k).pc ∧ bit (t.slot n sup).status (40 + k.val) = true ∧ OnlyTile s t n) ∧
    (∀ d, (s.tile n).timers[k] = some d → d ≤ s.time →
      ∃ t, Happens (.timerExpiry n k) s t ∧ (t.tile n).timers[k] = none ∧ bit (t.slot n sup).status (32 + k.val) = true ∧
        OnlyTile s t n) ∧
    (∀ i w, (s.tile n).watch[i]? = some w → (w.wait = 2 ∨ w.wait = 3) → w.deadline ≤ s.time →
      Mem.load (s.tile n).mem (w.addr + 2) 2 % 4 = 2 →
      let p : Fin 4 := Fin.ofNat 4 (Mem.load (s.tile n).mem (w.addr + 4) 1)
      ((s.tile n).ready[p]).length < 32 →
      ∃ t, Happens (.parkDeadlineExpiry n i) s t ∧ (t.tile n).ready[p] = (s.tile n).ready[p] ++ [BitVec.ofNat 64 w.addr] ∧
        Mem.load (t.tile n).mem (w.addr + 2) 2 % 4 = 1 ∧ bit (t.slot n sup).status 48 = true ∧ OnlyTile s t n)

/-- R175, R176, R186: a write of VT, VL, XCLASS, XM or FMASK of a vector slot follows the register's rule; for a slot without a
long-vector context it writes nothing. -/
def VectorRegisterWrites : Prop :=
  ∀ (s : State) n (k : Fin 8) (q : Word), s.dev.railUp = true →
    (2 ≤ k.val → ∀ i ∈ [Instr.vtWrite n k q, .vlWrite n k q, .xclassWrite n k q, .xmWrite n k q, .fmaskWrite n k q],
      Happens i s s) ∧
    (k.val < 2 →
      let j := vecIdx k
      let c := (s.tile n).vecs[j]
      let one := fun (t : State) (f : VecCtx) => t = s.modTile n fun x => { x with vecs := x.vecs.set j f }
      let grant := fun (c : VecCtx) (q : Nat) => Min.min q c.vlMax - (if isBfp c.fmt then Min.min q c.vlMax % c.blk else 0)
      (∃ t, Happens (.xmWrite n k q) s t ∧ one t { c with xm := setBits c.xm 63 0 q.toNat }) ∧
      (∃ t, Happens (.fmaskWrite n k q) s t ∧ one t { c with fmask := setBits c.fmask 63 0 q.toNat }) ∧
      (∃ t, Happens (.xclassWrite n k q) s t ∧ one t { c with xclass := BitVec.ofNat 3 q.toNat, xm := 0 }) ∧
      (c.bad = true → ∃ t, Happens (.vlWrite n k q) s t ∧ one t c) ∧
      (c.bad = false → ∃ t, Happens (.vlWrite n k q) s t ∧ one t { c with vl := BitVec.ofNat 13 (grant c q.toNat) }) ∧
      (q.toNat < 2 ^ 11 → fmtKnown (bits q 4 0) = true → ∃ t d, Happens (.vtWrite n k q) s t ∧ one t d ∧
        d.vt = q.setWidth 32 ∧ d.vl = BitVec.ofNat 13 (grant d c.vl.toNat) ∧ d.v = c.v ∧ d.m = c.m))

/-- R208, R234, R262, R344, R368, R462: a write of one of the tile's registers follows its rule, and a value the rule refuses leaves it
unchanged; arming INJECT holds the kind and the fragment until it acts. -/
def TileRegisterWrites : Prop :=
  ∀ i n f s, TileWrite i n f → s.dev.railUp = true → Happens i s (s.modTile n f)

/-- R233, R236, R249: a write of a slot's own register by its level, of STATUS by its rule, and of a doubleword of a stopped slot's
image. A register that its level may not write keeps its value, and the image of a slot that is not stopped too. -/
def SlotRegisterWrites : Prop :=
  ∀ (s : State) n (k : Fin 8) (q : Word), s.dev.railUp = true →
    let put := fun (f : Slot → Slot) => s.modSlot n k f
    (∀ c o f, SlotReg c o f → (1 ≤ (s.slot n k).prv → Happens (.controlRegisterWrite n k (BitVec.ofNat 12 c) q) s (put (f q))) ∧
      ((s.slot n k).prv = 0 → Happens (.controlRegisterWrite n k (BitVec.ofNat 12 c) q) s s) ∧
      ((s.slot n k).run = .stopped → Happens (.slotImageWrite n k (BitVec.ofNat 10 o) q) s (put (f q)))) ∧
    (∀ r : BitVec 5, (s.slot n k).run = .stopped →
      Happens (.slotImageWrite n k (BitVec.ofNat 10 (8 * r.toNat)) q) s (put fun x => x.setG r q)) ∧
    ((s.slot n k).run = .stopped → Happens (.slotImageWrite n k 320 q) s
      (put fun x => { x with pc := if q = 0xE0000 then q else 0xD0000 + (q &&& 0xFFFE) })) ∧
    (∀ o, (s.slot n k).run ≠ .stopped → Happens (.slotImageWrite n k o q) s s) ∧
    ∃ t, Happens (.statusWrite n k q) s t ∧ bit (t.slot n k).status 0 = bit q 0 ∧ bit (t.slot n k).status 8 = bit q 8 ∧
      (t.slot n k).prv = (s.slot n k).prv ∧ bits (t.slot n k).status 63 25 = bits (s.slot n k).status 63 25 ∧
      ((s.slot n k).prv = 0 → bits (t.slot n k).status 2 1 = bits (s.slot n k).status 2 1) ∧
      (1 ≤ (s.slot n k).prv → bits (t.slot n k).status 2 1 = bits q 2 1) ∧ OnlyTile s t n

/-! ### The supervisor channel (01_machine.md R59-R73; 10_channels.md R360, R361) -/

/-- The message at the head of the supervisor channel: kind, LEN, tenant rule passed, no reserved byte set; the return
channel has room and holds nothing back, and no message is in hand; the two channels' host ends do not overlap. -/
structure Head (s : State) (m : HMsg) (kind len : Nat) (res : List Nat) : Prop where
  rail : s.dev.railUp = true
  head : s.headMsg = some m
  kind : m.kind = kind
  len : m.len = len
  clean : m.res = false ∧ m.resUsed res = false
  out : s.mgr.out = [] ∧ s.hostRoom = true ∧ s.mgr.ahead = [] ∧ s.mgr.acking = 0
  apart : s.mgr.scAt.toNat + 16 ≤ s.mgr.rcAt.toNat + 0x40 ∨ s.mgr.rcAt.toNat + 0x40 + 32768 ≤ s.mgr.scAt.toNat + 8

/-- The message was taken and answered by one ACK with this status, NETID and VALUE, `n` messages having been sent in all. -/
def Acked (s t : State) (m : HMsg) (status netid value n : Nat) : Prop :=
  t.mgr.taken = s.mgr.taken + 1 ∧ t.mgr.sent = s.mgr.sent + n ∧
  (n = 1 → Mem.readBytes t.host (s.mgr.rcAt.toNat + 0x40 + 512 * (s.mgr.sent % 64)) 32 =
    toBytes 2 0x8001 ++ toBytes 2 16 ++ toBytes 4 m.tag ++ toBytes 2 m.tnt ++ List.replicate 6 0 ++
      (toBytes 2 status ++ toBytes 2 0 ++ toBytes 4 netid ++ toBytes 8 value))

/-- The message was handled: it is taken if its answers are all written, and is in hand until they are (R60). -/
def Finished (s t : State) : Prop :=
  if t.mgr.out = [] then t.mgr.taken = s.mgr.taken + 1 else t.mgr.taken = s.mgr.taken ∧ t.mgr.acking = t.mgr.out.length

/-- A MANAGE message at the head: its operation and LEN, sent by a tenant whose partition is current, or for the package. -/
def ManageHead (s : State) (m : HMsg) (op len : Nat) (res : List Nat) (pkg : Bool) : Prop :=
  Head s m 5 len ([2, 3, 4, 5, 6, 7] ++ res) ∧ m.u 0 2 = op ∧ if pkg then m.tnt = 0 else needPart s m = true

/-- Every tile, station and memory but the host's as it was. -/
def DeviceKept (s t : State) : Prop :=
  t.tiles = s.tiles ∧ t.edges = s.edges ∧ t.reels = s.reels ∧ t.dram = s.dram ∧ t.wire = s.wire ∧ t.links = s.links

/-- The rows of host messages that must name a current partition: row, kind, MANAGE operation. -/
inductive TenantRow : Instr → Nat → Nat → Prop
  | launch : TenantRow .launch 1 0
  | abort : TenantRow .abort 2 0
  | captureStart : TenantRow .captureStart 3 0
  | captureStop : TenantRow .captureStop 4 0
  | setfield : TenantRow .manageSetfield 5 3
  | map : TenantRow .manageMap 5 4
  | unmap : TenantRow .manageUnmap 5 5
  | rebind : TenantRow .manageRebind 5 6
  | halt : TenantRow .manageHalt 5 9
  | resume : TenantRow .manageResume 5 10

/-- An ASSIST_ANSWER at the head for an outstanding request `a`, of its function, of good form. -/
def Answer (s : State) (m : HMsg) (a : Assist) (func verdict : Nat) : Prop :=
  s.dev.railUp = true ∧ s.headMsg = some m ∧ m.kind = 6 ∧ m.u 0 1 = func ∧ m.u 1 1 = verdict ∧ s.answerBad m = false ∧
  s.mgr.ahead = [] ∧ s.mgr.acking = 0 ∧ s.mgr.assists.find? (fun x => x.tag.toNat == m.tag && x.func == func) = some a

/-- The answer was taken and its request is no longer outstanding. -/
def Answered (s t : State) (a : Assist) : Prop :=
  t.mgr.taken = s.mgr.taken + 1 ∧ ∀ x ∈ t.mgr.assists, x.tag ≠ a.tag

/-- R63, R66: a message that names no current partition is taken and answered BAD_TENANT, and changes nothing else. -/
def TenantChecked : Prop :=
  ∀ i kind op s m len res, TenantRow i kind op → Head s m kind len res → (kind = 5 → m.u 0 2 = op) →
    (m.tnt = 0 ∨ s.part m.tnt = none) →
    ∃ t, Happens i s t ∧ Acked s t m 2 0 0 1 ∧ DeviceKept s t ∧ t.mgr.parts = s.mgr.parts ∧ t.mgr.nets = s.mgr.nets ∧
      t.mgr.procs = s.mgr.procs

/-- R70, R445: CREATE of a block that passes its checks adds its partition, its directory placed; DESTROY of a partition without
processes or networks removes it; SETFIELD of the priority writes the partition's field; BBCLEAR empties the rings. -/
def ManagePartitions : Prop :=
  ∀ (s : State) (m : HMsg),
    (∀ d, ManageHead s m 1 136 [] true → let b := (m.pay.drop 8).take 128
      let p := partOfBlock b
      blockBad b 1 = false → p.tnt ≠ 0 → s.part p.tnt = none → p.rw ≠ 0 → p.rh ≠ 0 → p.rx + p.rw ≤ 32 → p.ry + p.rh ≤ 16 →
      (∀ x y, s.coord s.managerTile = some (x, y) → ¬(p.rx ≤ x / 4 ∧ x / 4 < p.rx + p.rw ∧ p.ry ≤ y / 4 ∧ y / 4 < p.ry + p.rh)) →
      (∀ q ∈ s.mgr.parts, q.meets p = false) → s.carvePart p.rcb = true → s.placeDir p.ptdir = some d →
      let q := { p with ptdir := d, owned := [(d, dirBytes)] }
      (s.modMgr fun x => { x with parts := x.parts ++ [q] }).dramFits q.tnt = true →
      ∃ t, Happens .manageCreate s t ∧ Acked s t m 0 0 0 1 ∧ t.mgr.parts = s.mgr.parts ++ [q] ∧
        (∀ a, d ≤ a → a < d + dirBytes → Mem.read t.dram a = 0) ∧
        ∀ a, ¬(d ≤ a ∧ a < d + dirBytes) → Mem.read t.dram a = Mem.read s.dram a) ∧
    (∀ p, ManageHead s m 2 10 [] true → s.part (m.u 8 2) = some p → (∀ q ∈ s.mgr.procs, q.tnt ≠ m.u 8 2) →
      (∀ n ∈ s.mgr.nets, n.tnt ≠ m.u 8 2) →
      ∃ t, Happens .manageDestroy s t ∧ Acked s t m 0 0 0 1 ∧
        t.mgr.parts = s.mgr.parts.filter fun q => decide (q.tnt ≠ m.u 8 2)) ∧
    (∀ p, ManageHead s m 3 24 [13, 14, 15] false → s.part m.tnt = some p → m.u 8 4 = 0xFFFFFFFF → m.u 12 1 = 49 → m.u 16 8 ≤ 3 →
      ∃ t, Happens .manageSetfield s t ∧ Acked s t m 0 0 0 1 ∧ DeviceKept s t ∧
        t.mgr.parts = s.mgr.parts.map fun q => if q.tnt = m.tnt then { q with rcb := { p.rcb with prio := some (m.u 16 8) } } else q) ∧
    (ManageHead s m 8 8 [] true → ∃ t, Happens .manageBbclear s t ∧ Acked s t m 0 0 0 1 ∧ DeviceKept s t ∧
      ∀ d : Fin 8, (t.bbox[d]).count = 0 ∧ (t.bbox[d]).entries = [])

/-- R243: HALT of a running slot at an instruction boundary records DEBUG_HALT in CAUSE and the PC in EPC, and the slot runs no more
until RESUME; inside an instruction that has issued, it is to halt after it. RESUME makes a halted slot go on at its EPC, and one
that has still to halt run on. In any other state of the slot neither changes it. -/
def HaltAndResume : Prop :=
  ∀ (s : State) (m : HMsg) n (k : Fin 8), s.haltSlot m = some (n, k) →
    (ManageHead s m 9 11 [] false → ∃ t, Happens .manageHalt s t ∧ Acked s t m 0 0 0 1 ∧
      ((s.slot n k).run = .running → (s.slot n k).between = true → (t.slot n k).run = .halted ∧ (t.slot n k).cause = 0x0F ∧ (t.slot n k).eval = 0 ∧
        (t.slot n k).epc = (s.slot n k).pc ∧ (t.slot n k).pc = (s.slot n k).pc ∧ (t.slot n k).status = (s.slot n k).status ∧
        ∀ r, (t.slot n k).getG r = (s.slot n k).getG r) ∧
      ((s.slot n k).run = .running → (s.slot n k).between = false → t.slot n k = { s.slot n k with run := .halting }) ∧
      ((s.slot n k).run ≠ .running → t.slot n k = s.slot n k)) ∧
    (ManageHead s m 10 11 [] false → ∃ t, Happens .manageResume s t ∧ Acked s t m 0 0 0 1 ∧
      ((s.slot n k).run = .halted → (t.slot n k).run = .running ∧ (t.slot n k).pc = pcOf (s.slot n k).epc ∧
        (t.slot n k).status = (s.slot n k).status ∧ ∀ r, (t.slot n k).getG r = (s.slot n k).getG r) ∧
      ((s.slot n k).run = .halting → t.slot n k = { s.slot n k with run := .running }) ∧
      ((s.slot n k).run ≠ .halted → (s.slot n k).run ≠ .halting → t.slot n k = s.slot n k))

/-- R494, R495: a reading of 95 degrees raises a cluster's throttle one step, up to 3; 1 ms below 90 lowers it one; an overcurrent raises
every cluster; a reading of 110 cuts the core rail, signals the companion and every process is gone, after which no instruction runs. -/
def Throttling : Prop :=
  ∀ (s : State) c r, s.dev.railUp = true → c < 32 →
    let k := Fin.ofNat 32 c
    (95 * 16 ≤ r → ∃ t, Happens (.throttleStepUp c r) s t ∧ (t.clusters[k]).step = (if (s.clusters[k]).step < 3 then
        (s.clusters[k]).step + 1 else (s.clusters[k]).step) ∧ (∀ j : Fin 32, j ≠ k → t.clusters[j] = s.clusters[j]) ∧ RegsAll s t) ∧
    (∀ w, r < 90 * 16 → (s.clusters[k]).coolSince = some w → w + 10 ^ 6 * Config.tickUnits ≤ s.units → 0 < (s.clusters[k]).step →
      ∃ t, Happens (.throttleStepDown c r) s t ∧ (t.clusters[k]).step + 1 = (s.clusters[k]).step ∧
        (∀ j : Fin 32, j ≠ k → t.clusters[j] = s.clusters[j]) ∧ RegsAll s t) ∧
    (∃ t, Happens .overcurrentThrottle s t ∧ (∀ j : Fin 32, (t.clusters[j]).step =
      if (s.clusters[j]).step < 3 then (s.clusters[j]).step + 1 else (s.clusters[j]).step) ∧ RegsAll s t) ∧
    (110 * 16 ≤ r → ∃ t, Happens (.thermalTrip c r) s t ∧ t.dev.railUp = false ∧ t.dev.tripSignal = true ∧ t.mgr.procs = [] ∧
      (∀ p ∈ s.mgr.procs, t.slot p.tile p.k = Slot.reset) ∧ ∀ d a, exec (.cMv d a) t = .fault .coreRailCut)

/-- R498, R499, R501: the three resets put the machine in its reset state, the host's memory and the fuses apart, a warm one keeping
the black box and the management registers; BOOT begins, and then brings a signed, delivered and trained package to READY, the
ports that did not train marked down and the two host ends where SCBASE and RCBASE say; those are written, and the rings read, at any time. -/
def ResetAndBoot : Prop :=
  ∀ (s : State) (q : Word),
    (∃ t, Happens .powerOnReset s t ∧ t = { State.reset with host := s.host, fused := s.fused, free := s.free, agenda := s.agenda }) ∧
    (∀ i ∈ [Instr.warmReset, .coreRailReset], ∃ t, Happens i s t ∧ t = { State.reset with
      host := s.host, fused := s.fused, free := s.free, agenda := s.agenda, bbox := s.bbox,
      dev := { Device.reset with scbase := s.dev.scbase, rcbase := s.dev.rcbase, bboxPos := s.dev.bboxPos, bboxOut := s.dev.bboxOut } }) ∧
    (s.dev.railUp = true → s.dev.bootStatus = 0 → ∃ t, Happens .boot s t ∧ t = { s with dev := { s.dev with bootStatus := 1 } }) ∧
    (s.dev.railUp = true → s.dev.bootStatus = 1 → (Config.firmwareSigned = true → Config.firmwareDelivered = true → Config.linksTrain = true →
        ∃ t, Happens .boot s t ∧ t.dev.bootStatus = 2 ∧ t.mgr.scAt = s.dev.scbase ∧ t.mgr.rcAt = s.dev.rcbase ∧
          (∀ p, p ∈ t.portsDown ↔ p < 4 ∧ Config.portTrained p = false) ∧
          ∀ u, u ∈ s.activeTiles → (t.tile u).mem = [] ∧ (t.tile u).slots = (s.tile u).slots) ∧
      (Config.firmwareSigned = false → ∃ t, Happens .boot s t ∧ t.dev.bootStatus = 0x103 ∧ t.tiles = s.tiles)) ∧
    Happens (.scbaseWrite q) s { s with dev := { s.dev with scbase := q } } ∧
    Happens (.rcbaseWrite q) s { s with dev := { s.dev with rcbase := q } } ∧
    ∃ t, Happens .bboxRead s t ∧ (s.dev.bboxPos < (toWords (s.bboxImage 0)).length →
      t.dev.bboxOut = wordAt (toWords (s.bboxImage 0)) s.dev.bboxPos ∧ t.dev.bboxPos = s.dev.bboxPos + 1) ∧
      DeviceKept s t ∧ t.host = s.host ∧ t.mgr = s.mgr

/-! ### Fragments (11_fragments_and_errands.md R362-R377) -/

/-- A fragment has come to an end that looks at it: a station, or a tile that is there and that its network has not left; the end
admits its tenant, and its reserved fields are 0 (R364, R365, R395; 13_system_tables.md R453). -/
def Reaches (s : State) (f : Frag) : Prop :=
  f.hdr.dst.kind ≠ .port ∧ badFields f.hdr = false ∧ (f.hdr.dst.kind = .tile →
    (s.tile f.hdr.dst.num).forward = none ∧ (s.tile f.hdr.dst.num).vacated = false ∧ (s.coord f.hdr.dst.num).isSome = true ∧
    s.hasLeft f.hdr.dst.num f.hdr.netid = false) ∧ s.admits f.hdr.dst f.hdr.tnt = true

/-- No message of an end is partly there, and no fragment is held. -/
def NoneOpen (s : State) (e : Ep) : Prop := (s.fab e).bufs = [] ∧ (s.fab e).held = [] ∧ (s.fab e).tails = []

/-- The first fragment of a message that an acknowledgement consists of has been put on the wire. -/
def AckSent (s t : State) (e dst : Ep) (cls : Nat) (p : BitVec 48 → Prop) : Prop :=
  ∃ f r, t.wire = s.wire ++ f :: r ∧ f.hdr.src = e ∧ f.hdr.dst = dst ∧ f.hdr.cls = cls ∧ p f.hdr.arg

/-- A counter of R465 has counted one. -/
def Counted (s t : State) (e : Ep) (c : Fin 10) : Prop := (t.fab e).ctrs[c] = (s.fab e).ctrs[c] + 1

/-- R372, R395, R366: a fragment of another tenant than its tile's, or at a station of one that holds no partition, and one whose index its message does not have, are counted LOST and go no further; one
of a message already decoded is counted LATE; the first of a message of more than 32 bytes opens a buffer with the end's
deadline; the only data fragment of a shorter one delivers the message, which enters the completion
filter if it is no acknowledgement. -/
def FragmentArrives : Prop :=
  ∀ (s : State) i f, s.dev.railUp = true → s.wire[i]? = some f →
    let e := f.hdr.dst
    let k := dataCount f.hdr.len
    let ok := f.fidx < 20 ∧ (f.fidx < 16 → f.fidx < k)
    (e.kind = .tile → (s.tile e.num).forward = none → (s.tile e.num).vacated = false → (s.coord e.num).isSome = true →
      f.hdr.tnt ≠ 0 → (s.partOf e.num).map (·.tnt) ≠ some f.hdr.tnt →
      ∃ t, Happens (.fragmentArrival i) s t ∧ t.wire = s.wire.eraseIdx i ∧ Counted s t e ctrLOST ∧
        (t.fab e).inbox = (s.fab e).inbox ∧ (t.fab e).bufs = (s.fab e).bufs ∧ RegsAll s t ∧ MemAll s t) ∧
    (e.kind = .edge ∨ e.kind = .reel → f.hdr.tnt ≠ 0 → (∀ p ∈ s.mgr.parts, p.tnt ≠ f.hdr.tnt) →
      ∃ t, Happens (.fragmentArrival i) s t ∧ t.wire = s.wire.eraseIdx i ∧ Counted s t e ctrLOST ∧
        (t.fab e).inbox = (s.fab e).inbox ∧ (t.fab e).bufs = (s.fab e).bufs ∧ RegsAll s t ∧ MemAll s t) ∧
    (Reaches s f → NoneOpen s e →
      (¬ok → ∃ t, Happens (.fragmentArrival i) s t ∧ t.wire = s.wire.eraseIdx i ∧ Counted s t e ctrLOST ∧
        (t.fab e).inbox = (s.fab e).inbox ∧ (t.fab e).bufs = [] ∧ RegsAll s t ∧ MemAll s t) ∧
      (∀ g, ok → (s.fab e).filter = [g] → sameIdent g.hdr f.hdr = true → f.hdr.attempt ≤ g.attempt →
        ∃ t, Happens (.fragmentArrival i) s t ∧ t.wire = s.wire.eraseIdx i ∧ Counted s t e ctrLATE ∧
          (t.fab e).inbox = (s.fab e).inbox ∧ (t.fab e).bufs = [] ∧ RegsAll s t ∧ MemAll s t) ∧
      (ok → (s.fab e).filter = [] → s.bufferFree e f.hdr = true → f.hdr.cls ≠ clsERRAND →
        (e.kind = .tile → s.copyDirect e.num f.hdr = false) →
        (2 ≤ k → ∃ t, Happens (.fragmentArrival i) s t ∧ t.wire = s.wire.eraseIdx i ∧ (t.fab e).inbox = (s.fab e).inbox ∧
          (t.fab e).bufs = [{ hdr := f.hdr, frags := [(f.fidx, f.data)], direct := false, placed := [], nacks := 0,
                              deadline := s.units + s.deadline e }] ∧ RegsAll s t ∧ MemAll s t) ∧
        (k = 1 → f.fidx = 0 → execKind e { hdr := f.hdr, payload := f.data.take f.hdr.len } = .other → ∃ t, Happens (.fragmentArrival i) s t ∧ t.wire = s.wire.eraseIdx i ∧
          (t.fab e).inbox = (s.fab e).inbox ++ [{ hdr := f.hdr, payload := f.data.take f.hdr.len }] ∧ (t.fab e).bufs = [] ∧
          (t.fab e).filter = (if isAck f.hdr then [] else
            [{ hdr := f.hdr, status := .accepted, attempt := f.hdr.attempt, since := s.units }]) ∧ RegsAll s t ∧ MemAll s t)))

/-- R372, R373, R234: a fragment held for a whole deadline, while its network's share of the buffers is used up, draws a NACK with HELD set; a buffer whose deadline has come draws one with its
present map, and after RETRY_LIMIT of them is a loss that is filed and never delivered, and whose deadline does not run
while fragments of its frame are held; a filter entry lives 2^24 cycles;
a fragment that INJECT holds is sent when its delay has passed. -/
def FragmentDeadlines : Prop :=
  ∀ (s : State) (e : Ep) i, s.dev.railUp = true → e.kind ≠ .port →
    (∀ h, (s.fab e).held[i]? = some h → s.bufferFree e h.frag.hdr = false → h.since + (h.nacks + 1) * s.deadline e ≤ s.units →
      ∃ t, Happens (.heldFragmentNack e i) s t ∧ (t.fab e).held = (s.fab e).held.set i { h with nacks := h.nacks + 1 } ∧
        AckSent s t e h.frag.hdr.sender clsNACK (fun q => bit q 21 = true ∧ bits q 19 0 = 0) ∧ Counted s t e ctrNACKS ∧
        (t.fab e).inbox = (s.fab e).inbox ∧ RegsAll s t ∧ MemAll s t) ∧
    (∀ b, (s.fab e).bufs[i]? = some b → s.deadlineRuns e b = true → b.deadline ≤ s.units →
      (b.nacks < s.retryLimit e → ∃ t, Happens (.decodeDeadlineExpiry e i) s t ∧
        (t.fab e).bufs = (s.fab e).bufs.set i { b with nacks := b.nacks + 1, deadline := s.units + s.deadline e } ∧
        AckSent s t e b.hdr.sender clsNACK (fun q => bit q 21 = false ∧ bit q 20 = false ∧ bits q 19 0 = b.map % 2 ^ 20) ∧
        Counted s t e ctrNACKS ∧ (t.fab e).inbox = (s.fab e).inbox ∧ RegsAll s t ∧ MemAll s t) ∧
      (s.retryLimit e ≤ b.nacks → (s.fab e).filter.length < 256 → (s.fab e).bufs = [b] → (s.fab e).held = [] →
        isAck b.hdr = false → ∃ t, Happens (.decodeDeadlineExpiry e i) s t ∧ (t.fab e).bufs = [] ∧
          (t.fab e).filter = (s.fab e).filter ++ [{ hdr := b.hdr, status := .lost, attempt := b.hdr.attempt, since := s.units }] ∧
          Counted s t e ctrLOSS ∧ (t.fab e).inbox = (s.fab e).inbox ∧ t.wire = s.wire ∧ RegsAll s t ∧ MemAll s t)) ∧
    (∀ b, (s.fab e).bufs[i]? = some b → s.deadlineRuns e b = false → Happens (.decodeDeadlineExpiry e i) s s) ∧
    (∀ g, (s.fab e).filter[i]? = some g → NoneOpen s e →
      (g.since + 2 ^ 24 * s.cycleLen (s.regTile e) ≤ s.units → ∃ t, Happens (.filterEntryExpiry e i) s t ∧
        (t.fab e).filter = (s.fab e).filter.eraseIdx i ∧ t.wire = s.wire ∧ RegsAll s t ∧ MemAll s t) ∧
      (s.units < g.since + 2 ^ 24 * s.cycleLen (s.regTile e) → Happens (.filterEntryExpiry e i) s s)) ∧
    ∀ f due, e.kind = .tile → (s.fab e).injHeld[i]? = some (f, due) →
      (due ≤ s.units → ∃ t, Happens (.injectHoldRelease e.num i) s t ∧ t.wire = s.wire ++ [f] ∧
        (t.fab e).injHeld = (s.fab e).injHeld.eraseIdx i ∧ RegsAll s t ∧ MemAll s t) ∧
      (s.units < due → Happens (.injectHoldRelease e.num i) s s)

/-- R370, R369, R106: a message with one data fragment missing is rebuilt from the others and any one parity row. -/
def OneLossRebuilt : Prop :=
  ∀ (payload : List Byte) (i j : Nat), i < dataCount payload.length → dataCount payload.length ≤ 16 → j < 4 →
    let ds := (List.range (dataCount payload.length)).map (dataFrag payload)
    rebuild (dataCount payload.length) ((((List.range (dataCount payload.length)).filter (· != i)).map fun k => (k, dataFrag payload k)) ++
      [(16 + j, parityRow j ds)]) = ds

/-! ### Messages of channels and of far memory at their ends -/

/-- Message `i` of tile `u` belongs to the channel `c` of network `net`, whose end is entry `j` of the endpoint table. -/
def ChanMsg (s : State) (u i : Nat) (m : Msg) (net c : Nat) : Prop :=
  s.dev.railUp = true ∧ u < 8192 ∧ Inbox s ⟨.tile, u⟩ i m ∧ m.hdr.stream = .chan net c

/-- A request on a slot's implicit channel stands at the station that is the home of its page: the page's entry allows it,
and nothing earlier of the slot is on its way (R268, R440). -/
def HomeMsg (s : State) (n i : Nat) (m : Msg) (l : Leaf) : Prop :=
  let r := FarReq.ofMsg m
  s.dev.railUp = true ∧ n < 256 ∧ Inbox s ⟨.edge, n⟩ i m ∧ m.hdr.cls = clsTOKENS ∧ m.hdr.stream = .implicitReq ∧
  s.farHeld ⟨.edge, n⟩ m = false ∧ s.walk r.tnt r.pid r.va = .leaf l ∧ s.migOf r.tnt r.pid r.va = none ∧ l.station r.va = n

/-- One reply has been sent to the asker of a request: its status, and the tokens after the header. -/
def Answers (s t : State) (e : Ep) (m : Msg) (status : Nat) (fa : Nat) (data : List Word) : Prop :=
  let r := FarReq.ofMsg m
  ∃ x, (t.fab e).shadow = (s.fab e).shadow ++ [x] ∧ x.msg.hdr.dst = ⟨.tile, m.hdr.src.num⟩ ∧ x.msg.hdr.src = e ∧ x.msg.hdr.slot = srcSlot e r.slot.val ∧
    x.msg.hdr.stream = .implicitRep r.tile r.slot.val ∧ x.msg.hdr.aslot = r.slot.val ∧
    x.msg.payload = ofWords (BitVec.ofNat 64 (r.tag % 2 ^ 32 + status * 2 ^ 32 + r.len * 2 ^ 48) :: BitVec.ofNat 64 fa :: data)

/-- A message is all an end holds, and nothing waits for its executor. -/
def Alone (s : State) (e : Ep) (m : Msg) : Prop :=
  (s.fab e).inbox = [m] ∧ s.execQueue e = [] ∧ (e.kind = .edge → (s.edge e.num).resumed = [])

/-- An executor may run a message now, or the message is a plain copy and needs none (R380, R390). -/
def CopyTurn (s : State) (e : Ep) (m : Msg) : Prop :=
  (CopyArg.ofBits m.hdr.arg).rop = 7 ∨
    (CopyArg.ofBits m.hdr.arg).rop < 7 ∧ s.earlierPending e m.hdr = false ∧ Alone s e m

/-- Elements a COPY message carries in its transfer format (R364, R378). -/
def carriedElems (a : CopyArg) (payload : List Byte) : Nat :=
  payload.length / unitBytes a.xfmt (blockLen a.xbl) * if isBfp a.xfmt then blockLen a.xbl else 1

/-- Whether a message's elements are raw (XBL 0b01 of a format that is not BFP, R364). -/
def rawCopy (a : CopyArg) : Bool := !isBfp a.xfmt && a.xbl == 1

/-- What element `k` of a COPY message leaves where `old` stood, in a format `f` that is not BFP: its low bits where it is raw,
else its value converted (R364, R99, R293), combined with `old` by a reducing copy (R296). -/
def landed (a : CopyArg) (f : Nat) (payload : List Byte) (k old : Nat) : Nat :=
  let x := elemAt (fmtWidth a.xfmt) (ofBytes payload) k
  let v := if isBfp a.xfmt then ((imageSrc a.xfmt (blockLen a.xbl) payload a.psn).toPlain f 0 0 k).val
    else if a.xbl = 1 then x % 2 ^ fmtWidth f else (convert a.xfmt 0 f x).1
  if a.rop < 7 then ropApply a.rop f old v else v

/-- The byte a COPY message leaves at `b`, of a strip from `base`, where it writes one: of an active element, or of a BFP block
all of whose elements are active (R300, R380); `load` reads what stood at a place. -/
def landsAt (a : CopyArg) (f : MemFmt) (base act : Nat) (payload : List Byte) (load : Nat → Nat → Nat) (b : Nat) : Option Byte :=
  let n := carriedElems a payload
  if f.bfp then
    (List.range (n / f.blk)).findSome? fun j =>
      let q := (imageSrc a.xfmt (blockLen a.xbl) payload a.psn).toBlock f.fmt f.blk 0 (fun _ => 0) j
      if blockWhole n act f.blk j = false then none
      else if b = f.expAt base j then some (BitVec.ofNat 8 q.1)
      else if f.manAt base j ≤ b ∧ b < f.manAt base j + f.mb then some ((f.pack (q.2.map (·.val))).getD (b - f.manAt base j) 0)
      else none
  else
    (List.range n).findSome? fun k =>
      let p := base + k * f.size
      if act.testBit k = true ∧ p ≤ b ∧ b < p + f.size then
        some (BitVec.ofNat 8 (landed a f.fmt payload k (load p f.size) / 256 ^ (b - p)))
      else none

/-- A COPY message of bytes for a page of DRAM stands at the page's home, which may write it (R268, R440): a strip within one
64 KiB of the page, whose tables lie outside it. -/
def CopyHome (s : State) (n i : Nat) (m : Msg) (l : Leaf) : Prop :=
  let a := CopyArg.ofBits m.hdr.arg
  let va := copyVa m
  let pa := l.pa + va % 2 ^ pageBits l.level
  let len := (vtFmt m.hdr.vt).stripEnd 0 (carriedElems a (m.payload.drop 8)) m.hdr.act
  s.dev.railUp = true ∧ n < 256 ∧ Inbox s ⟨.edge, n⟩ i m ∧ m.hdr.cls = clsCOPY ∧ a.far = true ∧
  s.walk m.hdr.tnt m.hdr.pid va = .leaf l ∧ s.migOf m.hdr.tnt m.hdr.pid va = none ∧ l.station va = n ∧ l.tgt = 0 ∧
  s.farCheck m.hdr.tnt m.hdr.pid va (decide (a.rop < 7)) true = .ok l ∧ s.dramErrs = [] ∧ va % 65536 + len ≤ 65536 ∧
  ∀ d, (∀ b, ¬(pa ≤ b ∧ b < pa + len) → Mem.read d b = Mem.read s.dram b) →
    ({ s with dram := d } : State).walk m.hdr.tnt m.hdr.pid va = .leaf l

/-- Every byte of DRAM outside [a, a + n) kept, and every other memory. -/
def DramKept (s t : State) (a n : Nat) : Prop :=
  (∀ w x, Mem.read (t.tile w).mem x = Mem.read (s.tile w).mem x) ∧
  (∀ x, ¬(a ≤ x ∧ x < a + n) → Mem.read t.dram x = Mem.read s.dram x) ∧ ∀ x, Mem.read t.host x = Mem.read s.host x

/-- The memory-server pair `j` of station `n` has, at its head, a well-formed request of operation `op` for `len` bytes of one
DRAM page at far address `va`, allowed, some of its tokens taken or none, and no reply waiting (R355, R357). -/
def Served (s : State) (n j : Nat) (p : ServerPair) (op len va : Nat) (l : Leaf) : Prop :=
  s.dev.railUp = true ∧ n < 256 ∧ (s.edge n).pairs[j]? = some p ∧ p.ended = false ∧ p.asking = false ∧ p.out = [] ∧
  p.repGone = false ∧ p.credits = 0 ∧ p.endSent = false ∧ (p.got = [] → (s.edge n).serving < 64) ∧ 1 ≤ len ∧ len ≤ 4096 ∧
  (∃ tag, p.header = some { op := op, ord := 0, len := len, tag := tag, addr := BitVec.ofNat 64 (2 ^ 63 + va), res := false }) ∧
  va % 65536 + len ≤ 65536 ∧ va < 2 ^ 57 ∧ s.farCheck p.tnt p.pid va (op == 1) (op != 1) = .ok l ∧ l.tgt = 0 ∧ l.psn = false ∧
  s.migOf p.tnt p.pid va = none ∧ s.walk p.tnt p.pid va = .leaf l

/-- R331, R375, R329, R340: the next token of a channel is written to its slot of the channel area and is the first to receive; an end token
is recorded with its number; CREDIT adds the growth of its cumulative count; ENDED tells the send end. -/
def ChannelMessages : Prop :=
  ∀ (s : State) u i m net c, ChanMsg s u i m net c →
    (∀ j e (v : Word), m.hdr.cls = clsTOKENS → s.findRecv u net c = some (j, e) → mapFind (s.tile u).ends j = some (.recv e) → e.dead = false →
      tokSeq m.hdr = e.nextSeq % 2 ^ 32 → Unspilled e → e.held = [] → 0 < e.decl → (s.tile u).watch = [] →
      (bits m.hdr.arg 42 41 = 0 → m.payload = toBytes 8 v.toNat → ∃ t e', Happens (.tokens ⟨.tile, u⟩ i) s t ∧
        mapFind (t.tile u).ends j = some (.recv e') ∧ e'.nextSeq = e.nextSeq ∧ e'.avail 2 = 1 ∧
        e'.tokenAt (t.tile u).mem 0 = (v, bit m.hdr.arg 40) ∧ OutsideKept s t u (e.base + 8 * (e.nextSeq % e.decl)) 8 ∧
        RegsAll s t) ∧
      (∀ b, bits m.hdr.arg 42 41 = 1 + b2n b → ∃ t, Happens (.tokens ⟨.tile, u⟩ i) s t ∧
        mapFind (t.tile u).ends j = some (.recv { e with endRec := some (e.nextSeq, b) }) ∧ RegsAll s t ∧ MemAll s t)) ∧
    (∀ j e k, m.hdr.cls = clsCONTROL → bits m.hdr.arg 7 0 = 1 → s.findSend u net c = some (j, e) → k < 2 ^ 63 →
      m.payload = toBytes 8 ((e.cumul + k) % 2 ^ 64) → ∃ t e', Happens (.credit ⟨.tile, u⟩ i) s t ∧
        mapFind (t.tile u).ends j = some (.send e') ∧ e'.credits = e.credits + k ∧ e'.cumul = e.cumul + k ∧
        e'.nextSeq = e.nextSeq ∧ e'.state = e.state ∧ RegsAll s t ∧ MemAll s t) ∧
    ∀ j e, m.hdr.cls = clsCONTROL → bits m.hdr.arg 7 0 = 4 → s.findSend u net c = some (j, e) →
      ∃ t, Happens (.ended ⟨.tile, u⟩ i) s t ∧ mapFind (t.tile u).ends j = some (.send { e with noticed := true }) ∧
        RegsAll s t ∧ MemAll s t

/-- R268, R277, R278, R487, R440: a read, a write, or an update whose turn has come at the home station of a DRAM page does its work there and answers; a page its
entry forbids answers PROTECT and an update without a reply is discarded and counted; XLATE answers with the home and the
target; none changes another byte or any register. -/
def HomeRequests : Prop :=
  ∀ (s : State) n i m l, HomeMsg s n i m l → l.tgt = 0 → s.dramErrs = [] →
    let e : Ep := ⟨.edge, n⟩
    let r := FarReq.ofMsg m
    let pa := l.pa + r.va % 2 ^ pageBits l.level
    (r.op = 1 → r.rupd = false → l.canRead = true → (∀ g ∈ granules pa r.len, g ∉ s.dramPoison) → l.psn = false →
      ∃ t, Happens (.homeAccess e i) s t ∧ Answers s t e m 0 0 [BitVec.ofNat 64 (Mem.load s.dram pa r.len)] ∧
        RegsAll s t ∧ MemAll s t) ∧
    (r.op = 2 → r.rupd = false → l.canWrite = true → ∃ t, Happens (.homeAccess e i) s t ∧ Answers s t e m 0 0 [] ∧ RegsAll s t ∧
      (∀ k, k < r.len → Mem.read t.dram (pa + k) = BitVec.ofNat 8 (r.data.toNat / 256 ^ k)) ∧ DramKept s t pa r.len) ∧
    (Alone s e m → r.op = 5 → r.rupd = false → l.canRead = true → l.canWrite = true → ∃ t st, Happens (.homeAccess e i) s t ∧
      (st = 0 ∨ st = 4) ∧ Answers s t e m st 0 [BitVec.ofNat 64 (Mem.load s.dram pa r.len)] ∧ RegsAll s t ∧
      (∀ k, k < r.len → Mem.read t.dram (pa + k) = BitVec.ofNat 8 (amoNew r.aop r.len (Mem.load s.dram pa r.len)
        (r.data.toNat % 2 ^ (8 * r.len)) (r.cmp.toNat % 2 ^ (8 * r.len)) / 256 ^ k)) ∧ DramKept s t pa r.len) ∧
    (Alone s e m → r.op = 5 → r.rupd = true → (s.slot m.hdr.src.num r.slot).run = .running →
      (l.canRead = true → l.canWrite = true → ∃ t, Happens (.rupdApply e i) s t ∧ RegsAll s t ∧ DramKept s t pa r.len ∧
        (t.slot m.hdr.src.num r.slot).rupds = (s.slot m.hdr.src.num r.slot).rupds.filter (fun u => u.1 != r.tag) ∧
        ∀ k, k < r.len → Mem.read t.dram (pa + k) = BitVec.ofNat 8 (amoNew r.aop r.len (Mem.load s.dram pa r.len)
          (r.data.toNat % 2 ^ (8 * r.len)) (r.cmp.toNat % 2 ^ (8 * r.len)) / 256 ^ k)) ∧
      (l.canWrite = false → ∃ t, Happens (.rupdApply e i) s t ∧ RegsAll s t ∧ MemAll s t ∧ Counted s t e ctrDISCARD ∧
        (t.slot m.hdr.src.num r.slot).rupds = (s.slot m.hdr.src.num r.slot).rupds.filter (fun u => u.1 != r.tag))) ∧
    (r.op = 4 → r.rupd = false → (l.canWrite = true → ∃ t, Happens (.xlate e i) s t ∧
        Answers s t e m 0 0 [BitVec.ofNat 64 (n * 2 ^ 32 + l.tgt * 2 ^ 48)] ∧ RegsAll s t ∧ MemAll s t) ∧
      (l.canWrite = false → ∃ t, Happens (.xlate e i) s t ∧ Answers s t e m 2 (2 ^ 63 + r.va) [] ∧ RegsAll s t ∧ MemAll s t)) ∧
    (r.op = 2 → r.rupd = false → l.canWrite = false → ∃ t, Happens (.homeAccess e i) s t ∧ Answers s t e m 2 (2 ^ 63 + r.va) [] ∧ RegsAll s t ∧
      MemAll s t)

/-- R277, R271, R356: the reply of the request a slot awaits, a scalar access's or an indexed element's, ends its wait and is kept for
the instruction; a reply of another TAG changes no
slot. -/
def FarReplyArrives : Prop :=
  ∀ (s : State) u i m t0, s.dev.railUp = true → u < 8192 → Inbox s ⟨.tile, u⟩ i m → m.hdr.stream = .implicitRep u m.hdr.aslot →
    let k : Fin 8 := Fin.ofNat 8 m.hdr.aslot
    let w := toWords m.payload
    ((s.slot u k).pend = .far t0 → ∃ t, Happens (.farReply ⟨.tile, u⟩ i) s t ∧ RegsAll s t ∧ MemAll s t ∧
      (t0 % 2 ^ 32 = bits (wordAt w 0) 31 0 → (t.slot u k).wait = none ∧
        (t.slot u k).pend = .farDone (bits (wordAt w 0) 39 32) (wordAt w 2) (bits (wordAt w 0) 39 32 == 4)) ∧
      (t0 % 2 ^ 32 ≠ bits (wordAt w 0) 31 0 → t.slot u k = s.slot u k)) ∧
    ∀ p, (s.slot u k).pend = .elems p → ∃ t, Happens (.farReply ⟨.tile, u⟩ i) s t ∧ RegsAll s t ∧ MemAll s t ∧
      (p.tag = some (bits (wordAt w 0) 31 0) → (t.slot u k).wait = none ∧ (t.slot u k).pend = .elems { p with
        tag := none, ans := some (bits (wordAt w 0) 39 32, wordAt w 2, bits (wordAt w 0) 39 32 == 4) }) ∧
      (p.tag ≠ some (bits (wordAt w 0) 31 0) → t.slot u k = s.slot u k)

/-- R345, R346: a wait on a channel or a reel that has lasted its delay launches a probe: its number counts up, the slot knows it for its
own, and a copy that has crossed the edge is on its way along it; no other is launched while one is on its way. -/
def ProbesLaunched : Prop :=
  ∀ (s : State) u (k : Fin 8) w n, s.dev.railUp = true → u < 8192 → (s.slot u k).wait = some w →
    (w.probeAt = none → Happens (.probeLaunch u k) s s) ∧ ∀ d, w.probeAt = some d → w.kind.delay = some n → (s.slot u k).run = .running →
    (d ≤ s.units → s.stillWaits u k = true → s.mgr.assists = [] → ∃ t w', Happens (.probeLaunch u k) s t ∧
      (t.tile u).probeCtr = (s.tile u).probeCtr + 1 ∧ (t.slot u k).wait = some w' ∧ w'.kind = w.kind ∧
      (∃ id, w'.probes = { id := BitVec.ofNat 32 id, live := (s.slotEdges u k).length, acted := false } :: w.probes ∧ id / 65536 = u ∧ id % 65536 = (s.tile u).probeCtr.toNat ∧
        ∀ x, s.slotEdges u k = [x] → ∃ m, (t.tile u).fab.shadow = (s.tile u).fab.shadow ++ [m] ∧ m.msg.hdr.dst = x.dst ∧
          m.msg.hdr.cls = clsCONTROL ∧ bits m.msg.hdr.arg 7 0 = 5 ∧ m.msg.payload = ((Probe.mk id k.val false false 0 0 0 noChan []).cross x).bytes) ∧
      w'.probeAt = (if s.slotEdges u k = [] then some (s.units + n * (s.tile u).probeDelay.toNat * s.cycleLen u) else none) ∧ RegsAll s t ∧ MemAll s t) ∧
    (s.units < d → Happens (.probeLaunch u k) s s)

/-- R346, R349, R350, R353: a probe that reaches a waiting context goes on along its edges, once; back at its origin it ends the network
with DEADLOCK where no edge was a write, and doubles the channel of the smallest capacity where one was, and no other copy of it
does anything; one of 65535
edges is dropped. -/
def ProbesArrive : Prop :=
  ∀ (s : State) u i m, s.dev.railUp = true → u < 8192 → Inbox s ⟨.tile, u⟩ i m → m.hdr.cls = clsCONTROL →
    bits m.hdr.arg 7 0 = 5 →
    let p := Probe.ofBytes m.payload
    let e : Ep := ⟨.tile, u⟩
    (65535 ≤ p.hops → ∃ t, Happens (.probe e i) s t ∧ Counted s t e ctrPROBEDROP ∧ (t.fab e).shadow = (s.fab e).shadow ∧
      RegsAll s t ∧ MemAll s t) ∧
    ∀ net c (k : Fin 8), p.hops < 65535 → m.hdr.stream = .chan net c → s.residentIn u m.hdr.pid m.hdr.netid = some k →
      (p.id / 65536 = u % 65536 ∧ p.slot = k.val →
        (∀ w, (s.slot u k).wait = some w → ∀ y ∈ w.probes, y.id = BitVec.ofNat 32 p.id → y.acted = true) →
        ∃ t, Happens (.probe e i) s t ∧ t.mgr.ends = s.mgr.ends ∧ (t.fab e).shadow = (s.fab e).shadow ∧ RegsAll s t ∧ MemAll s t) ∧
      (¬(p.id / 65536 = u % 65536 ∧ p.slot = k.val) →
        ((s.slot u k).lastProbe = some (BitVec.ofNat 32 p.id) → ∃ t, Happens (.probe e i) s t ∧
          (t.fab e).shadow = (s.fab e).shadow ∧ t.slot u k = s.slot u k ∧ RegsAll s t ∧ MemAll s t) ∧
        (∀ x, (s.slot u k).lastProbe ≠ some (BitVec.ofNat 32 p.id) → s.slotEdges u k = [x] → ∃ t y, Happens (.probe e i) s t ∧
          (t.fab e).shadow = (s.fab e).shadow ++ [y] ∧ y.msg.hdr.dst = x.dst ∧ y.msg.payload = (p.cross x).bytes ∧
          (t.slot u k).lastProbe = some (BitVec.ofNat 32 p.id) ∧ RegsAll s t ∧ MemAll s t)) ∧
      ∀ w, p.id / 65536 = u % 65536 ∧ p.slot = k.val → (s.slot u k).wait = some w → (∃ y ∈ w.probes, y.id = BitVec.ofNat 32 p.id ∧ y.acted = false) →
        s.stillWaits u k = true → ∀ nw, s.net (s.slot u k).netid.toNat = some nw →
        (p.art = false → ∃ t r, Happens (.probe e i) s t ∧ t.mgr.ends = s.mgr.ends ++ [r] ∧ r.cause = 0x11 ∧
          r.netid = (s.slot u k).netid.toNat ∧ r.pid = none ∧ r.fault = true ∧
          r.eval = BitVec.ofNat 64 (p.low % 2 ^ 24 + u * 2 ^ 32) ∧ RegsAll s t ∧ MemAll s t) ∧
        ∀ j g, p.art = true → bit (s.assistBits nw.tnt) 1 = false → s.consumerTile (s.slot u k).netid.toNat p.best = some u →
          s.findRecv u (s.slot u k).netid.toNat p.best = some (j, g) → mapFind (s.tile u).ends j = some (.recv g) →
          g.cap = p.bestCap → g.dead = false → 2 * g.cap ≤ 2 ^ 24 →
          ∃ t, Happens (.probe e i) s t ∧ mapFind (t.tile u).ends j = some (.recv { g with cap := 2 * g.cap, claims := g.claims ++ [g.cap] }) ∧
            RegsAll s t ∧ MemAll s t

/-- R350, R351, R352, R480: GROW doubles the capacity it names, once, and asks for the extension; its reply adds the extension and its
credits; a spilled token read back takes its slot in the channel area; a capacity over 2^24, a claim past the region
or past the budget that holds when its reply arrives, and a spill request that fails end the network with SPILL_EXHAUSTED. -/
def ChannelsGrow : Prop :=
  ∀ (s : State) u i m net c j g nw, s.dev.railUp = true → u < 8192 → Inbox s ⟨.tile, u⟩ i m → s.net net = some nw →
    s.findRecv u net c = some (j, g) → mapFind (s.tile u).ends j = some (.recv g) → g.dead = false → g.netid = net → g.chan = c →
    let e : Ep := ⟨.tile, u⟩
    let w := toWords m.payload
    let tag := bits (wordAt w 0) 31 0
    let status := bits (wordAt w 0) 39 32
    let v := (wordAt w 2).toNat
    let limit := Min.min nw.spillSize
      (nw.rcb.spill.getD (s.partLeft (·.spill) (fun n => if n = net then 0 else s.spillUse n) (fun _ => 0) nw.tnt))
    let exhausted := fun (t : State) => ∃ r, t.mgr.ends = s.mgr.ends ++ [r] ∧ r.cause = 0x12 ∧ r.netid = net ∧ r.pid = none ∧
      r.fault = true ∧ r.eval = BitVec.ofNat 64 c ∧ RegsAll s t ∧ MemAll s t
    (m.hdr.stream = .chan net c → m.hdr.cls = clsCONTROL → bits m.hdr.arg 7 0 = 6 →
      (m.payload = toBytes 8 g.cap → 2 * g.cap ≤ 2 ^ 24 → ∃ t, Happens (.grow e i) s t ∧ RegsAll s t ∧ MemAll s t ∧
        mapFind (t.tile u).ends j = some (.recv { g with cap := 2 * g.cap, claims := g.claims ++ [g.cap] })) ∧
      (∀ k, m.payload = toBytes 8 k → k < 2 ^ 64 → k ≠ g.cap → ∃ t, Happens (.grow e i) s t ∧ RegsAll s t ∧ MemAll s t ∧
        (t.tile u).ends = (s.tile u).ends) ∧
      (m.payload = toBytes 8 g.cap → 2 ^ 24 < 2 * g.cap → g.cap < 2 ^ 64 → ∃ t, Happens (.grow e i) s t ∧ exhausted t)) ∧
    (m.hdr.stream = .spill net c → m.hdr.cls ≠ clsTOKENS → Happens (.spillClaimReply e i) s s ∧ Happens (.spillRead e i) s s) ∧
    (m.hdr.stream = .spill net c → m.hdr.cls = clsTOKENS → tag % 4 = 0 →
      (status = 0 → v + 8 * (tag / 4) ≤ limit → Unspilled g → ∃ t e', Happens (.spillClaimReply e i) s t ∧
        mapFind (t.tile u).ends j = some (.recv e') ∧ (v, tag / 4) ∈ e'.exts ∧ (∀ x ∈ g.exts, x ∈ e'.exts) ∧
        e'.returned = g.returned + tag / 4 ∧ e'.grown = g.grown + tag / 4 ∧ e'.cap = g.cap ∧ e'.nextSeq = g.nextSeq ∧
        (∃ y, (t.fab e).shadow = (s.fab e).shadow ++ [y] ∧ y.msg.hdr.dst = g.peer ∧ bits y.msg.hdr.arg 7 0 = 1 ∧
          y.msg.payload.take 8 = toBytes 8 e'.returned) ∧ RegsAll s t ∧ MemAll s t) ∧
      (status ≠ 0 ∨ limit < v + 8 * (tag / 4) → ∃ t, Happens (.spillClaimReply e i) s t ∧ exhausted t)) ∧
    (m.hdr.stream = .spill net c → m.hdr.cls = clsTOKENS → tag % 4 = 1 →
      (∀ q x b, status = 0 → g.spilled = [(q, x, b)] → g.early = [] → g.ahead = [] → q < g.nextSeq + g.decl → (s.tile u).watch = [] →
        ∃ t e', Happens (.spillRead e i) s t ∧ mapFind (t.tile u).ends j = some (.recv e') ∧ e'.spilled = [] ∧
          mapFind e'.held q = some b ∧ e'.nextSeq = g.nextSeq ∧
          Mem.load (t.tile u).mem (e'.slotAddr q) 8 = v ∧ OutsideKept s t u (g.slotAddr q) 8 ∧ RegsAll s t) ∧
      (status ≠ 0 → ∃ t, Happens (.spillRead e i) s t ∧ exhausted t))

/-! ### The machine as a whole -/

/-- Every memory of the machine is in its canonical form. -/
def MemoryForm (s : State) : Prop := Mem.wf s.dram = true ∧ Mem.wf s.host = true ∧ ∀ n, Mem.wf (s.tile n).mem = true

/-- The instruction of tile `u` at local address `a` decodes to `i`: the address is even and in code memory, its halfword begins
an instruction there, wholly in code memory, and no error or decode-table fault stands in the way (R109, R111, R128). -/
def CodeAt (s : State) (u : Nat) (a : Word) (i : Instr) : Prop :=
  let x := s.tile u
  a.toNat % 2 = 0 ∧ 0xD0000 ≤ a.toNat ∧ a.toNat ≤ 0xDFFFF ∧ x.startBit a.toNat = true ∧ x.errs = 0 ∧
  ((x.half a.toNat).getLsbD 15 = true → a.toNat ≠ 0xDFFFE ∧ x.startBit (a.toNat + 2) = false) ∧
  x.decTable.failed = false ∧ x.decTable.image = [] ∧
  decode [x.half a.toNat, x.half (a.toNat + 2)] = .ok (i, if (x.half a.toNat).getLsbD 15 then 4 else 2)

/-- The state in which a turn of slot `k` of tile `u` runs: the agenda's head taken, time gone by, the slot the current one. -/
def State.atTurn (s : State) (dt u : Nat) (k : Fin 8) (r : List Turn) : State :=
  { ({ s with agenda := r } : State).advance dt with cur := { tile := u, slot := k } }

/-- Decode and encode agree: every well-formed instruction of the table is read back from the halfwords that encode it, whatever
follows them. -/
def DecodeEncode : Prop :=
  ∀ (i : Instr) rest, i.wf = true → i.isEvent = false → decode (encode i ++ rest) = .ok (i, i.length)

/-- What the decoder gives is well formed, is of the table, and has the length its first halfword's bit 15 states. -/
def DecodedIsWellFormed : Prop :=
  ∀ h r i n, decode (h :: r) = .ok (i, n) → i.wf = true ∧ i.isEvent = false ∧ n = if h.getLsbD 15 then 4 else 2

/-- R495: while the core rail is down no encoded instruction runs. -/
def RailDownStops : Prop :=
  ∀ (s : State) (i : Instr), s.dev.railUp = false → i.isEvent = false → exec i s = .fault .coreRailCut

end

end Sys2Proof.Machine

open Sys2Proof Sys2Proof.Machine

/-- R117, R157, R159, R160, R161, R162, R167: the scalar integer instructions write to d, and to nothing else, what their tables give. -/
def Obligations.ScalarResults : Prop :=
  TwoSourceResult ∧ OneSourceResult ∧ NoSourceResult

/-- R124, R167: the extension moves, and the instructions that only go on. -/
def Obligations.MovesAndHints : Prop :=
  ExtensionMoves ∧ HintsDoNothing

/-- R163, R164, R165, R166: branches and jumps, where they go, what they link, and the targets they refuse. -/
def Obligations.ControlTransfers : Prop :=
  BranchResult ∧ JumpResult

/-- R144, R146, R147, R148, R149, R150, R151, R153: a windowed operand receives and a windowed destination sends, or the instruction waits or traps. Rests on the model's choices of assumption log 6. -/
def Obligations.PortWindow : Prop :=
  WindowReceive ∧ WindowSend ∧ WindowForms ∧ WindowStops ∧ TokensTaken

/-- R238, R506: what taking a trap saves and changes, when it is a double fault, and what the default supervisor does. -/
def Obligations.TrapsTaken : Prop :=
  TrapEntry ∧ DoubleFault ∧ DefaultSupervisor

/-- R123, R243, R244: TRAP, BKPT, CHKERR, an unassigned encoding, and FENCE. -/
def Obligations.SystemInstructions : Prop :=
  TrapInstructions ∧ FenceResult

/-- R184, R231, R232, R233, R237: CTLR, CTLW, CTLS and CTLC, where they act and where they trap. -/
def Obligations.ControlRegisterAccess : Prop :=
  ControlRegisters ∧ ControlRegisterTraps

/-- R255, R257, R258, R259: where a scalar access goes and how it is refused. -/
def Obligations.AccessChecks : Prop :=
  LocalAccess ∧ WindowAccess

/-- R265, R273, R274: loads, stores, and the poison of granules. -/
def Obligations.LoadsAndStores : Prop :=
  LoadResult ∧ StoreResult ∧ GranulePoison

/-- R257, R271, R276, R277, R356: LDF, STF and AMO send a request, wait, and complete with the reply. Rests on the model's choices of assumption log 16, 58. -/
def Obligations.FarInstructions : Prop :=
  FarRequest ∧ FarResult ∧ FarTraps

/-- R277, R278, R279: RUPD goes on at once; an update leaves what its OP gives. Rests on the model's choices of assumption log 16. -/
def Obligations.RemoteUpdates : Prop :=
  RupdSends ∧ AmoAtHome

/-- R92, R177, R181, R188, R189, R190: element-wise vector arithmetic. -/
def Obligations.VectorArithmetic : Prop :=
  VectorInteger ∧ VectorSaturating ∧ VectorFloat

/-- R177, R181, R191, R192, R193: compares and the mask instructions. -/
def Obligations.MaskInstructions : Prop :=
  VectorCompare ∧ MaskWrites

/-- R181, R192, R194: results in scalar registers, and moves among vector elements. -/
def Obligations.VectorScalarMoves : Prop :=
  VectorToScalar ∧ VectorMoves

/-- R195, R102, R104: VREDSUM, VREDMIN and VREDMAX write the wrapping sum, the least and the greatest of the active elements, or the
value of an empty tree, to element 0 of vd and keep its other elements; VFREDSUM writes the sum over the canonical tree,
each node rounded in RNE, a NaN it makes carrying the node's left position. -/
def Obligations.VectorReductions : Prop :=
  ∀ s, VecReady s →
    (∀ i m e d a f, VecRed i m e d a f → isInt s.vec.fmt = true →
      ∃ t, exec i s = .next t ∧ VecDone s t ∧ VecKept s t (some d) none none ∧ t.vec.xm = s.vec.xm ∧
        Wrote s t d s.vec.vlMax fun k => if k = 0 then
          some ((f s.vec.fmt ((activesOf s m e).map fun j => intVal s.vec.fmt (elemOf s a j)) % 2 ^ fmtWidth s.vec.fmt).toNat)
          else none) ∧
    (∀ x m e d a, isFp s.vec.fmt = true →
      let leaves := (List.range s.vec.vl.toNat).map fun k => if ActiveAt s m e k then some (elemOf s a k, 0) else none
      let node := fun (i : Nat) (p q : Nat × Nat) =>
        let v := fpAdd s.vec.fmt 0 (originOf i s.cur.slot.val s.pcOff) false p.1 q.1
        (v.1, p.2 ||| q.2 ||| v.2)
      let r := (treeAt node leaves).getD (0, 0)
      ∃ t, exec (.vfredsum x m e d a) s = .next t ∧ VecDone s t ∧ VecKept s t (some d) none none ∧
        (Wrote s t d s.vec.vlMax fun k => if k = 0 then some (r.1 % 2 ^ fmtWidth s.vec.fmt) else none) ∧
        Flagged s t fun k => if k = 0 then r.2 else 0)

/-- R99, R173, R196, R197: conversions and shared exponents. -/
def Obligations.VectorConversions : Prop :=
  VectorConvert ∧ VectorExponents

/-- R185, R186, R177: SETVL and SETVLI grant min(q, VLMAX), rounded down to whole blocks in a BFP format, write it to VL and to g d;
SETVT writes VT and trims VL, or sets BAD and clears VL for a reserved format code or a non-zero reserved bit, whatever
VT.BAD held. -/
def Obligations.SetVector : Prop :=
  ∀ s, Ready s → s.cur.slot.val < 2 →
    let grant := fun (c : VecCtx) (q : Nat) => Min.min q c.vlMax - (if isBfp c.fmt then Min.min q c.vlMax % c.blk else 0)
    (∀ d a, s.vec.bad = false → ∃ t, exec (.setvl d a) s = .next t ∧ VecDone s t ∧
      t.vec.vl = BitVec.ofNat 13 (grant s.vec (s.g a).toNat) ∧ t.vec.vt = s.vec.vt ∧
      (d ≠ 0 → t.me.getG d = t.vec.vl.setWidth 64) ∧ ∀ n, n ≠ d → t.me.getG n = s.me.getG n) ∧
    (∀ i d, s.vec.bad = false → ∃ t, exec (.setvli i d) s = .next t ∧ VecDone s t ∧
      t.vec.vl = BitVec.ofNat 13 (grant s.vec i.toNat) ∧ t.vec.vt = s.vec.vt ∧
      (d ≠ 0 → t.me.getG d = t.vec.vl.setWidth 64) ∧ ∀ n, n ≠ d → t.me.getG n = s.me.getG n) ∧
    (∀ d a, ∃ t, exec (.setvt d a) s = .next t ∧ VecDone s t ∧
      (let q := s.g a
       if 2 ^ 11 ≤ q.toNat ∨ fmtKnown (bits q 4 0) = false then t.vec.vt = 0x80000000 ∧ t.vec.vl = 0
       else t.vec.vt = q.setWidth 32 ∧ t.vec.vl = BitVec.ofNat 13 (grant t.vec s.vec.vl.toNat)) ∧
      (d ≠ 0 → t.me.getG d = t.vec.vl.setWidth 64) ∧ ∀ n, n ≠ d → t.me.getG n = s.me.getG n)

/-- R24, R183, R184: where a vector instruction is illegal, and one with VL = 0. -/
def Obligations.VectorStops : Prop :=
  VectorIllegal ∧ VectorEmpty

/-- R284, R285, R286, R289: contiguous and strided vector loads and stores, and the traps of their elements. -/
def Obligations.VectorMemory : Prop :=
  VectorLoad ∧ VectorStore ∧ VectorMemoryTrap

/-- R95, R96, R246, R271, R284, R285, R286: indexed accesses, and block-floating loads. Rests on the model's choices of assumption log 10. -/
def Obligations.VectorIndexedAndBlocks : Prop :=
  VectorIndexed ∧ VectorIndexedFar ∧ VectorLoadBlocks

/-- R210, R217, R218, R219, R220, R221, R222, R224: accumulators initialised, multiplied into, and drained. -/
def Obligations.MatrixInstructions : Prop :=
  MatrixInit ∧ MatrixProduct ∧ MatrixDrain

/-- R246, R293, R296, R298: copies within a tile, and the end of one that was answered. -/
def Obligations.Copies : Prop :=
  CopyInTile ∧ CopyRetires

/-- R329, R331, R335, R338: SEND, RECV, SENDE, RECVE and PORTQ. Rests on the model's choices of assumption log 6, 24. -/
def Obligations.ChannelInstructions : Prop :=
  ChannelSend ∧ ChannelReceive ∧ ChannelEnds

/-- R336: VSEND sends ceil(VL x W / 64) tokens at once, cut from the elements below VL; VRECV takes as many and writes the elements
below VL. Both ignore the mask and FMASK.
Rests on the model's choices of assumption log 6. -/
def Obligations.ChannelVector : Prop :=
  ∀ (s : State) (p : BitVec 4) (d a : BitVec 5), VecReady s → isBfp s.vec.fmt = false →
    let w := fmtWidth s.vec.fmt
    let n := (s.vec.vl.toNat * w + 63) / 64
    (∀ j e, s.sendAtPort p = some (j, e) → e.state = .open → e.noticed = false →
      (s.released = true → n ≤ e.credits → ∃ t, exec (.vsend p a) s = .next t ∧ VecDone s t ∧ VecKept s t none none none ∧
        mapFind t.myTile.ends j = some (.send { e with nextSeq := (e.nextSeq + n) % 2 ^ 32, credits := e.credits - n }) ∧
        (s.vec.poisReg a = 0 → n ≤ 64 → SentTokens s t e (ofWords ((List.range n).map (vecToken s a))))) ∧
      (e.credits < n → exec (.vsend p a) s = .next (s.block (.send j n [])))) ∧
    (∀ j e, s.recvAtPort p = some (j, e) →
      (e.avail n = n → Unspilled e → ∃ t, exec (.vrecv p d) s = .next t ∧ VecDone s t ∧ VecKept s t (some d) none none ∧
        mapFind t.myTile.ends j = some (.recv (e.taken n)) ∧
        Wrote s t d s.vec.vlMax fun k => if k < s.vec.vl.toNat then
          some ((e.tokenAt s.myTile.mem (k * w / 64)).1.toNat / 2 ^ (k * w % 64) % 2 ^ w) else none) ∧
      (e.avail n < n → e.endAfter (e.avail n) = false → e.spilled = [] →
        exec (.vrecv p d) s = .next (s.block (.recv [(j, n)]))))

/-- R384, R385, R388, R389, R507: ERRAND, ERRWAIT and the completion a REPLY brings. Rests on the model's choices of assumption log 38, 58. -/
def Obligations.Errands : Prop :=
  ErrandSend ∧ ErrandWait ∧ ErrandReply

/-- R387: REPLY and FINS outside a frame are illegal. R383, R384, R387: in a frame whose TARGET is local, FINS replaces the named bits of
the doubleword it addresses, and REPLY gives the value the issuer receives; the frame leaves the queue. -/
def Obligations.ErrandFrame : Prop :=
  (∀ (s : State) (r d a : BitVec 5), Ready s →
    (∃ v, exec (.reply a) s = .next (s.trapAt 0x01 v s.me.pc)) ∧ ∃ v, exec (.fins r d a) s = .next (s.trapAt 0x01 v s.me.pc)) ∧
  ∀ (s : State) u m q (x d a y : BitVec 5), s.dev.railUp = true → u < 8192 → FrameFirst s u m q → (s.tile u).errs = 0 →
    (frameTarget m.payload).toNat < 0xD0000 →
    let reg := fun (n : BitVec 5) => if n = 0 then (0 : Word) else frameOpnd m.payload (n.toNat - 1)
    let off := (reg a).toNat
    let b := (reg d).toNat % 64
    let w := (reg d).toNat / 256 % 16
    frameCheck m.payload = .ok [.fins x d a, .reply y] → x.toNat ≤ 4 → d.toNat ≤ 4 → a.toNat ≤ 4 → y.toNat ≤ 4 →
    off % 8 = 0 → off + 8 ≤ 0xD0000 → 1 ≤ w → w ≤ 8 → b + w ≤ 64 →
    ∃ t, Happens (.errandFrameExecution ⟨.tile, u⟩) s t ∧ (t.tile u).execQ = q ∧ Replied s t u m 0 (reg y) ∧
      (∀ z, (Mem.load (t.tile u).mem off 8).testBit z =
        if b ≤ z ∧ z < b + w then (reg x).toNat.testBit (z - b) else (Mem.load (s.tile u).mem off 8).testBit z) ∧
      ∀ v c, ¬(v = u ∧ off ≤ c ∧ c < off + 8) → Mem.read (t.tile v).mem c = Mem.read (s.tile v).mem c

/-- R410, R419, R420, R421, R422, R423, R424: arriving at a reel and its collectives. Rests on the model's choices of assumption log 31. -/
def Obligations.ReelCollectiveResults : Prop :=
  ReelArrival ∧ ReelCollectives

/-- R411, R413, R415, R421, R426: joining, leaving, waiting for and asking about a reel. Rests on the model's choices of assumption log 31. -/
def Obligations.ReelHandleInstructions : Prop :=
  ReelMembership ∧ ReelQueries

/-- R297, R411, R413, R414, R418, R419, R421, R422, R426, R429, R432, R433: what a reel's station does with each message. Rests on the model's choices of assumption log 31. -/
def Obligations.ReelStations : Prop :=
  ReelMembers ∧ ReelPhases ∧ ReelAnswers

/-- R456, R458: SWADD, a release, waits for the slot's earlier updates and errand frames (R460; 09_memory_ordering.md R316) and adds the
low word of g t to the word's count, SWSET sets its target and may clear the count, both advancing the
word and writing nothing else; SWREAD reads generation and count at once; SWWAIT ends with the generation once it has
reached the one awaited, and waits before. -/
def Obligations.SyncWords : Prop :=
  ∀ (s : State) (r d a : BitVec 5) u off, Ready s →
    (s.syncCheck true (s.g a) = .ok (u, off) → (s.tile u).errs = 0 → bits s.myTile.inject 3 0 ≠ 5 →
      (s.released = false → exec (.swadd r a) s = .next (s.block .issue)) ∧
      (s.released = true → ∃ t, exec (.swadd r a) s = .next t ∧ t.me.pc = s.me.pc + 4 ∧ GKept s t none ∧ OutsideKept s t u off 16 ∧
        Advanced t u off (swTarget s u off) (swCount s u off) (swGen s u off) ((s.g r).toNat % 2 ^ 32)) ∧
      (∃ t, exec (.swset r d a) s = .next t ∧ t.me.pc = s.me.pc + 4 ∧ GKept s t (some d) ∧ OutsideKept s t u off 16 ∧
        Advanced t u off ((s.g r).toNat % 2 ^ 32) (if bit (s.g r) 32 then 0 else swCount s u off) (swGen s u off) 0 ∧
        (d ≠ 0 → t.me.getG d = BitVec.ofNat 64 (swGen t u off))) ∧
      ∃ t, exec (.swread d a) s = .next t ∧ t.me.pc = s.me.pc + 4 ∧ RegsKept s t (some d) ∧
        (d ≠ 0 → t.me.getG d = BitVec.ofNat 64 (swGen s u off * 2 ^ 32 + swCount s u off))) ∧
    (s.syncCheck false (s.g a) = .ok (u, off) → (s.tile u).errs = 0 → s.me.wait = none → s.me.pend = .none →
      let want := (s.g r).toNat % 2 ^ 32
      let gen := swGen s u off
      ((gen + 2 ^ 32 - want) % 2 ^ 32 < 2 ^ 31 →
        ∃ t, exec (.swwait r d a) s = .next t ∧ t.me.pc = s.me.pc + 4 ∧ RegsKept s t (some d) ∧
          (d ≠ 0 → t.me.getG d = BitVec.ofNat 64 gen)) ∧
      (2 ^ 31 ≤ (gen + 2 ^ 32 - want) % 2 ^ 32 → exec (.swwait r d a) s = .next (s.block (.syncWord off want))))

/-- R467, R469, R471, R472: with no window open, or the enable bit 0, TEMIT and TMARK only move the PC; with both 1 and a GAP pending,
the record is dropped and counted; with room and budget, it enters the FIFO as one unit with its header and payload. -/
def Obligations.TraceInstructions : Prop :=
  ∀ (s : State) i en typ p0, Ready s →
    ((∃ a, i = .temit a ∧ en = 1 ∧ typ = 1 ∧ p0 = (s.g a).toNat) ∨
     (∃ m, i = .tmark m ∧ en = 2 ∧ typ = 2 ∧ p0 = s.pcOff % 2 ^ 16 + m.toNat * 2 ^ 16 + s.me.pid.toNat * 2 ^ 32)) →
    let now := s.modTile s.cur.tile fun x => { x with trace := x.trace.roll (s.cycle s.cur.tile) }
    let tr := s.myTile.trace
    ((bit s.myTile.trctl 0 = false ∨ bit s.myTile.trctl en = false) → exec i s = .next (s.ended 4 id)) ∧
    (bit s.myTile.trctl 0 = true → bit s.myTile.trctl en = true → tr.gap ≠ 0 →
      ∃ t, exec i s = .next t ∧ t.me.pc = s.me.pc + 4 ∧ RegsKept s t none ∧ t.myTile.trace.fifo = tr.fifo ∧
        t.myTile.trace.gap = tr.gap + 1 ∧ t.myTile.trace.dropped = tr.dropped + 1) ∧
    (bit s.myTile.trctl 0 = true → bit s.myTile.trctl en = true → tr.gap = 0 → tr.heldCaps = [] → tr.fifo.length < 256 →
      16 ≤ now.traceLeft s.cur.tile s.cur.slot.val →
      ∃ t, exec i s = .next t ∧ t.me.pc = s.me.pc + 4 ∧ RegsKept s t none ∧
        t.myTile.trace.fifo = tr.fifo ++ [BitVec.ofNat 128 (0xA5C + typ * 2 ^ 12 + s.cur.slot.val * 2 ^ 18 +
          s.time % 2 ^ 40 * 2 ^ 24 + p0 * 2 ^ 64)])

/-- R33, R36, R248, R250, R252: the ready queue, park records, and starting and stopping slots. -/
def Obligations.Scheduling : Prop :=
  ReadyQueue ∧ SlotControl

/-- R252, R453: MIGRATE to a tile that is not free gives 1 and moves nothing; to a free one, with the other slots stopped, empty or halted with nothing outstanding, it moves the
tile's contexts and memory there, leaves a forwarding entry, gives 0 and goes on at the new tile. FWDSET writes the
forwarding entry of a vacated tile, and gives 1 for another.
Rests on the model's choices of assumption log 18. -/
def Obligations.Voltas : Prop :=
  ∀ (s : State) (r d a : BitVec 5), Ready s → 1 ≤ s.me.prv →
    let u := (s.g a).toNat % 2 ^ 16
    let assisted := bit (s.assistBits (((s.partOf s.cur.tile).map (·.tnt)).getD 0)) 5
    (assisted = false → s.freeFor s.cur.tile u = false → s.me.pend = .none →
      exec (.migrate d a) s = .next (s.ended 4 fun x => x.setG d 1)) ∧
    (assisted = false → s.freeFor s.cur.tile u = true → (∀ k : Fin 8, k ≠ s.cur.slot → (s.slot s.cur.tile k).run = .stopped ∨
        (s.slot s.cur.tile k).run = .empty ∨ (s.slot s.cur.tile k).run = .halted ∧ (s.slot s.cur.tile k).quiet = true) → s.me.rupds = [] →
      ∃ t f, exec (.migrate d a) s = .next t ∧ t.cur = { tile := u, slot := s.cur.slot } ∧ t.me.pc = s.me.pc + 4 ∧
        (d ≠ 0 → t.me.getG d = 0) ∧ (∀ n, n ≠ d → t.me.getG n = s.me.getG n) ∧ (∀ n, t.me.getE n = s.me.getE n) ∧
        t.vec = s.vec ∧ (∀ x, Mem.read (t.tile u).mem x = Mem.read s.myTile.mem x) ∧
        (t.tile s.cur.tile).forward = some f ∧ f.target = u ∧ f.expiry = s.time + 2 ^ 24 ∧ (t.tile s.cur.tile).vacated = true) ∧
    (2 ≤ s.me.prv → let v := (s.g a).toNat % 2 ^ 16
      ((s.tile v).vacated = false → exec (.fwdset r d a) s = .next (s.ended 4 fun x => x.setG d 1)) ∧
      ((s.tile v).vacated = true → ∃ t, exec (.fwdset r d a) s = .next t ∧ t.me.pc = s.me.pc + 4 ∧ RegsKept s t (some d) ∧
        (d ≠ 0 → t.me.getG d = 0) ∧ (s.g r = 0 → (t.tile v).forward = none) ∧
        (s.g r ≠ 0 → ∃ f, (t.tile v).forward = some f ∧ f.target = (s.g a).toNat / 2 ^ 16 % 2 ^ 16 ∧
          f.expiry = s.time + (s.g r).toNat)))

/-- R241, R247, R248, R251: pending events taken by the supervisor, and what raises them. Rests on the model's choices of assumption log 3, 63. -/
def Obligations.Supervision : Prop :=
  SupervisorEvents ∧ TimersExpire

/-- R175, R176, R186, R208, R233, R234, R236, R249, R262, R344, R368, R462: each write row changes its register and nothing else. Rests on the model's choices of assumption log 3, 34, 35, 46, 48. -/
def Obligations.RegisterRows : Prop :=
  VectorRegisterWrites ∧ TileRegisterWrites ∧ SlotRegisterWrites

/-- R43, R506, R507: the manager acts on the oldest end: a process that ends without a fault, its slot stopped with nothing outstanding,
is no longer placed; its slot's context is discarded; the next end follows.
Rests on the model's choices of assumption log 3. -/
def Obligations.ProcessEnds : Prop :=
  ∀ (s : State) r rest p, s.dev.railUp = true → s.mgr.ends = r :: rest → r.fault = false → (s.net r.netid).isSome = true →
    p ∈ s.mgr.procs → p.netid = r.netid → r.pid = some p.pid → p.slot < 8 →
    (∀ q ∈ s.mgr.procs, q.netid = r.netid → r.pid = some q.pid → q = p) →
    let k : Fin 8 := Fin.ofNat 8 p.slot
    (s.slot p.tile k).run = .stopped → (s.slot p.tile k).rupds = [] → (s.slot p.tile k).errOut = [] →
    ∃ t, Happens .unitEnd s t ∧ t.mgr.ends = rest ∧ t.slot p.tile k = Slot.reset ∧
      (∀ q ∈ t.mgr.procs, ¬(q.netid = r.netid ∧ r.pid = some q.pid)) ∧
      ∀ q ∈ s.mgr.procs, ¬(q.netid = r.netid ∧ r.pid = some q.pid) → q ∈ t.mgr.procs

/-- R63, R66, R70, R243, R445: partitions, their tenants, and halting a slot from outside. Rests on the model's choices of assumption log 11, 19, 20, 46. -/
def Obligations.Partitions : Prop :=
  TenantChecked ∧ ManagePartitions ∧ HaltAndResume

/-- R70, R441: MAP of a page the tables can take makes it the PID's mapping; UNMAP of a mapped page that is not migrating takes it
away; REBIND of a quiet channel's end within a tile moves it to another process's port; READ of an object writes its
bytes to host memory and gives their number.
Rests on the model's choices of assumption log 19, 25. -/
def Obligations.ManageMappings : Prop :=
  ∀ (s : State) (m : HMsg),
    (∀ p, ManageHead s m 4 32 [11, 12, 13, 14, 15] false → s.part m.tnt = some p →
      let leaf : Word := BitVec.ofNat 64 (m.u 24 8)
      leafOperand leaf (m.u 10 1) = true → m.u 16 8 < 2 ^ 57 → m.u 16 8 % 2 ^ pageBits (m.u 10 1) = 0 →
      s.mapOk p (m.u 8 2) (m.u 16 8) (m.u 10 1) leaf = true → s.migOf m.tnt (m.u 8 2) (m.u 16 8) = none →
      (s.mapPage m.tnt (m.u 8 2) (m.u 16 8) (m.u 10 1) leaf).isSome = true →
      ∃ t q g, Happens .manageMap s t ∧ Acked s t m 0 0 0 1 ∧ t.part m.tnt = some q ∧ g ∈ q.maps ∧ g.pid = m.u 8 2 ∧
        g.va = m.u 16 8 ∧ g.level = m.u 10 1) ∧
    (∀ p, ManageHead s m 5 24 [10, 11, 12, 13, 14, 15] false → s.part m.tnt = some p →
      (∃ g ∈ p.maps, g.pid = m.u 8 2 ∧ g.va = m.u 16 8) → s.migOf m.tnt (m.u 8 2) (m.u 16 8) = none →
      ∃ t q, Happens .manageUnmap s t ∧ Acked s t m 0 0 0 1 ∧ t.part m.tnt = some q ∧
        ∀ g, g ∈ q.maps ↔ g ∈ p.maps ∧ ¬(g.pid = m.u 8 2 ∧ g.va = m.u 16 8)) ∧
    (∀ n c p k i e, ManageHead s m 6 21 [17] false → s.net (m.u 8 4) = some n → n.tnt = m.tnt →
      n.chans.find? (fun x => x.id == m.u 12 4) = some c → m.u 16 1 = 0 → c.prod ≠ 0xFFFF →
      s.mgr.procs.find? (fun x => x.netid == m.u 8 4 && x.idx == m.u 18 2) = some p → s.homeSlot p = some k → m.u 20 1 < 16 →
      s.portEnd p.tile k (BitVec.ofNat 4 (m.u 20 1)) = none → s.findEnd (m.u 8 4) (m.u 12 4) true = some (p.tile, i, .send e) →
      s.quietChan (m.u 8 4) (m.u 12 4) = true →
      ∃ t f, Happens .manageRebind s t ∧ Acked s t m 0 0 0 1 ∧ mapFind (t.tile p.tile).ends i = some (.send f) ∧ f.pid = p.pid ∧
        f.port = m.u 20 1 ∧ f.slot = k.val ∧ f.credits = e.credits ∧ f.nextSeq = e.nextSeq ∧ f.peer = e.peer) ∧
    (∀ b, Head s m 5 24 [2, 3, 4, 5, 6, 7, 9, 12, 13, 14, 15] → m.u 0 2 = 7 → m.tnt = 0 →
      s.readObject (m.u 8 1) (m.u 10 2) 0 = some b →
      (∀ x, m.u 16 8 ≤ x → x < m.u 16 8 + b.length → ¬(s.mgr.rcAt.toNat ≤ x ∧ x < s.mgr.rcAt.toNat + 0x8040) ∧
        ¬(s.mgr.scAt.toNat + 8 ≤ x ∧ x < s.mgr.scAt.toNat + 16)) →
      ∃ t, Happens .manageRead s t ∧ Acked s t m 0 0 b.length 1 ∧ DeviceKept s t ∧ Mem.readBytes t.host (m.u 16 8) b.length = b)

/-- R65, R67, R69, R361, R475, R503: a LAUNCH the manager accepts adds the network and its processes; ABORT of a network whose slots
have stopped ends it, with its report; CAPTURE_START opens a window at each of a network's tiles and CAPTURE_STOP closes
it; ATTEST writes the log, A and the nonce; a message held back goes out when there is room, and with its ACK a message in
hand is taken; while one is in hand, or the return channel is full, none is handled.
Rests on the model's choices of assumption log 20, 27. -/
def Obligations.HostRequests : Prop :=
  ∀ (s : State) (m : HMsg),
    (∀ r netid v, Head s m 1 24 [9, 10, 11, 18, 19, 20, 21, 22, 23] → needPart s m = true →
      s.launchRequest m = .done r netid v →
      ∃ t ps n, Happens .launch s t ∧ Finished s t ∧ netid = s.mgr.nextNet ∧ t.mgr.nextNet = s.mgr.nextNet + 1 ∧
        n ∈ t.mgr.nets ∧ n.netid = netid ∧ n.tnt = m.tnt ∧ t.mgr.procs = s.mgr.procs ++ ps ∧ ps.length = n.nproc ∧
        ∀ p ∈ ps, p.netid = netid ∧ p.tnt = m.tnt ∧ p.pid = n.pidBase + p.idx) ∧
    (∀ n, Head s m 2 4 [] → needPart s m = true → s.net (m.u 0 4) = some n → n.tnt = m.tnt → m.u 0 4 ≠ 0xFFFFFFFF →
      (∀ p ∈ s.mgr.procs, p.netid = m.u 0 4 → (s.slot p.tile p.k).run = .stopped ∧ (s.slot p.tile p.k).rupds = [] ∧
        (s.slot p.tile p.k).errOut = []) →
      ∃ t, Happens .abort s t ∧ Finished s t ∧
        t.net (m.u 0 4) = none ∧ (∀ p ∈ t.mgr.procs, p.netid ≠ m.u 0 4)) ∧
    (∀ n, Head s m 3 20 [] → needPart s m = true → s.net (m.u 0 4) = some n → n.tnt = m.tnt → m.resUsed [5, 6, 7] = false →
      m.u 4 1 % 2 = 0 → m.u 4 1 < 16 → m.u 16 4 ≠ 0 → m.u 16 4 % 4096 = 0 → bits (BitVec.ofNat 64 (m.u 8 8)) 63 57 = 0x40 →
      (∀ u, bit (s.tile u).trctl 0 = false) →
      ∃ t, Happens .captureStart s t ∧ Acked s t m 0 0 0 1 ∧ ∀ p ∈ s.mgr.procs, p.netid = m.u 0 4 →
        (t.tile p.tile).trctl = BitVec.ofNat 4 (1 + m.u 4 1) ∧ (t.tile p.tile).trace.netid = m.u 0 4) ∧
    (∀ n, Head s m 4 4 [] → needPart s m = true → s.net (m.u 0 4) = some n → n.tnt = m.tnt →
      s.cannotDrain (s.windowTiles (m.u 0 4)) = false →
      ∃ t, Happens .captureStop s t ∧ Finished s t ∧
        ∀ u, u ∈ s.windowTiles (m.u 0 4) → bit (t.tile u).trctl 0 = false) ∧
    (Head s m 7 40 [] → m.tnt = 0 →
      let body := s.dev.logBytes ++ toBytes 64 s.dev.attReg.toNat ++ (m.pay.drop 8).take 32
      let all := body ++ Config.sign (Config.sha3 body)
      (∀ x, m.u 0 8 ≤ x → x < m.u 0 8 + all.length → ¬(s.mgr.rcAt.toNat ≤ x ∧ x < s.mgr.rcAt.toNat + 0x8040) ∧
        ¬(s.mgr.scAt.toNat + 8 ≤ x ∧ x < s.mgr.scAt.toNat + 16)) →
      ∃ t, Happens .attest s t ∧ Finished s t ∧ DeviceKept s t ∧ t.dev = s.dev ∧
        Mem.readBytes t.host (m.u 0 8) all.length = all) ∧
    (∀ x l, s.dev.railUp = true → s.mgr.out = x :: l → s.hostRoom = true →
      ∃ t, Happens .returnChannelRoom s t ∧ t.mgr.out = l ∧ t.mgr.sent = s.mgr.sent + 1 ∧ DeviceKept s t ∧ t.mgr.acking = s.mgr.acking - 1 ∧
        (s.mgr.acking ≠ 1 → t.mgr.taken = s.mgr.taken) ∧ (s.mgr.acking = 1 → s.mgr.ahead = [] → t.mgr.taken = s.mgr.taken + 1)) ∧
    (∀ i kind op, TenantRow i kind op → s.dev.railUp = true → s.mayHandle = false → Happens i s s)

/-- R55-R58, R60, R73: an answer is taken once and ends its request. A refused translation leaves the page of a copy's source as not there; a
refused growth ends the network in DEADLOCK; a refused reel request is answered NOSPACE; an approved link goes one rate
step up; a decode answer is kept for the LAUNCH; a volta's target is handed to the MIGRATE.
Rests on the model's choices of assumption log 3, 39, 56. -/
def Obligations.AssistAnswers : Prop :=
  ∀ (s : State) (m : HMsg) a,
    (∀ n k va pid c, Answer s m a 0 0 → a.what = .element n k va pid → (s.slot n k).pid.toNat = pid →
      (s.slot n k).pend = .copy c → c.asked = true → ∃ t, Happens .assistAnswerTranslation s t ∧ Answered s t a ∧
        (t.slot n k).pend = .copy { c with asked := false, denied := va / 2 ^ 16 :: c.denied } ∧ t.dram = s.dram) ∧
    (∀ n k best cap low netid es x, Answer s m a 1 0 → a.what = .growth n k best cap low netid es → s.net netid = some x →
      ∃ t r, Happens .assistAnswerGrowth s t ∧ Answered s t a ∧ t.mgr.ends = s.mgr.ends ++ [r] ∧ r.netid = netid ∧
        r.cause = 0x11 ∧ r.fault = true ∧ r.eval = BitVec.ofNat 64 (low % 2 ^ 24 + n % 2 ^ 16 * 2 ^ 32)) ∧
    (∀ n q, Answer s m a 2 0 → a.what = .reel n → n < 32 → (s.reelSt n).asked.find? (fun z => z.1 == a.tag.toNat) = some q →
      ∃ t, Happens .assistAnswerReel s t ∧ Answered s t a ∧ (∀ z ∈ (t.reelSt n).asked, z.1 ≠ q.1) ∧
        StationSent s t n (msgWord q.2 3 % 8192) (msgWord q.2 4 % 8) 7
          [4, 0, 0, BitVec.ofNat 64 (msgWord q.2 0 % 2 ^ 32)]) ∧
    (∀ n, Answer s m a 3 1 → a.what = .link n → 0 < (s.link n).step.toNat →
      ∃ t, Happens .assistAnswerLink s t ∧ Answered s t a ∧ (t.link n).step.toNat = (s.link n).step.toNat - 1) ∧
    (Answer s m a 4 0 → ∃ t, Happens .assistAnswerDecode s t ∧ Answered s t a ∧ t.mgr.decodeAns = some []) ∧
    (∀ n k, Answer s m a 5 1 → a.what = .migration n k → (s.slot n k).pend = .volta a.tag.toNat none →
      ∃ t, Happens .assistAnswerMigration s t ∧ Answered s t a ∧ (t.slot n k).pend = .volta a.tag.toNat (some (m.u 8 2)))

/-- R494, R495, R498, R499, R501: throttling, the resets, boot, and a package whose core rail is down. Rests on the model's choices of assumption log 3, 40. -/
def Obligations.ResetsAndThrottles : Prop :=
  Throttling ∧ ResetAndBoot ∧ RailDownStops

/-- R57, R398, R465: a lane below its threshold drops its link one step, and a second of clean margin raises it one, in hardware mode; a
link trained again delivers what it held; a flit that fails its check is retried three times on each link, the Sorcel
link too, and then dropped; a fragment
of a tenant with no partition is dropped at every router, and one of tenant 0, one at a router of its tenant's own rectangle, and
one at an edge station's router or a lane group whose tenant holds a partition pass.
Rests on the model's choices of assumption log 22, 23, 45. -/
def Obligations.LinkEvents : Prop :=
  ∀ (s : State) n, s.dev.railUp = true → n < 324 →
    (∀ lane (mg : BitVec 8), mg.toNat < Config.marginThreshold n → (s.link n).step.toNat < 3 → s.linkAssisted = false →
      ∃ t, Happens (.linkStepDown n lane mg) s t ∧ (t.link n).step.toNat = (s.link n).step.toNat + 1 ∧
        (t.link n).downs = (s.link n).downs + 1 ∧ RegsAll s t ∧ MemAll s t) ∧
    (∀ w, (s.link n).cleanSince = some w → s.linkAssisted = false → w + 10 ^ 9 * Config.tickUnits ≤ s.units →
      0 < (s.link n).step.toNat → ∃ t, Happens (.linkStepUp n) s t ∧ (t.link n).step.toNat + 1 = (s.link n).step.toNat ∧
        (t.link n).ups = (s.link n).ups + 1 ∧ RegsAll s t ∧ MemAll s t) ∧
    (∀ w, (s.link n).retrain = some w → ∃ t, Happens (.retrainComplete n) s t ∧ (t.link n).retrain = none ∧
      (t.link n).heldFlits = [] ∧ t.wire = s.wire ++ (s.link n).heldFlits ∧ RegsAll s t ∧ MemAll s t) ∧
    (∀ i f m, s.wire[i]? = some f → m = n ∨ m = 324 → let k := if f.link = m then f.retries else 0
      (k < 3 → ∃ t g, Happens (.linkFlitRetry i m) s t ∧ t.wire[i]? = some g ∧ g.retries = k + 1 ∧ g.link = m ∧ g.hdr = f.hdr ∧
        t.wire.length = s.wire.length ∧ (m = n → (t.link n).retries = (s.link n).retries + 1) ∧ RegsAll s t ∧ MemAll s t) ∧
      (3 ≤ k → ∃ t, Happens (.linkFlitRetry i m) s t ∧ t.wire = s.wire.eraseIdx i ∧ RegsAll s t ∧ MemAll s t)) ∧
    ∀ i f e, s.wire[i]? = some f →
      (f.hdr.tnt = 0 → Happens (.routerFragment i e) s s) ∧
      (∀ p ∈ s.mgr.parts, p.tnt = f.hdr.tnt → (e.kind = .edge ∨ e.kind = .port ∨
        ∃ x y, s.posOf e = some (x, y) ∧ p.holds x y = true) → Happens (.routerFragment i e) s s) ∧
      (f.hdr.tnt ≠ 0 → (∀ p ∈ s.mgr.parts, p.tnt ≠ f.hdr.tnt) → ∃ t, Happens (.routerFragment i e) s t ∧
        t.wire.length + 1 = s.wire.length ∧ RegsAll s t ∧ MemAll s t)

/-- R441, R442: PAGE_MIGRATION freezes a page that is not migrating and marks its entry; MIGRATION_COPY of a frozen DRAM page switches
the entry to the new page, which holds the same bytes; after its time MIGRATION_COMPLETE ends the migration.
Rests on the model's choices of assumption log 19. -/
def Obligations.PageMigrations : Prop :=
  ∀ (s : State), s.dev.railUp = true →
    (∀ tnt pid va st l p, s.walk tnt pid va = .leaf l → s.migOf tnt pid va = none → va = pageBase l.level va → st < 16 → l.tgt = 0 →
      s.findDram st (2 ^ pageBits l.level) = some p →
      ∃ t g, Happens (.pageMigration tnt pid va st) s t ∧ t.mgr.migs = s.mgr.migs ++ [g] ∧ g.tnt = tnt ∧ g.pid = pid ∧ g.va = va ∧
        g.state = .frozen ∧ g.newPa = p ∧ g.newHome = st / 2 ∧
        Mem.load t.dram l.at' 8 = (setBit l.raw 7 true).toNat ∧
        (∀ b, ¬(l.at' ≤ b ∧ b < l.at' + 8) → Mem.read t.dram b = Mem.read s.dram b) ∧ RegsAll s t) ∧
    (∀ i g l, Mem.wf s.dram = true → s.mgr.migs[i]? = some g → g.state = .frozen → g.queue = [] → s.walk g.tnt g.pid g.va = .leaf l → l.tgt = 0 →
      (g.newPa + 2 ^ pageBits l.level ≤ l.pa ∨ l.pa + 2 ^ pageBits l.level ≤ g.newPa) →
      (∀ a n, (a, n) = (g.newPa, 2 ^ pageBits l.level) ∨ (a, n) = (l.pa, 2 ^ pageBits l.level) → overlaps a n l.at' 8 = false) →
      ∃ t h, Happens (.migrationCopy i) s t ∧ t.mgr.migs[i]? = some h ∧ h.state = .switched ∧ h.since = s.time ∧
        (∀ z, z < 2 ^ pageBits l.level → Mem.read t.dram (g.newPa + z) = Mem.read s.dram (l.pa + z)) ∧
        Mem.load t.dram l.at' 8 = (l.moved g.newPa g.newHome true).toNat ∧ RegsAll s t) ∧
    ∀ i g, s.mgr.migs[i]? = some g → g.state = .switched → g.since + 2 ^ 24 ≤ s.time →
      ∃ t, Happens (.migrationComplete i) s t ∧ t.mgr.migs = s.mgr.migs.eraseIdx i ∧ RegsAll s t ∧
        ∀ l, s.walk g.tnt g.pid g.va = .leaf l → Mem.load t.dram l.at' 8 = (setBit l.raw 7 false).toNat

/-- R241, R450, R453, R468, R471: a forwarding entry whose time has come leaves its tile; a pending GAP enters when there is room, with a
TIME behind it; a TIME enters when TS wraps in an open window; a line drains to the ring and HEAD counts it, once the host
has been asked for a missing page of it where the partition delegates misses; an order of
the manager makes MGP pending; a decode table is loaded only at a tile whose slots are all stopped or empty.
Rests on the model's choices of assumption log 3, 53, 60. -/
def Obligations.TileUpkeep : Prop :=
  ∀ (s : State) n, s.dev.railUp = true → n < 8192 →
    let tr := (s.tile n).trace
    (∀ f, (s.tile n).forward = some f → (f.expiry ≤ s.time → ∃ t, Happens (.forwardingExpiry n) s t ∧ (t.tile n).forward = none ∧
        OnlyTile s t n ∧ RegsAll s t ∧ MemAll s t) ∧ (s.time < f.expiry → Happens (.forwardingExpiry n) s s)) ∧
    (0 < tr.gap → tr.fifo.length < 255 → tr.heldCaps = [] →
       ∃ t a b, Happens (.gapRecord n) s t ∧ (t.tile n).trace.gap = 0 ∧ (t.tile n).trace.fifo = tr.fifo ++ [a, b] ∧
        bits a 15 12 = 5 ∧ bits a 95 64 = Min.min tr.gap (2 ^ 32 - 1) ∧ bits b 15 12 = 4 ∧ OnlyTile s t n) ∧
    (bit (s.tile n).trctl 0 = true → tr.lastWrap < s.time / 2 ^ 40 → ∃ t, Happens (.tsWrap n) s t ∧
      (t.tile n).trace.lastWrap = s.time / 2 ^ 40 ∧ RegsAll s t ∧ MemAll s t) ∧
    (4 ≤ tr.fifo.length → s.lineFrozen n = false → tr.heldCaps = [] → tr.lineAt % 65536 + 64 ≤ 65536 →
      (∃ l, s.farCheck tr.tnt 0 tr.lineAt false true = .ok l) → s.drainMisses n 1 = [] →
      ∃ t, Happens (.traceDrain n) s t ∧ (t.tile n).trace.fifo = tr.fifo.drop 4 ∧ (t.tile n).trace.head = tr.head + 64 ∧
        (t.tile n).trace.dropped = tr.dropped) ∧
    (∀ va l, 4 ≤ tr.fifo.length → s.lineFrozen n = false → s.drainMisses n 1 = va :: l → tr.asking = false →
      ∃ t a, Happens (.traceDrain n) s t ∧ t.mgr.assists = s.mgr.assists ++ [a] ∧ a.func = 0 ∧ a.what = .drain n va ∧
        (t.tile n).trace.fifo = tr.fifo ∧ (t.tile n).trace.asking = true) ∧
    (∀ u p, s.freeFor n u = true → bit (s.assistBits (((s.partOf n).map (·.tnt)).getD 0)) 5 = true → p ∈ s.mgr.procs → p.tile = n →
      ∃ t, Happens (.voltaOrder n u) s t ∧ (t.tile n).voltaTarget = u ∧
        bit (t.slot n (s.tile n).supSlot).status 49 = true ∧ OnlyTile s t n) ∧
    (Config.imageSigned Config.decodeImage = true → (∀ k : Fin 8, (s.slot n k).run = .stopped ∨ (s.slot n k).run = .empty) →
      Config.imageSound Config.decodeImage = true → ∃ t, Happens (.decodeTableUpdate n) s t ∧
        (t.tile n).decTable.image = Config.decodeImage ∧ (t.tile n).decTable.failed = false ∧
        (∀ k : Fin 8, (s.slot n k).run = .stopped → s.mgr.ends = [] → (t.slot n k).run = .running) ∧ OnlyTile s t n) ∧
    (∀ k : Fin 8, (s.slot n k).run = .running → Happens (.decodeTableUpdate n) s s)

/-- R106, R234, R366, R369, R370, R372, R373, R395: fragments at their end, and what comes due there. Rests on the model's choices of assumption log 9, 12, 14, 34, 44, 45. -/
def Obligations.Fragments : Prop :=
  FragmentArrives ∧ FragmentDeadlines ∧ OneLossRebuilt

/-- R374, R376, R377, R489: a shadow entry whose timer has passed sends its message again whole, with the next attempt's parity rows, up to
RETRY_LIMIT times, and is then a loss, which an errand's issuer reads as completion status 0x13; DONE frees the entry,
or marks one already filed as lost, and draws a RELEASE, which clears the filter; a NACK draws what its map lacks, or a longer timer.
Rests on the model's choices of assumption log 9, 12, 13, 14, 44, 57. -/
def Obligations.SendShadow : Prop :=
  ∀ (s : State) (e : Ep) i, s.dev.railUp = true → e.kind ≠ .port →
    (∀ x d, (s.fab e).shadow[i]? = some x → x.timer = some d → d ≤ s.units →
      (x.resends < s.retryLimit e → ∃ t, Happens (.shadowTimerExpiry e i) s t ∧
        let h := { x.msg.hdr with attempt := x.attempt + 1 }
        (t.fab e).shadow = (s.fab e).shadow.set i
          { x with msg := { x.msg with hdr := h }, attempt := h.attempt, resends := x.resends + 1,
                   timer := some (s.units + 4 * s.deadline e) } ∧
        t.wire = s.wire ++ mkFrags h x.msg.payload (List.range (dataCount h.len))
          ((List.range h.m).map fun j => ((x.attempt + 1) * h.m + j) % 4) ∧ RegsAll s t ∧ MemAll s t) ∧
      (∀ u o, (∀ y ∈ (s.fab e).shadow, y.unsent = none) → s.retryLimit e ≤ x.resends → x.msg.hdr.cls = clsERRAND → x.msg.hdr.src = ⟨.tile, u⟩ →
        let k : Fin 8 := Fin.ofNat 8 x.msg.hdr.slot
        (s.slot u k).run = .running → (s.slot u k).errOut = [o] → o.tag.toNat = x.msg.hdr.seq → o.wait = true →
        (∀ j : Fin 16, (s.slot u k).comps[j].valid = false) →
        ∃ t, Happens (.shadowTimerExpiry e i) s t ∧ (t.fab e).shadow = (s.fab e).shadow.eraseIdx i ∧ Counted s t e ctrLOSS ∧
          (t.slot u k).errOut = [] ∧ (t.slot u k).comps[(0 : Fin 16)].valid = true ∧
          (t.slot u k).comps[(0 : Fin 16)].tag = o.tag ∧ (t.slot u k).comps[(0 : Fin 16)].status = 0x13 ∧ t.wire = s.wire)) ∧
    ∀ m, Inbox s e i m →
      (∀ j x, m.hdr.cls = clsCONTROL → bits m.hdr.arg 7 0 = 2 → bits m.hdr.arg 15 8 = 0 → (s.fab e).findShadow (ackOf m) = some j →
        (s.fab e).shadow[j]? = some x → x.credits = 0 → x.done = false →
        (∀ y ∈ (s.fab e).shadow, y.unsent = none) → ∃ t, Happens (.done e i) s t ∧
          (t.fab e).inbox = (s.fab e).inbox.eraseIdx i ∧ (t.fab e).shadow = (if x.lost
            then (s.fab e).shadow.set j { x with done := true, timer := none } else (s.fab e).shadow.eraseIdx j) ∧
          AckSent s t e m.hdr.src clsCONTROL (fun q => bits q 7 0 = 3) ∧ RegsAll s t ∧ MemAll s t) ∧
      (m.hdr.cls = clsCONTROL → bits m.hdr.arg 7 0 = 3 → (s.fab e).bufs = [] → (s.fab e).held = [] →
        ∃ t, Happens (.release e i) s t ∧ (t.fab e).inbox = (s.fab e).inbox.eraseIdx i ∧ t.wire = s.wire ∧
          (t.fab e).filter = (s.fab e).filter.filter (fun g => !sameIdent g.hdr (ackOf m)) ∧
          ((∃ g ∈ (s.fab e).filter, sameIdent g.hdr (ackOf m) = true ∧ g.status ≠ .lost) ∨ (∃ z ∈ (s.fab e).tails, z.uid = (ackOf m).uid) →
            ∃ z ∈ (t.fab e).tails, z.uid = (ackOf m).uid ∧ z.till = s.units + s.filterLife e) ∧
          ((∀ g ∈ (s.fab e).filter, sameIdent g.hdr (ackOf m) = true → g.status = .lost) → (∀ z ∈ (s.fab e).tails, z.uid ≠ (ackOf m).uid) →
            (t.fab e).tails = (s.fab e).tails) ∧ RegsAll s t ∧ MemAll s t) ∧
      (m.hdr.cls = clsNACK → (s.fab e).findShadow (ackOf m) = none → ∃ t, Happens (.nack e i) s t ∧
        AckSent s t e m.hdr.src clsCONTROL (fun q => bits q 7 0 = 3) ∧ (t.fab e).shadow = (s.fab e).shadow) ∧
      ∀ j x, m.hdr.cls = clsNACK → (s.fab e).findShadow (ackOf m) = some j → (s.fab e).shadow[j]? = some x → x.done = false →
        x.lost = false → (ackOf m).attempt = min x.attempt 3 → bit m.hdr.arg 20 = false →
        (bit m.hdr.arg 21 = true → ∃ t, Happens (.nack e i) s t ∧ t.wire = s.wire ∧ (t.fab e).shadow =
          (s.fab e).shadow.set j { x with timer := some (s.units + 4 * s.deadline e) } ∧ RegsAll s t ∧ MemAll s t) ∧
        (bit m.hdr.arg 21 = false → x.resends < s.retryLimit e → ∃ t y, Happens (.nack e i) s t ∧
          (t.fab e).shadow[j]? = some y ∧ y.resends = x.resends + 1 ∧ y.attempt = x.attempt + 1 ∧
          t.wire = s.wire ++ mkFrags { x.msg.hdr with attempt := x.attempt + 1 } x.msg.payload
            ((List.range (dataCount x.msg.hdr.len)).filter fun k => !(bits m.hdr.arg 19 0).testBit k)
            (((List.range 4).filter fun r => !(bits m.hdr.arg 19 0).testBit (16 + r)).take x.msg.hdr.m) ∧
          RegsAll s t ∧ MemAll s t)

/-- R369, R107: byte b of parity row j is the XOR over the data fragments of C[j][i] times byte b of fragment i, in GF(2^8), and C[j][i]
is INV[j XOR i], the inverse of (16 + j) XOR i. -/
def Obligations.ParityBytes : Prop :=
  (∀ (payload : List Byte) j b, j < 4 → b < 32 →
    let k := dataCount payload.length
    ((parityRow j ((List.range k).map (dataFrag payload))).getD b 0).toNat =
      (List.range k).foldl (fun p i => p ^^^ gfMul (codeCoef j i) ((dataFrag payload i).getD b 0).toNat) 0) ∧
  ∀ j i, j < 4 → i < 16 →
    codeCoef j i = [0xD8, 0x72, 0xC0, 0x58, 0xE0, 0x3E, 0x4C, 0x66, 0x90, 0xDE, 0x55, 0x80, 0xA0, 0x83, 0x4B, 0x2A].getD (j ^^^ i) 0 ∧
    codeCoef j i = gfInv ((16 + j) ^^^ i) ∧ (16 + j) ^^^ i = 0x10 + (j ^^^ i) ∧ gfMul (codeCoef j i) ((16 + j) ^^^ i) = 1

/-- R329, R331, R340, R350, R351, R352, R375, R480: the messages of a channel at its ends, and its growth. Rests on the model's choices of assumption log 9, 24, 28, 43. -/
def Obligations.ChannelUpkeep : Prop :=
  ChannelMessages ∧ ChannelsGrow

/-- R379, R380, R396, R397, R381, R390: a COPY message that carries bytes for a place below code memory is written there, active
elements and wholly active blocks only, each converted, or raw, or combined with what stands there by a reducing one in its
turn, and accepted; one past it, or past its scratchpad page, or that its place's format refuses, is refused and logged and writes nothing; a
reducing one waits its turn in the executor; at the home of its page a FAR = 1 message is written to DRAM; the home's
report counts in the sync word it names.
Rests on the model's choices of assumption log 9, 44. -/
def Obligations.CopyMessages : Prop :=
  (∀ (s : State) u i m, s.dev.railUp = true → u < 8192 → Inbox s ⟨.tile, u⟩ i m →
    let a := CopyArg.ofBits m.hdr.arg
    let f := ((s.tile u).bankFmt a.doff).getD (vtFmt m.hdr.vt)
    let n := carriedElems a m.payload
    let last := f.stripEnd a.doff n m.hdr.act
    let why := stripRefusal f a.doff n a.rop (rawCopy a)
    (m.hdr.cls = clsCOPY → a.far = false → CopyTurn s ⟨.tile, u⟩ m →
      (why = none → a.doff < 0xD0000 → last ≤ 0xD0000 → (m.hdr.lim = 0 ∨ last ≤ m.hdr.lim) → (a.rop < 7 → (s.tile u).errs = 0) →
        (∀ o, a.sync = some o → o + 16 ≤ 0xD0000 ∧ (s.tile u).watch = []) → ∃ t, Happens (.copy ⟨.tile, u⟩ i) s t ∧
        (∀ w b, ¬(w = u ∧ ∃ o, a.sync = some o ∧ o ≤ b ∧ b < o + 16) → Mem.read (t.tile w).mem b =
          if w = u then (landsAt a f a.doff m.hdr.act m.payload (Mem.load (s.tile u).mem) b).getD (Mem.read (s.tile u).mem b)
          else Mem.read (s.tile w).mem b) ∧
        (∀ b, Mem.read t.dram b = Mem.read s.dram b) ∧ (∀ b, Mem.read t.host b = Mem.read s.host b) ∧
        (a.rop < 7 → (t.tile u).execQ = []) ∧ AckSent s t ⟨.tile, u⟩ m.hdr.sender clsCONTROL (fun q => bits q 7 0 = 2 ∧ bits q 15 8 = 0) ∧ RegsAll s t) ∧
      (∀ reason, ((0xD0000 ≤ a.doff ∨ 0xD0000 < last) ∧ reason = 0x21) ∨
          (a.doff < 0xD0000 ∧ last ≤ 0xD0000 ∧ m.hdr.lim ≠ 0 ∧ m.hdr.lim < last ∧ reason = 0x20) ∨
          (a.doff < 0xD0000 ∧ last ≤ 0xD0000 ∧ (m.hdr.lim = 0 ∨ last ≤ m.hdr.lim) ∧ why = some reason) →
        ∃ t, Happens (.copy ⟨.tile, u⟩ i) s t ∧ MemAll s t ∧ RegsAll s t ∧ (t.tile u).violCount = (s.tile u).violCount + 1 ∧
        AckSent s t ⟨.tile, u⟩ m.hdr.sender clsCONTROL (fun q => bits q 7 0 = 2 ∧ bits q 15 8 = 1 ∧ bits q 23 16 = reason))) ∧
    (∀ h r, m.hdr.cls = clsCOPY → a.rop < 7 → s.earlierPending ⟨.tile, u⟩ m.hdr = false → (s.fab ⟨.tile, u⟩).inbox = [m] →
      (s.tile u).execQ = h :: r → sameIdent h.msg.hdr m.hdr = false → ∃ t, Happens (.copy ⟨.tile, u⟩ i) s t ∧
      (t.tile u).execQ = (s.tile u).execQ ++ [.combine m] ∧ t.wire = s.wire ∧ RegsAll s t ∧ MemAll s t) ∧
    (m.hdr.cls = clsCONTROL → bits m.hdr.arg 7 0 = 7 → ∀ n off, m.payload = toBytes 8 n → n < 2 ^ 32 → off = 16 * bits m.hdr.arg 23 8 →
      off + 16 ≤ 0xD0000 → (s.tile u).watch = [] →
      ∃ t, Happens (.placed ⟨.tile, u⟩ i) s t ∧ OutsideKept s t u off 16 ∧ RegsAll s t ∧
        Advanced t u off (swTarget s u off) (swCount s u off) (swGen s u off) n)) ∧
  ∀ (s : State) n i m l, CopyHome s n i m l → CopyTurn s ⟨.edge, n⟩ m →
    let a := CopyArg.ofBits m.hdr.arg
    let f := vtFmt m.hdr.vt
    let img := m.payload.drop 8
    let pa := l.pa + copyVa m % 2 ^ pageBits l.level
    stripRefusal f 0 (carriedElems a img) a.rop (rawCopy a) = none → ∃ t, Happens (.copy ⟨.edge, n⟩ i) s t ∧
      (∀ b, Mem.read t.dram b = (landsAt a f pa m.hdr.act img (Mem.load s.dram) b).getD (Mem.read s.dram b)) ∧
      (∀ w b, Mem.read (t.tile w).mem b = Mem.read (s.tile w).mem b) ∧ (∀ b, Mem.read t.host b = Mem.read s.host b) ∧
      (a.sync = none → AckSent s t ⟨.edge, n⟩ m.hdr.sender clsCONTROL (fun q => bits q 7 0 = 2 ∧ bits q 15 8 = 0)) ∧ RegsAll s t

/-- R268, R271, R277, R278, R356, R440, R487: far requests at the home station, and the reply. Rests on the model's choices of assumption log 9, 16. -/
def Obligations.FarTraffic : Prop :=
  HomeRequests ∧ FarReplyArrives

/-- R357, R358, R359: a memory server performs READ, WRITE and ZERO on a DRAM page and queues one reply, its data the bytes of the page;
WRITE, to a page that does not hold its own tables, stores the request's bytes, ZERO zeros, and nothing else changes; of a WRITE not all of
which has come, the tokens that have are taken as its own; a malformed request answers BAD_REQUEST and ends the pair.
Rests on the model's choices of assumption log 17. -/
def Obligations.MemoryServer : Prop :=
  ∀ (s : State) n j p len va l, s.dramErrs = [] → s.dramPoison = [] →
    let e : Ep := ⟨.edge, n⟩
    let pa := l.pa + va % 2 ^ pageBits l.level
    let q := fun (t : State) => (t.edge n).pairs[j]?
    (Served s n j p 1 len va l → ∃ t p' h, Happens (.serverRead e j) s t ∧ q t = some p' ∧ p'.nextIn = p.nextIn + (4 - p.got.length) ∧ p'.got = [] ∧
      p'.out = [h ++ (List.range ((len + 7) / 8)).map fun k =>
        (BitVec.ofNat 64 (Mem.load s.dram (pa + 8 * k) (Min.min 8 (len - 8 * k))), false)] ∧ h.length = 2 ∧
      bits (h.headD (0, false)).1 39 32 = 0 ∧ RegsAll s t ∧ MemAll s t) ∧
    (∀ toks, Served s n j p 2 len va l → (∀ r, p.header = some r → p.data r = some toks) → (∀ x ∈ toks, x.2 = false) →
      (∀ m, (∀ b, ¬(pa ≤ b ∧ b < pa + len) → Mem.read m b = Mem.read s.dram b) → ({ s with dram := m } : State).walk p.tnt p.pid va = .leaf l) →
      ∃ t p' h, Happens (.serverWrite e j) s t ∧ q t = some p' ∧ p'.nextIn = p.nextIn + (4 + (len + 7) / 8 - p.got.length) ∧ p'.got = [] ∧ p'.out = [h] ∧
        h.length = 2 ∧ bits (h.headD (0, false)).1 39 32 = 0 ∧ RegsAll s t ∧ DramKept s t pa len ∧
        ∀ k, k < len → Mem.read t.dram (pa + k) = BitVec.ofNat 8 ((toks.getD (k / 8) (0, false)).1.toNat / 256 ^ (k % 8))) ∧
    (Served s n j p 3 len va l → ∃ t p' h, Happens (.serverZero e j) s t ∧ q t = some p' ∧ p'.nextIn = p.nextIn + (4 - p.got.length) ∧ p'.got = [] ∧
      p'.out = [h] ∧ h.length = 2 ∧ bits (h.headD (0, false)).1 39 32 = 0 ∧ RegsAll s t ∧ DramKept s t pa len ∧
      ∀ k, k < len → Mem.read t.dram (pa + k) = 0) ∧
    (∀ r x, s.dev.railUp = true → n < 256 → (s.edge n).pairs[j]? = some p → p.ended = false → p.asking = false →
      (p.got = [] → (s.edge n).serving < 64) → p.header = some r → r.malformed = false → r.op = 2 → p.data r = none →
      p.got.length < r.tokens → p.token p.got.length = some x →
      ∃ t p' new, Happens (.serverWrite e j) s t ∧ q t = some p' ∧ p'.got = p.got ++ x :: new ∧
        p'.nextIn = p.nextIn + 1 + new.length ∧ p'.returned = p.returned + 1 + new.length ∧ (∀ k, p'.token k = p.token k) ∧
        RegsAll s t ∧ MemAll s t) ∧
    ∀ r, s.dev.railUp = true → n < 256 → (s.edge n).pairs[j]? = some p → p.ended = false → p.asking = false →
      p.out = [] → p.credits = 0 → p.repGone = false → (p.got = [] → (s.edge n).serving < 64) → p.header = some r → r.malformed = true →
      ∃ t p', Happens (.serverRead e j) s t ∧ q t = some p' ∧ p'.ended = true ∧ RegsAll s t ∧ MemAll s t ∧
        ∃ h, h ∈ p'.out ∧ bits (h.headD (0, false)).1 39 32 = 5

/-- R345, R346, R349, R350, R353: deadlock probes launched, passed on and judged. Rests on the model's choices of assumption log 9, 32. -/
def Obligations.Probes : Prop :=
  ProbesLaunched ∧ ProbesArrive

/-- The machine right after reset: every register of R141, R233 and R234 holds the value of their reset columns, no port is bound, g0 reads
0 and takes no write, and memory lists nothing and is in its canonical form. The PC's value is the model's choice (assumption log 1), as are
what unlisted memory reads as (log 2) and TILEID before the boot flood (log 7).
Rests on the model's choices of assumption log 1, 2, 7. -/
def Obligations.ResetValues : Prop :=
  (∀ u (k : Fin 8), (∀ n, (State.reset.slot u k).getG n = 0) ∧ (∀ n, (State.reset.slot u k).getE n = 0) ∧
    (∀ c ∈ [0x000, 0x001, 0x002, 0x003, 0x004, 0x005, 0x006, 0x010, 0x011, 0x013, 0x020, 0x021, 0x022, 0x030, 0x031, 0x032, 0x034,
      0x035, 0x080, 0x0A0], State.reset.creg u k c = 0) ∧
    State.reset.creg u k 0x012 = 0xFFFFFFFFFFFFFFFF ∧ State.reset.creg u k 0x023 = 0xFFFFFFFFFFFFFFFF ∧
    State.reset.creg u k 0x014 = 0x0A ∧ State.reset.creg u k 0x033 = BitVec.ofNat 64 k.val ∧
    State.reset.creg u k 0x040 = 1 ∧ State.reset.creg u k 0x041 = 1 ∧ State.reset.creg u k 0x042 = 2 ∧
    State.reset.creg u k 0x043 = 3 ∧ State.reset.creg u k 0x090 = 4096 ∧ State.reset.creg u k 0x091 = 2048 ∧
    State.reset.creg u k 0x092 = 3 ∧ (∀ n, n < 16 → State.reset.creg u k (0x050 + n) = 0 ∧
      State.reset.creg u k (0x060 + n) = BitVec.ofNat 64 (n % 2) ∧ State.reset.creg u k (0x070 + n) = 0) ∧
    (∀ p, let s : State := { State.reset with cur := { tile := u, slot := k } }; s.recvAtPort p = none ∧ s.sendAtPort p = none) ∧
    (State.reset.slot u k).pc = 0xD0000 ∧ (State.reset.tile u).mem = []) ∧
  (∀ (x : Slot) v, x.getG 0 = 0 ∧ x.setG 0 v = x) ∧
  MemoryForm State.reset

/-- R26, R28, R29, R109, R110: where the bytes at a slot's PC decode to an instruction, a step that gives the slot its turn is that
instruction's execution in that slot; where the instruction issues in it, being over or having sent what it then waits for, the tile
notes the issue, and it does nothing in a cycle that is not the slot's to issue in; and one that accesses tile memory waits while
an update or errand frame of the slot may touch it. The agenda that names the turn is the model's own (assumption log 30), as is how far that wait reaches
(log 58).
Rests on the model's choices of assumption log 30, 58. -/
def Obligations.StepRunsDecoded : Prop :=
  ∀ (s : State) dt u (k : Fin 8) r i, s.agenda = .issue dt u k :: r →
    let s0 := s.atTurn dt u k r
    (s0.slot u k).run = .running → (k = (s0.tile u).supSlot → (s0.tile u).takesEvents = false) →
    CodeAt s0 u (s0.slot u k).pc i → s.dev.railUp = true →
    let out := exec i s0
    let issues := takesCycle (s0.slot u k) u k out
    (s0.memoryWaits u k i = false → step s =
      if issues = true ∧ s0.mayTake u k = false then .next s0
      else if issues = true then onNext (fun t => t.noteIssue u k) out else out) ∧
    (s0.memoryWaits u k i = true → step s = .next (s0.block .issue))

/-- R121, R123, R237, R112, R117: words that the manual spells out decode to the instructions they stand for. -/
def Obligations.SpelledWords : Prop :=
  decodeTableWord 32 0x1FFD8484 = some (.addi 0x1FFD 4 4) ∧ decodeTableWord 16 0x193F = some (.cAddi 4 0x3F) ∧
  decodeTableWord 16 0x193D = some (.cAddi 4 0x3D) ∧
  decodeTableWord 32 0x300080A5 = some (.add 6 5 5) ∧ decodeTableWord 16 0x393D = some (.cBnez 4 0x3D) ∧
  decodeTableWord 16 0x6000 = some .cNop ∧ decodeTableWord 32 0x1403B861 = some (.vfma 2 1 0 0 0 3 1) ∧
  decodeTableWord 32 0x0000ACA0 = some (.ctlr 0x000 5) ∧ decodeTableWord 32 0x2004AC06 = some (.ctlw 0x004 6) ∧
  decodeTableWord 32 0x6000AC07 = some (.ctlc 0x000 0 7) ∧ decodeTableWord 32 0x8400AC00 = some .rett

/-- R109, R112, R113, R115, R117, R120: decoding and encoding agree on every well-formed instruction, and decoding gives nothing else. -/
def Obligations.Encoding : Prop :=
  DecodeEncode ∧ DecodedIsWellFormed

/-- Every step keeps the canonical form of every memory. -/
def Obligations.MemoryStaysCanonical : Prop :=
  ∀ s t : State, MemoryForm s → step s = .next t → MemoryForm t

/-- R143, R238: a trap leaves every g and e register of every slot of every tile as it was, whether its handler runs, or
the trap is a double fault, or the default supervisor ends the process. -/
def Obligations.TrapsWriteNoRegister : Prop :=
  ∀ (s : State) (c : BitVec 8) (v a : Word) (tile : Nat) (slot : Fin 8) (n : BitVec 5) (m : BitVec 3),
    ((s.trapAt c v a).slot tile slot).getG n = (s.slot tile slot).getG n ∧
    ((s.trapAt c v a).slot tile slot).getE m = (s.slot tile slot).getE m

/-- R242: RETT at S or F with an EPC that passes CheckTarget puts SAVED into STATUS [8:0] and goes to EPC; SAVED, the
pending bits, CAUSE, EVAL, FMASK, the registers and memory are unchanged. With an EPC that fails, RETT itself takes the
fault; below S it raises PRIVILEGE. -/
def Obligations.ReturnFromTrap : Prop :=
  ∀ s, Ready s →
    (1 ≤ s.me.prv → s.myTile.checkTarget s.me.epc = none →
      ∃ t, exec .rett s = .next t ∧ bits t.me.status 8 0 = bits s.me.status 24 16 ∧
        bits t.me.status 63 9 = bits s.me.status 63 9 ∧ t.me.pc = s.me.epc ∧ t.me.epc = s.me.epc ∧
        t.me.cause = s.me.cause ∧ t.me.eval = s.me.eval ∧ t.me.run = .running ∧
        (∀ n, t.me.getG n = s.me.getG n) ∧ (∀ n, t.me.getE n = s.me.getE n) ∧ OnlyMe s t) ∧
    (∀ c v, 1 ≤ s.me.prv → s.myTile.checkTarget s.me.epc = some (c, v) →
      exec .rett s = .next (s.trapAt c v s.me.pc)) ∧
    (s.me.prv = 0 → exec .rett s = .next (s.trapAt 0x03 0x8400AC00 s.me.pc))

/-- R236, R234: what a CTL write of STATUS by a slot at each level changes. At P it changes PW and EOS alone; at S and F
also IE, TD and SAVED, SAVED.PRV only to a level no higher than the writer's; PRV, the pending bits and the reserved
fields never. -/
def Obligations.StatusWrite : Prop :=
  ∀ (s : State) i q (d a : BitVec 5), Ready s →
    (i = .ctlw 0x000 a ∧ q = s.g a ∧ d = 0) ∨ (i = .ctls 0x000 d a ∧ q = s.me.status ||| s.g a) ∨
      (i = .ctlc 0x000 d a ∧ q = s.me.status &&& ~~~ s.g a) →
    ∃ t, exec i s = .next t ∧
      bit t.me.status 0 = bit q 0 ∧ bit t.me.status 8 = bit q 8 ∧
      t.me.prv = s.me.prv ∧ bits t.me.status 63 25 = bits s.me.status 63 25 ∧
      bits t.me.status 15 9 = bits s.me.status 15 9 ∧ bits t.me.status 7 6 = bits s.me.status 7 6 ∧
      bit t.me.status 3 = bit s.me.status 3 ∧
      (s.me.prv = 0 → bits t.me.status 2 1 = bits s.me.status 2 1 ∧ bits t.me.status 24 16 = bits s.me.status 24 16) ∧
      (1 ≤ s.me.prv → bits t.me.status 2 1 = bits q 2 1 ∧ bits t.me.status 18 16 = bits q 18 16 ∧
        bit t.me.status 24 = bit q 24 ∧
        bits t.me.status 21 20 = (if s.me.prv < bits q 21 20 then bits s.me.status 21 20 else bits q 21 20)) ∧
      (∀ n, n ≠ d → t.me.getG n = s.me.getG n) ∧ (d ≠ 0 → t.me.getG d = s.me.status) ∧ t.me.pc = s.me.pc + 4 ∧ OnlyMe s t
end

