-- ==== Sys2Proof/Laws/Maps.lean ====
section
/-!
SUPPORT. Sorted maps: what a key reads after another key is written.
-/
namespace Sys2Proof.Machine

theorem mapGet_mapSet {α : Type} (d : α) (l : List (Nat × α)) (n k : Nat) (a : α) :
    mapGet d (mapSet l n a) k = if n = k then a else mapGet d l k := by
  induction l with
  | nil => simp only [mapSet, mapGet]
  | cons p r ih =>
    obtain ⟨j, b⟩ := p
    simp only [mapSet]
    by_cases h1 : n < j
    · simp [h1, mapGet]
    · by_cases h2 : n = j
      · subst h2
        by_cases h3 : n = k <;> simp [mapGet, h3]
      · simp only [h1, h2, if_false, mapGet, ih]
        by_cases h3 : j = k
        · simp [h3, show n ≠ k by omega]
        · simp [h3]

@[simp] theorem mapGet_mapSet_self {α : Type} (d : α) (l : List (Nat × α)) (n : Nat) (a : α) :
    mapGet d (mapSet l n a) n = a := by simp [mapGet_mapSet]

theorem mapGet_mapSet_ne {α : Type} (d : α) (l : List (Nat × α)) (n k : Nat) (a : α) (h : n ≠ k) :
    mapGet d (mapSet l n a) k = mapGet d l k := by simp [mapGet_mapSet, h]

@[simp] theorem mapSet_mapSet_self {α : Type} (l : List (Nat × α)) (n : Nat) (a b : α) :
    mapSet (mapSet l n a) n b = mapSet l n b := by
  induction l with
  | nil => simp [mapSet]
  | cons p r ih =>
    obtain ⟨j, c⟩ := p
    by_cases h1 : n < j
    · simp [mapSet, h1]
    · by_cases h2 : n = j
      · simp [mapSet, h2]
      · simp [mapSet, h1, h2, ih]

theorem mapFind_mapSet {α : Type} (l : List (Nat × α)) (n k : Nat) (a : α) :
    mapFind (mapSet l n a) k = if n = k then some a else mapFind l k := by
  induction l with
  | nil => simp only [mapSet, mapFind]
  | cons p r ih =>
    obtain ⟨j, b⟩ := p
    simp only [mapSet]
    by_cases h1 : n < j
    · simp [h1, mapFind]
    · by_cases h2 : n = j
      · subst h2
        by_cases h3 : n = k <;> simp [mapFind, h3]
      · simp only [h1, h2, if_false, mapFind, ih]
        by_cases h3 : j = k
        · simp [h3, show n ≠ k by omega]
        · simp [h3]

@[simp] theorem mapFind_mapSet_self {α : Type} (l : List (Nat × α)) (n : Nat) (a : α) :
    mapFind (mapSet l n a) n = some a := by simp [mapFind_mapSet]

theorem mapFind_mapErase {α : Type} (l : List (Nat × α)) (n k : Nat) :
    mapFind (mapErase l n) k = if n = k then none else mapFind l k := by
  induction l with
  | nil => simp [mapErase, mapFind]
  | cons p r ih =>
    obtain ⟨j, b⟩ := p
    simp only [mapErase] at ih
    by_cases h : j = n
    · subst h
      simp only [mapErase, List.filter_cons, bne_self_eq_false, Bool.false_eq_true, if_false, ih, mapFind]
      by_cases h2 : j = k <;> simp [h2]
    · have : (j != n) = true := by simpa using h
      simp only [mapErase, List.filter_cons, this, if_true, mapFind, ih]
      by_cases h2 : j = k
      · simp [h2, show n ≠ k by omega]
      · simp [h2]

@[simp] theorem listSet_length {α : Type} (l : List α) (i : Nat) (a : α) : (listSet l i a).length = l.length := by
  induction l generalizing i with
  | nil => rfl
  | cons b r ih => cases i <;> simp [listSet, ih]

theorem listSet_getElem? {α : Type} (l : List α) (i j : Nat) (a : α) (h : i < l.length) :
    (listSet l i a)[j]? = if i = j then some a else l[j]? := by
  induction l generalizing i j with
  | nil => simp at h
  | cons b r ih =>
    cases i with
    | zero => cases j <;> simp [listSet]
    | succ i =>
      cases j with
      | zero => simp [listSet]
      | succ j => simpa [listSet] using ih i j (by simpa using h)

theorem listErase_length {α : Type} (l : List α) (i : Nat) (h : i < l.length) :
    (listErase l i).length + 1 = l.length := by
  induction l generalizing i with
  | nil => simp at h
  | cons b r ih =>
    cases i with
    | zero => simp [listErase]
    | succ i => simpa [listErase] using ih i (by simpa using h)

end Sys2Proof.Machine
end

