-- ==== Sys2Proof/Laws/Memory.lean ====
section
/-!
SUPPORT. Memory: what a byte reads after a write, and that every operation keeps the canonical form.
-/
namespace Sys2Proof.Machine

/-! ### Reads after writes -/

theorem Mem.read_insert (m : Memory) (a c : Nat) (b : Byte) :
    Mem.read (Mem.insert m a b) c = if a = c then b else Mem.read m c := by
  induction m with
  | nil => simp only [Mem.insert, Mem.read]
  | cons p r ih =>
    obtain ⟨k, d⟩ := p
    simp only [Mem.insert]
    by_cases h1 : a < k
    · simp [h1, Mem.read]
    · by_cases h2 : a = k
      · subst h2
        by_cases h3 : a = c <;> simp [Mem.read, h3]
      · simp only [h1, h2, if_false, Mem.read, ih]
        by_cases h3 : k = c
        · simp [h3, show a ≠ c by omega]
        · simp [h3]

theorem Mem.read_filter (m : Memory) (p : Nat → Bool) (c : Nat) :
    Mem.read (m.filter fun x => p x.1) c = if p c then Mem.read m c else 0 := by
  induction m with
  | nil => simp [Mem.read]
  | cons q r ih =>
    obtain ⟨k, d⟩ := q
    by_cases h : p k = true
    · simp only [List.filter_cons, h, if_true, Mem.read, ih]
      by_cases h2 : k = c
      · subst h2; simp [h]
      · simp [h2]
    · simp only [List.filter_cons, h, Bool.false_eq_true, if_false, Mem.read, ih]
      by_cases h2 : k = c
      · subst h2; simp [h]
      · simp [h2]

/-- A byte read after a byte is written. -/
theorem Mem.read_write (m : Memory) (a c : Nat) (b : Byte) :
    Mem.read (Mem.write m a b) c = if a = c then b else Mem.read m c := by
  unfold Mem.write
  by_cases h : b = 0
  · rw [if_pos h, Mem.read_filter m (fun k => k != a)]
    by_cases h2 : a = c
    · subst h2; simp [h]
    · have : c ≠ a := fun e => h2 e.symm
      simp [h2, this]
  · rw [if_neg h, Mem.read_insert]

/-- Bytes outside a written range read as before. -/
theorem Mem.read_writeBytes_outside (l : List Byte) (m : Memory) (a c : Nat) (h : c < a ∨ a + l.length ≤ c) :
    Mem.read (Mem.writeBytes m a l) c = Mem.read m c := by
  induction l generalizing m a with
  | nil => rfl
  | cons b r ih =>
    simp only [List.length_cons] at h
    rw [Mem.writeBytes, ih _ _ (by omega), Mem.read_write, if_neg (by omega)]

/-- Byte `i` of a written range. -/
theorem Mem.read_writeBytes (l : List Byte) (m : Memory) (a i : Nat) (h : i < l.length) :
    Mem.read (Mem.writeBytes m a l) (a + i) = l[i] := by
  induction l generalizing m a i with
  | nil => simp at h
  | cons b r ih =>
    rw [Mem.writeBytes]
    cases i with
    | zero =>
      rw [Mem.read_writeBytes_outside _ _ _ _ (by omega)]
      simp [Mem.read_write]
    | succ i =>
      have := ih (Mem.write m a b) (a + 1) i (by simpa using h)
      rw [show a + (i + 1) = a + 1 + i by omega, this]
      simp

@[simp] theorem toBytes_length (n v : Nat) : (toBytes n v).length = n := by
  induction n generalizing v with
  | zero => rfl
  | succ n ih => simp [toBytes, ih]

theorem Mem.read_store_outside (m : Memory) (a n v c : Nat) (h : c < a ∨ a + n ≤ c) :
    Mem.read (Mem.store m a n v) c = Mem.read m c := by
  unfold Mem.store
  exact Mem.read_writeBytes_outside _ _ _ _ (by simpa using h)

theorem ofBytes_toBytes (n v : Nat) : ofBytes (toBytes n v) = v % 256 ^ n := by
  induction n generalizing v with
  | zero => simp [toBytes, ofBytes, Nat.mod_one]
  | succ n ih =>
    simp only [toBytes, ofBytes, ih, BitVec.toNat_ofNat]
    rw [show (256 : Nat) ^ (n + 1) = 256 * 256 ^ n by ring, Nat.mod_mul]

theorem Mem.readBytes_eq (m m' : Memory) (a n : Nat) (h : ∀ i, i < n → Mem.read m (a + i) = Mem.read m' (a + i)) :
    Mem.readBytes m a n = Mem.readBytes m' a n := by
  induction n generalizing a with
  | zero => rfl
  | succ n ih =>
    simp only [Mem.readBytes]
    have h0 := h 0 (by omega)
    simp only [Nat.add_zero] at h0
    rw [h0, ih (a + 1) fun i hi => by
      have := h (i + 1) (by omega)
      rwa [show a + (i + 1) = a + 1 + i by omega] at this]

theorem Mem.readBytes_writeBytes (l : List Byte) (m : Memory) (a : Nat) :
    Mem.readBytes (Mem.writeBytes m a l) a l.length = l := by
  induction l generalizing m a with
  | nil => rfl
  | cons b r ih =>
    simp only [List.length_cons, Mem.readBytes, Mem.writeBytes]
    rw [ih, Mem.read_writeBytes_outside _ _ _ _ (by omega)]
    simp [Mem.read_write]

/-- A value stored and loaded again. -/
theorem Mem.load_store (m : Memory) (a n v : Nat) : Mem.load (Mem.store m a n v) a n = v % 256 ^ n := by
  unfold Mem.load Mem.store
  have := Mem.readBytes_writeBytes (toBytes n v) m a
  rw [toBytes_length] at this
  rw [this, ofBytes_toBytes]

/-! ### The canonical form -/

theorem Mem.wf_iff (m : Memory) :
    Mem.wf m = true ↔ m.Pairwise (fun x y => x.1 < y.1) ∧ ∀ c ∈ m, c.2 ≠ 0 := by
  induction m with
  | nil => simp [Mem.wf]
  | cons p r ih =>
    obtain ⟨a, b⟩ := p
    cases r with
    | nil => simp [Mem.wf]
    | cons q r =>
      obtain ⟨c, d⟩ := q
      simp only [Mem.wf, Bool.and_eq_true, bne_iff_ne, ne_eq, decide_eq_true_eq, ih]
      constructor
      · rintro ⟨⟨hb, hac⟩, hp, hn⟩
        refine ⟨List.pairwise_cons.2 ⟨?_, hp⟩, ?_⟩
        · intro x hx
          rcases List.mem_cons.1 hx with rfl | hx
          · exact hac
          · exact lt_trans hac ((List.pairwise_cons.1 hp).1 x hx)
        · intro x hx
          rcases List.mem_cons.1 hx with rfl | hx
          · exact hb
          · exact hn x hx
      · rintro ⟨hp, hn⟩
        obtain ⟨h1, h2⟩ := List.pairwise_cons.1 hp
        exact ⟨⟨hn (a, b) (by simp), h1 (c, d) (by simp)⟩, h2, fun x hx => hn x (List.mem_cons_of_mem _ hx)⟩

theorem Mem.mem_insert (m : Memory) (a : Nat) (b : Byte) (x : Host.Cell) (h : x ∈ Mem.insert m a b) :
    x = (a, b) ∨ x ∈ m := by
  induction m with
  | nil => simpa [Mem.insert] using h
  | cons p r ih =>
    obtain ⟨k, d⟩ := p
    simp only [Mem.insert] at h
    split at h
    · simpa using h
    · split at h
      · rcases List.mem_cons.1 h with h | h
        · exact .inl h
        · exact .inr (List.mem_cons_of_mem _ h)
      · rcases List.mem_cons.1 h with h | h
        · exact .inr (by simp [h])
        · rcases ih h with h | h
          · exact .inl h
          · exact .inr (List.mem_cons_of_mem _ h)

theorem Mem.wf_insert (m : Memory) (a : Nat) (b : Byte) (hb : b ≠ 0) (h : Mem.wf m = true) :
    Mem.wf (Mem.insert m a b) = true := by
  rw [Mem.wf_iff] at h ⊢
  refine ⟨?_, fun x hx => ?_⟩
  · obtain ⟨h, -⟩ := h
    induction m with
    | nil => simp [Mem.insert]
    | cons p r ih =>
      obtain ⟨k, d⟩ := p
      obtain ⟨h1, h2⟩ := List.pairwise_cons.1 h
      simp only [Mem.insert]
      split
      · rename_i hk
        refine List.pairwise_cons.2 ⟨fun x hx => ?_, h⟩
        rcases List.mem_cons.1 hx with rfl | hx
        · exact hk
        · exact lt_trans hk (h1 x hx)
      · split
        · rename_i hk
          subst hk
          exact List.pairwise_cons.2 ⟨h1, h2⟩
        · rename_i hk1 hk2
          refine List.pairwise_cons.2 ⟨fun x hx => ?_, ih h2⟩
          rcases Mem.mem_insert r a b x hx with rfl | hx
          · show k < a
            omega
          · exact h1 x hx
  · rcases Mem.mem_insert m a b x hx with rfl | hx
    · exact hb
    · exact h.2 x hx

theorem Mem.wf_filter (m : Memory) (p : Host.Cell → Bool) (h : Mem.wf m = true) : Mem.wf (m.filter p) = true := by
  rw [Mem.wf_iff] at h ⊢
  exact ⟨h.1.filter p, fun x hx => h.2 x (List.mem_of_mem_filter hx)⟩

theorem Mem.wf_write (m : Memory) (a : Nat) (b : Byte) (h : Mem.wf m = true) : Mem.wf (Mem.write m a b) = true := by
  unfold Mem.write
  split
  · exact Mem.wf_filter m _ h
  · rename_i hb
    exact Mem.wf_insert m a b hb h

theorem Mem.wf_writeBytes (l : List Byte) (m : Memory) (a : Nat) (h : Mem.wf m = true) :
    Mem.wf (Mem.writeBytes m a l) = true := by
  induction l generalizing m a with
  | nil => exact h
  | cons b r ih => exact ih _ _ (Mem.wf_write m a b h)

theorem Mem.wf_store (m : Memory) (a n v : Nat) (h : Mem.wf m = true) : Mem.wf (Mem.store m a n v) = true :=
  Mem.wf_writeBytes _ _ _ h

theorem Mem.wf_zero (m : Memory) (a n : Nat) (h : Mem.wf m = true) : Mem.wf (Mem.zero m a n) = true :=
  Mem.wf_filter m _ h

theorem Mem.read_zero (m : Memory) (a n c : Nat) :
    Mem.read (Mem.zero m a n) c = if a ≤ c ∧ c < a + n then 0 else Mem.read m c := by
  unfold Mem.zero
  rw [Mem.read_filter m fun k => decide (k < a) || decide (a + n ≤ k)]
  by_cases h : a ≤ c ∧ c < a + n
  · simp [h, show ¬ c < a by omega, show ¬ a + n ≤ c by omega]
  · rw [if_neg h, if_pos]
    simp only [Bool.or_eq_true, decide_eq_true_eq]
    omega

/-- Canonical memories that read alike are equal. -/
theorem Mem.ext_wf (m m' : Memory) (h : Mem.wf m = true) (h' : Mem.wf m' = true)
    (e : ∀ a, Mem.read m a = Mem.read m' a) : m = m' := by
  rw [Mem.wf_iff] at h h'
  obtain ⟨hp, hn⟩ := h
  obtain ⟨hp', hn'⟩ := h'
  have absent : ∀ (l : Memory) (k : Nat), (∀ x ∈ l, k < x.1) → Mem.read l k = 0 := by
    intro l k hl
    induction l with
    | nil => rfl
    | cons p r ih =>
      have h1 := hl p (by simp)
      rw [Mem.read, if_neg (by omega)]
      exact ih fun x hx => hl x (List.mem_cons_of_mem _ hx)
  induction m generalizing m' with
  | nil =>
    cases m' with
    | nil => rfl
    | cons q r' =>
      have := e q.1
      simp only [Mem.read, if_true] at this
      exact absurd this.symm (hn' q (by simp))
  | cons p r ih =>
    cases m' with
    | nil =>
      have := e p.1
      simp only [Mem.read, if_true] at this
      exact absurd this (hn p (by simp))
    | cons q r' =>
      obtain ⟨a, b⟩ := p
      obtain ⟨c, d⟩ := q
      obtain ⟨h1, h2⟩ := List.pairwise_cons.1 hp
      obtain ⟨h1', h2'⟩ := List.pairwise_cons.1 hp'
      have hac : a = c := by
        rcases Nat.lt_trichotomy a c with hlt | heq | hgt
        · have := e a
          rw [Mem.read, if_pos rfl, absent ((c, d) :: r') a] at this
          · exact absurd this (hn (a, b) (by simp))
          · intro x hx
            rcases List.mem_cons.1 hx with rfl | hx
            · exact hlt
            · exact lt_trans hlt (h1' x hx)
        · exact heq
        · have := e c
          rw [Mem.read.eq_def ((c, d) :: r')] at this
          simp only [if_true] at this
          rw [absent ((a, b) :: r) c] at this
          · exact absurd this.symm (hn' (c, d) (by simp))
          · intro x hx
            rcases List.mem_cons.1 hx with rfl | hx
            · exact hgt
            · exact lt_trans hgt (h1 x hx)
      subst hac
      have hbd : b = d := by
        have := e a
        simpa [Mem.read] using this
      subst hbd
      congr 1
      refine ih r' ?_ h2 (fun x hx => hn x (List.mem_cons_of_mem _ hx)) h2' (fun x hx => hn' x (List.mem_cons_of_mem _ hx))
      intro k
      by_cases hk : a = k
      · subst hk
        rw [absent r a h1, absent r' a h1']
      · have := e k
        simpa [Mem.read, hk] using this

end Sys2Proof.Machine
end

