-- ==== Sys2Proof/Laws/State.lean ====
section
/-!
SUPPORT. Updates and the fields they leave alone: one lemma per field and update, so that no proof unfolds a record
update.
-/
namespace Sys2Proof.Machine

/-! ### Updates of the machine -/

@[simp] theorem State.setTile_cur (s : State) (t : Nat) (x : Tile) : (s.setTile t x).cur = s.cur := rfl
@[simp] theorem State.setTile_agenda (s : State) (t : Nat) (x : Tile) : (s.setTile t x).agenda = s.agenda := rfl
@[simp] theorem State.setTile_scan (s : State) (t : Nat) (x : Tile) : (s.setTile t x).scan = s.scan := rfl
@[simp] theorem State.setTile_units (s : State) (t : Nat) (x : Tile) : (s.setTile t x).units = s.units := rfl
@[simp] theorem State.setTile_free (s : State) (t : Nat) (x : Tile) : (s.setTile t x).free = s.free := rfl
@[simp] theorem State.setTile_sentMsgs (s : State) (t : Nat) (x : Tile) : (s.setTile t x).sentMsgs = s.sentMsgs := rfl
@[simp] theorem State.setTile_fused (s : State) (t : Nat) (x : Tile) : (s.setTile t x).fused = s.fused := rfl
@[simp] theorem State.setTile_edges (s : State) (t : Nat) (x : Tile) : (s.setTile t x).edges = s.edges := rfl
@[simp] theorem State.setTile_reels (s : State) (t : Nat) (x : Tile) : (s.setTile t x).reels = s.reels := rfl
@[simp] theorem State.setTile_dram (s : State) (t : Nat) (x : Tile) : (s.setTile t x).dram = s.dram := rfl
@[simp] theorem State.setTile_dramPoison (s : State) (t : Nat) (x : Tile) : (s.setTile t x).dramPoison = s.dramPoison := rfl
@[simp] theorem State.setTile_dramErrs (s : State) (t : Nat) (x : Tile) : (s.setTile t x).dramErrs = s.dramErrs := rfl
@[simp] theorem State.setTile_host (s : State) (t : Nat) (x : Tile) : (s.setTile t x).host = s.host := rfl
@[simp] theorem State.setTile_wire (s : State) (t : Nat) (x : Tile) : (s.setTile t x).wire = s.wire := rfl
@[simp] theorem State.setTile_clusters (s : State) (t : Nat) (x : Tile) : (s.setTile t x).clusters = s.clusters := rfl
@[simp] theorem State.setTile_links (s : State) (t : Nat) (x : Tile) : (s.setTile t x).links = s.links := rfl
@[simp] theorem State.setTile_portsDown (s : State) (t : Nat) (x : Tile) : (s.setTile t x).portsDown = s.portsDown := rfl
@[simp] theorem State.setTile_bbox (s : State) (t : Nat) (x : Tile) : (s.setTile t x).bbox = s.bbox := rfl
@[simp] theorem State.setTile_mgr (s : State) (t : Nat) (x : Tile) : (s.setTile t x).mgr = s.mgr := rfl
@[simp] theorem State.setTile_dev (s : State) (t : Nat) (x : Tile) : (s.setTile t x).dev = s.dev := rfl

@[simp] theorem State.modTile_cur (s : State) (t : Nat) (f : Tile → Tile) : (s.modTile t f).cur = s.cur := rfl
@[simp] theorem State.modTile_agenda (s : State) (t : Nat) (f : Tile → Tile) : (s.modTile t f).agenda = s.agenda := rfl
@[simp] theorem State.modTile_scan (s : State) (t : Nat) (f : Tile → Tile) : (s.modTile t f).scan = s.scan := rfl
@[simp] theorem State.modTile_units (s : State) (t : Nat) (f : Tile → Tile) : (s.modTile t f).units = s.units := rfl
@[simp] theorem State.modTile_free (s : State) (t : Nat) (f : Tile → Tile) : (s.modTile t f).free = s.free := rfl
@[simp] theorem State.modTile_sentMsgs (s : State) (t : Nat) (f : Tile → Tile) : (s.modTile t f).sentMsgs = s.sentMsgs := rfl
@[simp] theorem State.modTile_fused (s : State) (t : Nat) (f : Tile → Tile) : (s.modTile t f).fused = s.fused := rfl
@[simp] theorem State.modTile_edges (s : State) (t : Nat) (f : Tile → Tile) : (s.modTile t f).edges = s.edges := rfl
@[simp] theorem State.modTile_reels (s : State) (t : Nat) (f : Tile → Tile) : (s.modTile t f).reels = s.reels := rfl
@[simp] theorem State.modTile_dram (s : State) (t : Nat) (f : Tile → Tile) : (s.modTile t f).dram = s.dram := rfl
@[simp] theorem State.modTile_dramPoison (s : State) (t : Nat) (f : Tile → Tile) : (s.modTile t f).dramPoison = s.dramPoison := rfl
@[simp] theorem State.modTile_dramErrs (s : State) (t : Nat) (f : Tile → Tile) : (s.modTile t f).dramErrs = s.dramErrs := rfl
@[simp] theorem State.modTile_host (s : State) (t : Nat) (f : Tile → Tile) : (s.modTile t f).host = s.host := rfl
@[simp] theorem State.modTile_wire (s : State) (t : Nat) (f : Tile → Tile) : (s.modTile t f).wire = s.wire := rfl
@[simp] theorem State.modTile_clusters (s : State) (t : Nat) (f : Tile → Tile) : (s.modTile t f).clusters = s.clusters := rfl
@[simp] theorem State.modTile_links (s : State) (t : Nat) (f : Tile → Tile) : (s.modTile t f).links = s.links := rfl
@[simp] theorem State.modTile_portsDown (s : State) (t : Nat) (f : Tile → Tile) : (s.modTile t f).portsDown = s.portsDown := rfl
@[simp] theorem State.modTile_bbox (s : State) (t : Nat) (f : Tile → Tile) : (s.modTile t f).bbox = s.bbox := rfl
@[simp] theorem State.modTile_mgr (s : State) (t : Nat) (f : Tile → Tile) : (s.modTile t f).mgr = s.mgr := rfl
@[simp] theorem State.modTile_dev (s : State) (t : Nat) (f : Tile → Tile) : (s.modTile t f).dev = s.dev := rfl

@[simp] theorem State.modSlot_cur (s : State) (t : Nat) (k : Fin 8) (f : Slot → Slot) : (s.modSlot t k f).cur = s.cur := rfl
@[simp] theorem State.modSlot_agenda (s : State) (t : Nat) (k : Fin 8) (f : Slot → Slot) : (s.modSlot t k f).agenda = s.agenda := rfl
@[simp] theorem State.modSlot_scan (s : State) (t : Nat) (k : Fin 8) (f : Slot → Slot) : (s.modSlot t k f).scan = s.scan := rfl
@[simp] theorem State.modSlot_units (s : State) (t : Nat) (k : Fin 8) (f : Slot → Slot) : (s.modSlot t k f).units = s.units := rfl
@[simp] theorem State.modSlot_free (s : State) (t : Nat) (k : Fin 8) (f : Slot → Slot) : (s.modSlot t k f).free = s.free := rfl
@[simp] theorem State.modSlot_sentMsgs (s : State) (t : Nat) (k : Fin 8) (f : Slot → Slot) : (s.modSlot t k f).sentMsgs = s.sentMsgs := rfl
@[simp] theorem State.modSlot_fused (s : State) (t : Nat) (k : Fin 8) (f : Slot → Slot) : (s.modSlot t k f).fused = s.fused := rfl
@[simp] theorem State.modSlot_edges (s : State) (t : Nat) (k : Fin 8) (f : Slot → Slot) : (s.modSlot t k f).edges = s.edges := rfl
@[simp] theorem State.modSlot_reels (s : State) (t : Nat) (k : Fin 8) (f : Slot → Slot) : (s.modSlot t k f).reels = s.reels := rfl
@[simp] theorem State.modSlot_dram (s : State) (t : Nat) (k : Fin 8) (f : Slot → Slot) : (s.modSlot t k f).dram = s.dram := rfl
@[simp] theorem State.modSlot_dramPoison (s : State) (t : Nat) (k : Fin 8) (f : Slot → Slot) : (s.modSlot t k f).dramPoison = s.dramPoison := rfl
@[simp] theorem State.modSlot_dramErrs (s : State) (t : Nat) (k : Fin 8) (f : Slot → Slot) : (s.modSlot t k f).dramErrs = s.dramErrs := rfl
@[simp] theorem State.modSlot_host (s : State) (t : Nat) (k : Fin 8) (f : Slot → Slot) : (s.modSlot t k f).host = s.host := rfl
@[simp] theorem State.modSlot_wire (s : State) (t : Nat) (k : Fin 8) (f : Slot → Slot) : (s.modSlot t k f).wire = s.wire := rfl
@[simp] theorem State.modSlot_clusters (s : State) (t : Nat) (k : Fin 8) (f : Slot → Slot) : (s.modSlot t k f).clusters = s.clusters := rfl
@[simp] theorem State.modSlot_links (s : State) (t : Nat) (k : Fin 8) (f : Slot → Slot) : (s.modSlot t k f).links = s.links := rfl
@[simp] theorem State.modSlot_portsDown (s : State) (t : Nat) (k : Fin 8) (f : Slot → Slot) : (s.modSlot t k f).portsDown = s.portsDown := rfl
@[simp] theorem State.modSlot_bbox (s : State) (t : Nat) (k : Fin 8) (f : Slot → Slot) : (s.modSlot t k f).bbox = s.bbox := rfl
@[simp] theorem State.modSlot_mgr (s : State) (t : Nat) (k : Fin 8) (f : Slot → Slot) : (s.modSlot t k f).mgr = s.mgr := rfl
@[simp] theorem State.modSlot_dev (s : State) (t : Nat) (k : Fin 8) (f : Slot → Slot) : (s.modSlot t k f).dev = s.dev := rfl

@[simp] theorem State.updTile_cur (s : State) (f : Tile → Tile) : (s.updTile f).cur = s.cur := rfl
@[simp] theorem State.updTile_agenda (s : State) (f : Tile → Tile) : (s.updTile f).agenda = s.agenda := rfl
@[simp] theorem State.updTile_scan (s : State) (f : Tile → Tile) : (s.updTile f).scan = s.scan := rfl
@[simp] theorem State.updTile_units (s : State) (f : Tile → Tile) : (s.updTile f).units = s.units := rfl
@[simp] theorem State.updTile_free (s : State) (f : Tile → Tile) : (s.updTile f).free = s.free := rfl
@[simp] theorem State.updTile_sentMsgs (s : State) (f : Tile → Tile) : (s.updTile f).sentMsgs = s.sentMsgs := rfl
@[simp] theorem State.updTile_fused (s : State) (f : Tile → Tile) : (s.updTile f).fused = s.fused := rfl
@[simp] theorem State.updTile_edges (s : State) (f : Tile → Tile) : (s.updTile f).edges = s.edges := rfl
@[simp] theorem State.updTile_reels (s : State) (f : Tile → Tile) : (s.updTile f).reels = s.reels := rfl
@[simp] theorem State.updTile_dram (s : State) (f : Tile → Tile) : (s.updTile f).dram = s.dram := rfl
@[simp] theorem State.updTile_dramPoison (s : State) (f : Tile → Tile) : (s.updTile f).dramPoison = s.dramPoison := rfl
@[simp] theorem State.updTile_dramErrs (s : State) (f : Tile → Tile) : (s.updTile f).dramErrs = s.dramErrs := rfl
@[simp] theorem State.updTile_host (s : State) (f : Tile → Tile) : (s.updTile f).host = s.host := rfl
@[simp] theorem State.updTile_wire (s : State) (f : Tile → Tile) : (s.updTile f).wire = s.wire := rfl
@[simp] theorem State.updTile_clusters (s : State) (f : Tile → Tile) : (s.updTile f).clusters = s.clusters := rfl
@[simp] theorem State.updTile_links (s : State) (f : Tile → Tile) : (s.updTile f).links = s.links := rfl
@[simp] theorem State.updTile_portsDown (s : State) (f : Tile → Tile) : (s.updTile f).portsDown = s.portsDown := rfl
@[simp] theorem State.updTile_bbox (s : State) (f : Tile → Tile) : (s.updTile f).bbox = s.bbox := rfl
@[simp] theorem State.updTile_mgr (s : State) (f : Tile → Tile) : (s.updTile f).mgr = s.mgr := rfl
@[simp] theorem State.updTile_dev (s : State) (f : Tile → Tile) : (s.updTile f).dev = s.dev := rfl

@[simp] theorem State.updMe_cur (s : State) (f : Slot → Slot) : (s.updMe f).cur = s.cur := rfl
@[simp] theorem State.updMe_agenda (s : State) (f : Slot → Slot) : (s.updMe f).agenda = s.agenda := rfl
@[simp] theorem State.updMe_scan (s : State) (f : Slot → Slot) : (s.updMe f).scan = s.scan := rfl
@[simp] theorem State.updMe_units (s : State) (f : Slot → Slot) : (s.updMe f).units = s.units := rfl
@[simp] theorem State.updMe_free (s : State) (f : Slot → Slot) : (s.updMe f).free = s.free := rfl
@[simp] theorem State.updMe_sentMsgs (s : State) (f : Slot → Slot) : (s.updMe f).sentMsgs = s.sentMsgs := rfl
@[simp] theorem State.updMe_fused (s : State) (f : Slot → Slot) : (s.updMe f).fused = s.fused := rfl
@[simp] theorem State.updMe_edges (s : State) (f : Slot → Slot) : (s.updMe f).edges = s.edges := rfl
@[simp] theorem State.updMe_reels (s : State) (f : Slot → Slot) : (s.updMe f).reels = s.reels := rfl
@[simp] theorem State.updMe_dram (s : State) (f : Slot → Slot) : (s.updMe f).dram = s.dram := rfl
@[simp] theorem State.updMe_dramPoison (s : State) (f : Slot → Slot) : (s.updMe f).dramPoison = s.dramPoison := rfl
@[simp] theorem State.updMe_dramErrs (s : State) (f : Slot → Slot) : (s.updMe f).dramErrs = s.dramErrs := rfl
@[simp] theorem State.updMe_host (s : State) (f : Slot → Slot) : (s.updMe f).host = s.host := rfl
@[simp] theorem State.updMe_wire (s : State) (f : Slot → Slot) : (s.updMe f).wire = s.wire := rfl
@[simp] theorem State.updMe_clusters (s : State) (f : Slot → Slot) : (s.updMe f).clusters = s.clusters := rfl
@[simp] theorem State.updMe_links (s : State) (f : Slot → Slot) : (s.updMe f).links = s.links := rfl
@[simp] theorem State.updMe_portsDown (s : State) (f : Slot → Slot) : (s.updMe f).portsDown = s.portsDown := rfl
@[simp] theorem State.updMe_bbox (s : State) (f : Slot → Slot) : (s.updMe f).bbox = s.bbox := rfl
@[simp] theorem State.updMe_mgr (s : State) (f : Slot → Slot) : (s.updMe f).mgr = s.mgr := rfl
@[simp] theorem State.updMe_dev (s : State) (f : Slot → Slot) : (s.updMe f).dev = s.dev := rfl

@[simp] theorem State.updVec_cur (s : State) (f : VecCtx → VecCtx) : (s.updVec f).cur = s.cur := rfl
@[simp] theorem State.updVec_agenda (s : State) (f : VecCtx → VecCtx) : (s.updVec f).agenda = s.agenda := rfl
@[simp] theorem State.updVec_scan (s : State) (f : VecCtx → VecCtx) : (s.updVec f).scan = s.scan := rfl
@[simp] theorem State.updVec_units (s : State) (f : VecCtx → VecCtx) : (s.updVec f).units = s.units := rfl
@[simp] theorem State.updVec_free (s : State) (f : VecCtx → VecCtx) : (s.updVec f).free = s.free := rfl
@[simp] theorem State.updVec_sentMsgs (s : State) (f : VecCtx → VecCtx) : (s.updVec f).sentMsgs = s.sentMsgs := rfl
@[simp] theorem State.updVec_fused (s : State) (f : VecCtx → VecCtx) : (s.updVec f).fused = s.fused := rfl
@[simp] theorem State.updVec_edges (s : State) (f : VecCtx → VecCtx) : (s.updVec f).edges = s.edges := rfl
@[simp] theorem State.updVec_reels (s : State) (f : VecCtx → VecCtx) : (s.updVec f).reels = s.reels := rfl
@[simp] theorem State.updVec_dram (s : State) (f : VecCtx → VecCtx) : (s.updVec f).dram = s.dram := rfl
@[simp] theorem State.updVec_dramPoison (s : State) (f : VecCtx → VecCtx) : (s.updVec f).dramPoison = s.dramPoison := rfl
@[simp] theorem State.updVec_dramErrs (s : State) (f : VecCtx → VecCtx) : (s.updVec f).dramErrs = s.dramErrs := rfl
@[simp] theorem State.updVec_host (s : State) (f : VecCtx → VecCtx) : (s.updVec f).host = s.host := rfl
@[simp] theorem State.updVec_wire (s : State) (f : VecCtx → VecCtx) : (s.updVec f).wire = s.wire := rfl
@[simp] theorem State.updVec_clusters (s : State) (f : VecCtx → VecCtx) : (s.updVec f).clusters = s.clusters := rfl
@[simp] theorem State.updVec_links (s : State) (f : VecCtx → VecCtx) : (s.updVec f).links = s.links := rfl
@[simp] theorem State.updVec_portsDown (s : State) (f : VecCtx → VecCtx) : (s.updVec f).portsDown = s.portsDown := rfl
@[simp] theorem State.updVec_bbox (s : State) (f : VecCtx → VecCtx) : (s.updVec f).bbox = s.bbox := rfl
@[simp] theorem State.updVec_mgr (s : State) (f : VecCtx → VecCtx) : (s.updVec f).mgr = s.mgr := rfl
@[simp] theorem State.updVec_dev (s : State) (f : VecCtx → VecCtx) : (s.updVec f).dev = s.dev := rfl

@[simp] theorem State.setG_cur (s : State) (n : BitVec 5) (v : Word) : (s.setG n v).cur = s.cur := rfl
@[simp] theorem State.setG_agenda (s : State) (n : BitVec 5) (v : Word) : (s.setG n v).agenda = s.agenda := rfl
@[simp] theorem State.setG_scan (s : State) (n : BitVec 5) (v : Word) : (s.setG n v).scan = s.scan := rfl
@[simp] theorem State.setG_units (s : State) (n : BitVec 5) (v : Word) : (s.setG n v).units = s.units := rfl
@[simp] theorem State.setG_free (s : State) (n : BitVec 5) (v : Word) : (s.setG n v).free = s.free := rfl
@[simp] theorem State.setG_sentMsgs (s : State) (n : BitVec 5) (v : Word) : (s.setG n v).sentMsgs = s.sentMsgs := rfl
@[simp] theorem State.setG_fused (s : State) (n : BitVec 5) (v : Word) : (s.setG n v).fused = s.fused := rfl
@[simp] theorem State.setG_edges (s : State) (n : BitVec 5) (v : Word) : (s.setG n v).edges = s.edges := rfl
@[simp] theorem State.setG_reels (s : State) (n : BitVec 5) (v : Word) : (s.setG n v).reels = s.reels := rfl
@[simp] theorem State.setG_dram (s : State) (n : BitVec 5) (v : Word) : (s.setG n v).dram = s.dram := rfl
@[simp] theorem State.setG_dramPoison (s : State) (n : BitVec 5) (v : Word) : (s.setG n v).dramPoison = s.dramPoison := rfl
@[simp] theorem State.setG_dramErrs (s : State) (n : BitVec 5) (v : Word) : (s.setG n v).dramErrs = s.dramErrs := rfl
@[simp] theorem State.setG_host (s : State) (n : BitVec 5) (v : Word) : (s.setG n v).host = s.host := rfl
@[simp] theorem State.setG_wire (s : State) (n : BitVec 5) (v : Word) : (s.setG n v).wire = s.wire := rfl
@[simp] theorem State.setG_clusters (s : State) (n : BitVec 5) (v : Word) : (s.setG n v).clusters = s.clusters := rfl
@[simp] theorem State.setG_links (s : State) (n : BitVec 5) (v : Word) : (s.setG n v).links = s.links := rfl
@[simp] theorem State.setG_portsDown (s : State) (n : BitVec 5) (v : Word) : (s.setG n v).portsDown = s.portsDown := rfl
@[simp] theorem State.setG_bbox (s : State) (n : BitVec 5) (v : Word) : (s.setG n v).bbox = s.bbox := rfl
@[simp] theorem State.setG_mgr (s : State) (n : BitVec 5) (v : Word) : (s.setG n v).mgr = s.mgr := rfl
@[simp] theorem State.setG_dev (s : State) (n : BitVec 5) (v : Word) : (s.setG n v).dev = s.dev := rfl

@[simp] theorem State.adv_cur (s : State) (len : Nat) : (s.adv len).cur = s.cur := rfl
@[simp] theorem State.adv_agenda (s : State) (len : Nat) : (s.adv len).agenda = s.agenda := rfl
@[simp] theorem State.adv_scan (s : State) (len : Nat) : (s.adv len).scan = s.scan := rfl
@[simp] theorem State.adv_units (s : State) (len : Nat) : (s.adv len).units = s.units := rfl
@[simp] theorem State.adv_free (s : State) (len : Nat) : (s.adv len).free = s.free := rfl
@[simp] theorem State.adv_sentMsgs (s : State) (len : Nat) : (s.adv len).sentMsgs = s.sentMsgs := rfl
@[simp] theorem State.adv_fused (s : State) (len : Nat) : (s.adv len).fused = s.fused := rfl
@[simp] theorem State.adv_edges (s : State) (len : Nat) : (s.adv len).edges = s.edges := rfl
@[simp] theorem State.adv_reels (s : State) (len : Nat) : (s.adv len).reels = s.reels := rfl
@[simp] theorem State.adv_dram (s : State) (len : Nat) : (s.adv len).dram = s.dram := rfl
@[simp] theorem State.adv_dramPoison (s : State) (len : Nat) : (s.adv len).dramPoison = s.dramPoison := rfl
@[simp] theorem State.adv_dramErrs (s : State) (len : Nat) : (s.adv len).dramErrs = s.dramErrs := rfl
@[simp] theorem State.adv_host (s : State) (len : Nat) : (s.adv len).host = s.host := rfl
@[simp] theorem State.adv_wire (s : State) (len : Nat) : (s.adv len).wire = s.wire := rfl
@[simp] theorem State.adv_clusters (s : State) (len : Nat) : (s.adv len).clusters = s.clusters := rfl
@[simp] theorem State.adv_links (s : State) (len : Nat) : (s.adv len).links = s.links := rfl
@[simp] theorem State.adv_portsDown (s : State) (len : Nat) : (s.adv len).portsDown = s.portsDown := rfl
@[simp] theorem State.adv_bbox (s : State) (len : Nat) : (s.adv len).bbox = s.bbox := rfl
@[simp] theorem State.adv_mgr (s : State) (len : Nat) : (s.adv len).mgr = s.mgr := rfl
@[simp] theorem State.adv_dev (s : State) (len : Nat) : (s.adv len).dev = s.dev := rfl

@[simp] theorem State.modEdge_cur (s : State) (n : Nat) (f : EdgeSt → EdgeSt) : (s.modEdge n f).cur = s.cur := rfl
@[simp] theorem State.modEdge_agenda (s : State) (n : Nat) (f : EdgeSt → EdgeSt) : (s.modEdge n f).agenda = s.agenda := rfl
@[simp] theorem State.modEdge_scan (s : State) (n : Nat) (f : EdgeSt → EdgeSt) : (s.modEdge n f).scan = s.scan := rfl
@[simp] theorem State.modEdge_units (s : State) (n : Nat) (f : EdgeSt → EdgeSt) : (s.modEdge n f).units = s.units := rfl
@[simp] theorem State.modEdge_free (s : State) (n : Nat) (f : EdgeSt → EdgeSt) : (s.modEdge n f).free = s.free := rfl
@[simp] theorem State.modEdge_sentMsgs (s : State) (n : Nat) (f : EdgeSt → EdgeSt) : (s.modEdge n f).sentMsgs = s.sentMsgs := rfl
@[simp] theorem State.modEdge_fused (s : State) (n : Nat) (f : EdgeSt → EdgeSt) : (s.modEdge n f).fused = s.fused := rfl
@[simp] theorem State.modEdge_tiles (s : State) (n : Nat) (f : EdgeSt → EdgeSt) : (s.modEdge n f).tiles = s.tiles := rfl
@[simp] theorem State.modEdge_reels (s : State) (n : Nat) (f : EdgeSt → EdgeSt) : (s.modEdge n f).reels = s.reels := rfl
@[simp] theorem State.modEdge_dram (s : State) (n : Nat) (f : EdgeSt → EdgeSt) : (s.modEdge n f).dram = s.dram := rfl
@[simp] theorem State.modEdge_dramPoison (s : State) (n : Nat) (f : EdgeSt → EdgeSt) : (s.modEdge n f).dramPoison = s.dramPoison := rfl
@[simp] theorem State.modEdge_dramErrs (s : State) (n : Nat) (f : EdgeSt → EdgeSt) : (s.modEdge n f).dramErrs = s.dramErrs := rfl
@[simp] theorem State.modEdge_host (s : State) (n : Nat) (f : EdgeSt → EdgeSt) : (s.modEdge n f).host = s.host := rfl
@[simp] theorem State.modEdge_wire (s : State) (n : Nat) (f : EdgeSt → EdgeSt) : (s.modEdge n f).wire = s.wire := rfl
@[simp] theorem State.modEdge_clusters (s : State) (n : Nat) (f : EdgeSt → EdgeSt) : (s.modEdge n f).clusters = s.clusters := rfl
@[simp] theorem State.modEdge_links (s : State) (n : Nat) (f : EdgeSt → EdgeSt) : (s.modEdge n f).links = s.links := rfl
@[simp] theorem State.modEdge_portsDown (s : State) (n : Nat) (f : EdgeSt → EdgeSt) : (s.modEdge n f).portsDown = s.portsDown := rfl
@[simp] theorem State.modEdge_bbox (s : State) (n : Nat) (f : EdgeSt → EdgeSt) : (s.modEdge n f).bbox = s.bbox := rfl
@[simp] theorem State.modEdge_mgr (s : State) (n : Nat) (f : EdgeSt → EdgeSt) : (s.modEdge n f).mgr = s.mgr := rfl
@[simp] theorem State.modEdge_dev (s : State) (n : Nat) (f : EdgeSt → EdgeSt) : (s.modEdge n f).dev = s.dev := rfl

@[simp] theorem State.modReel_cur (s : State) (n : Nat) (f : ReelSt → ReelSt) : (s.modReel n f).cur = s.cur := rfl
@[simp] theorem State.modReel_agenda (s : State) (n : Nat) (f : ReelSt → ReelSt) : (s.modReel n f).agenda = s.agenda := rfl
@[simp] theorem State.modReel_scan (s : State) (n : Nat) (f : ReelSt → ReelSt) : (s.modReel n f).scan = s.scan := rfl
@[simp] theorem State.modReel_units (s : State) (n : Nat) (f : ReelSt → ReelSt) : (s.modReel n f).units = s.units := rfl
@[simp] theorem State.modReel_free (s : State) (n : Nat) (f : ReelSt → ReelSt) : (s.modReel n f).free = s.free := rfl
@[simp] theorem State.modReel_sentMsgs (s : State) (n : Nat) (f : ReelSt → ReelSt) : (s.modReel n f).sentMsgs = s.sentMsgs := rfl
@[simp] theorem State.modReel_fused (s : State) (n : Nat) (f : ReelSt → ReelSt) : (s.modReel n f).fused = s.fused := rfl
@[simp] theorem State.modReel_tiles (s : State) (n : Nat) (f : ReelSt → ReelSt) : (s.modReel n f).tiles = s.tiles := rfl
@[simp] theorem State.modReel_edges (s : State) (n : Nat) (f : ReelSt → ReelSt) : (s.modReel n f).edges = s.edges := rfl
@[simp] theorem State.modReel_dram (s : State) (n : Nat) (f : ReelSt → ReelSt) : (s.modReel n f).dram = s.dram := rfl
@[simp] theorem State.modReel_dramPoison (s : State) (n : Nat) (f : ReelSt → ReelSt) : (s.modReel n f).dramPoison = s.dramPoison := rfl
@[simp] theorem State.modReel_dramErrs (s : State) (n : Nat) (f : ReelSt → ReelSt) : (s.modReel n f).dramErrs = s.dramErrs := rfl
@[simp] theorem State.modReel_host (s : State) (n : Nat) (f : ReelSt → ReelSt) : (s.modReel n f).host = s.host := rfl
@[simp] theorem State.modReel_wire (s : State) (n : Nat) (f : ReelSt → ReelSt) : (s.modReel n f).wire = s.wire := rfl
@[simp] theorem State.modReel_clusters (s : State) (n : Nat) (f : ReelSt → ReelSt) : (s.modReel n f).clusters = s.clusters := rfl
@[simp] theorem State.modReel_links (s : State) (n : Nat) (f : ReelSt → ReelSt) : (s.modReel n f).links = s.links := rfl
@[simp] theorem State.modReel_portsDown (s : State) (n : Nat) (f : ReelSt → ReelSt) : (s.modReel n f).portsDown = s.portsDown := rfl
@[simp] theorem State.modReel_bbox (s : State) (n : Nat) (f : ReelSt → ReelSt) : (s.modReel n f).bbox = s.bbox := rfl
@[simp] theorem State.modReel_mgr (s : State) (n : Nat) (f : ReelSt → ReelSt) : (s.modReel n f).mgr = s.mgr := rfl
@[simp] theorem State.modReel_dev (s : State) (n : Nat) (f : ReelSt → ReelSt) : (s.modReel n f).dev = s.dev := rfl

@[simp] theorem State.modLink_cur (s : State) (n : Nat) (f : Link → Link) : (s.modLink n f).cur = s.cur := rfl
@[simp] theorem State.modLink_agenda (s : State) (n : Nat) (f : Link → Link) : (s.modLink n f).agenda = s.agenda := rfl
@[simp] theorem State.modLink_scan (s : State) (n : Nat) (f : Link → Link) : (s.modLink n f).scan = s.scan := rfl
@[simp] theorem State.modLink_units (s : State) (n : Nat) (f : Link → Link) : (s.modLink n f).units = s.units := rfl
@[simp] theorem State.modLink_free (s : State) (n : Nat) (f : Link → Link) : (s.modLink n f).free = s.free := rfl
@[simp] theorem State.modLink_sentMsgs (s : State) (n : Nat) (f : Link → Link) : (s.modLink n f).sentMsgs = s.sentMsgs := rfl
@[simp] theorem State.modLink_fused (s : State) (n : Nat) (f : Link → Link) : (s.modLink n f).fused = s.fused := rfl
@[simp] theorem State.modLink_tiles (s : State) (n : Nat) (f : Link → Link) : (s.modLink n f).tiles = s.tiles := rfl
@[simp] theorem State.modLink_edges (s : State) (n : Nat) (f : Link → Link) : (s.modLink n f).edges = s.edges := rfl
@[simp] theorem State.modLink_reels (s : State) (n : Nat) (f : Link → Link) : (s.modLink n f).reels = s.reels := rfl
@[simp] theorem State.modLink_dram (s : State) (n : Nat) (f : Link → Link) : (s.modLink n f).dram = s.dram := rfl
@[simp] theorem State.modLink_dramPoison (s : State) (n : Nat) (f : Link → Link) : (s.modLink n f).dramPoison = s.dramPoison := rfl
@[simp] theorem State.modLink_dramErrs (s : State) (n : Nat) (f : Link → Link) : (s.modLink n f).dramErrs = s.dramErrs := rfl
@[simp] theorem State.modLink_host (s : State) (n : Nat) (f : Link → Link) : (s.modLink n f).host = s.host := rfl
@[simp] theorem State.modLink_wire (s : State) (n : Nat) (f : Link → Link) : (s.modLink n f).wire = s.wire := rfl
@[simp] theorem State.modLink_clusters (s : State) (n : Nat) (f : Link → Link) : (s.modLink n f).clusters = s.clusters := rfl
@[simp] theorem State.modLink_bbox (s : State) (n : Nat) (f : Link → Link) : (s.modLink n f).bbox = s.bbox := rfl
@[simp] theorem State.modLink_mgr (s : State) (n : Nat) (f : Link → Link) : (s.modLink n f).mgr = s.mgr := rfl
@[simp] theorem State.modLink_dev (s : State) (n : Nat) (f : Link → Link) : (s.modLink n f).dev = s.dev := rfl

@[simp] theorem State.modMgr_cur (s : State) (f : Manager → Manager) : (s.modMgr f).cur = s.cur := rfl
@[simp] theorem State.modMgr_agenda (s : State) (f : Manager → Manager) : (s.modMgr f).agenda = s.agenda := rfl
@[simp] theorem State.modMgr_scan (s : State) (f : Manager → Manager) : (s.modMgr f).scan = s.scan := rfl
@[simp] theorem State.modMgr_units (s : State) (f : Manager → Manager) : (s.modMgr f).units = s.units := rfl
@[simp] theorem State.modMgr_free (s : State) (f : Manager → Manager) : (s.modMgr f).free = s.free := rfl
@[simp] theorem State.modMgr_sentMsgs (s : State) (f : Manager → Manager) : (s.modMgr f).sentMsgs = s.sentMsgs := rfl
@[simp] theorem State.modMgr_fused (s : State) (f : Manager → Manager) : (s.modMgr f).fused = s.fused := rfl
@[simp] theorem State.modMgr_tiles (s : State) (f : Manager → Manager) : (s.modMgr f).tiles = s.tiles := rfl
@[simp] theorem State.modMgr_edges (s : State) (f : Manager → Manager) : (s.modMgr f).edges = s.edges := rfl
@[simp] theorem State.modMgr_reels (s : State) (f : Manager → Manager) : (s.modMgr f).reels = s.reels := rfl
@[simp] theorem State.modMgr_dram (s : State) (f : Manager → Manager) : (s.modMgr f).dram = s.dram := rfl
@[simp] theorem State.modMgr_dramPoison (s : State) (f : Manager → Manager) : (s.modMgr f).dramPoison = s.dramPoison := rfl
@[simp] theorem State.modMgr_dramErrs (s : State) (f : Manager → Manager) : (s.modMgr f).dramErrs = s.dramErrs := rfl
@[simp] theorem State.modMgr_host (s : State) (f : Manager → Manager) : (s.modMgr f).host = s.host := rfl
@[simp] theorem State.modMgr_wire (s : State) (f : Manager → Manager) : (s.modMgr f).wire = s.wire := rfl
@[simp] theorem State.modMgr_clusters (s : State) (f : Manager → Manager) : (s.modMgr f).clusters = s.clusters := rfl
@[simp] theorem State.modMgr_links (s : State) (f : Manager → Manager) : (s.modMgr f).links = s.links := rfl
@[simp] theorem State.modMgr_portsDown (s : State) (f : Manager → Manager) : (s.modMgr f).portsDown = s.portsDown := rfl
@[simp] theorem State.modMgr_bbox (s : State) (f : Manager → Manager) : (s.modMgr f).bbox = s.bbox := rfl
@[simp] theorem State.modMgr_dev (s : State) (f : Manager → Manager) : (s.modMgr f).dev = s.dev := rfl

@[simp] theorem State.fresh_cur (s : State) : (s.fresh.2).cur = s.cur := rfl
@[simp] theorem State.fresh_agenda (s : State) : (s.fresh.2).agenda = s.agenda := rfl
@[simp] theorem State.fresh_scan (s : State) : (s.fresh.2).scan = s.scan := rfl
@[simp] theorem State.fresh_units (s : State) : (s.fresh.2).units = s.units := rfl
@[simp] theorem State.fresh_fused (s : State) : (s.fresh.2).fused = s.fused := rfl
@[simp] theorem State.fresh_tiles (s : State) : (s.fresh.2).tiles = s.tiles := rfl
@[simp] theorem State.fresh_edges (s : State) : (s.fresh.2).edges = s.edges := rfl
@[simp] theorem State.fresh_reels (s : State) : (s.fresh.2).reels = s.reels := rfl
@[simp] theorem State.fresh_dram (s : State) : (s.fresh.2).dram = s.dram := rfl
@[simp] theorem State.fresh_dramPoison (s : State) : (s.fresh.2).dramPoison = s.dramPoison := rfl
@[simp] theorem State.fresh_dramErrs (s : State) : (s.fresh.2).dramErrs = s.dramErrs := rfl
@[simp] theorem State.fresh_host (s : State) : (s.fresh.2).host = s.host := rfl
@[simp] theorem State.fresh_wire (s : State) : (s.fresh.2).wire = s.wire := rfl
@[simp] theorem State.fresh_clusters (s : State) : (s.fresh.2).clusters = s.clusters := rfl
@[simp] theorem State.fresh_links (s : State) : (s.fresh.2).links = s.links := rfl
@[simp] theorem State.fresh_portsDown (s : State) : (s.fresh.2).portsDown = s.portsDown := rfl
@[simp] theorem State.fresh_bbox (s : State) : (s.fresh.2).bbox = s.bbox := rfl
@[simp] theorem State.fresh_mgr (s : State) : (s.fresh.2).mgr = s.mgr := rfl
@[simp] theorem State.fresh_dev (s : State) : (s.fresh.2).dev = s.dev := rfl

@[simp] theorem State.blackBox_cur (s : State) (e : Ep) (k tnt : Nat) (a b : Word) : (s.blackBox e k tnt a b).cur = s.cur := rfl
@[simp] theorem State.blackBox_agenda (s : State) (e : Ep) (k tnt : Nat) (a b : Word) : (s.blackBox e k tnt a b).agenda = s.agenda := rfl
@[simp] theorem State.blackBox_scan (s : State) (e : Ep) (k tnt : Nat) (a b : Word) : (s.blackBox e k tnt a b).scan = s.scan := rfl
@[simp] theorem State.blackBox_units (s : State) (e : Ep) (k tnt : Nat) (a b : Word) : (s.blackBox e k tnt a b).units = s.units := rfl
@[simp] theorem State.blackBox_free (s : State) (e : Ep) (k tnt : Nat) (a b : Word) : (s.blackBox e k tnt a b).free = s.free := rfl
@[simp] theorem State.blackBox_sentMsgs (s : State) (e : Ep) (k tnt : Nat) (a b : Word) : (s.blackBox e k tnt a b).sentMsgs = s.sentMsgs := rfl
@[simp] theorem State.blackBox_fused (s : State) (e : Ep) (k tnt : Nat) (a b : Word) : (s.blackBox e k tnt a b).fused = s.fused := rfl
@[simp] theorem State.blackBox_tiles (s : State) (e : Ep) (k tnt : Nat) (a b : Word) : (s.blackBox e k tnt a b).tiles = s.tiles := rfl
@[simp] theorem State.blackBox_edges (s : State) (e : Ep) (k tnt : Nat) (a b : Word) : (s.blackBox e k tnt a b).edges = s.edges := rfl
@[simp] theorem State.blackBox_reels (s : State) (e : Ep) (k tnt : Nat) (a b : Word) : (s.blackBox e k tnt a b).reels = s.reels := rfl
@[simp] theorem State.blackBox_dram (s : State) (e : Ep) (k tnt : Nat) (a b : Word) : (s.blackBox e k tnt a b).dram = s.dram := rfl
@[simp] theorem State.blackBox_dramPoison (s : State) (e : Ep) (k tnt : Nat) (a b : Word) : (s.blackBox e k tnt a b).dramPoison = s.dramPoison := rfl
@[simp] theorem State.blackBox_dramErrs (s : State) (e : Ep) (k tnt : Nat) (a b : Word) : (s.blackBox e k tnt a b).dramErrs = s.dramErrs := rfl
@[simp] theorem State.blackBox_host (s : State) (e : Ep) (k tnt : Nat) (a b : Word) : (s.blackBox e k tnt a b).host = s.host := rfl
@[simp] theorem State.blackBox_wire (s : State) (e : Ep) (k tnt : Nat) (a b : Word) : (s.blackBox e k tnt a b).wire = s.wire := rfl
@[simp] theorem State.blackBox_clusters (s : State) (e : Ep) (k tnt : Nat) (a b : Word) : (s.blackBox e k tnt a b).clusters = s.clusters := rfl
@[simp] theorem State.blackBox_links (s : State) (e : Ep) (k tnt : Nat) (a b : Word) : (s.blackBox e k tnt a b).links = s.links := rfl
@[simp] theorem State.blackBox_portsDown (s : State) (e : Ep) (k tnt : Nat) (a b : Word) : (s.blackBox e k tnt a b).portsDown = s.portsDown := rfl
@[simp] theorem State.blackBox_mgr (s : State) (e : Ep) (k tnt : Nat) (a b : Word) : (s.blackBox e k tnt a b).mgr = s.mgr := rfl
@[simp] theorem State.blackBox_dev (s : State) (e : Ep) (k tnt : Nat) (a b : Word) : (s.blackBox e k tnt a b).dev = s.dev := rfl

/-! ### Updates of a tile -/

@[simp] theorem Tile.modSlot_vecs (x : Tile) (k : Fin 8) (f : Slot → Slot) : (x.modSlot k f).vecs = x.vecs := rfl
@[simp] theorem Tile.modSlot_mem (x : Tile) (k : Fin 8) (f : Slot → Slot) : (x.modSlot k f).mem = x.mem := rfl
@[simp] theorem Tile.modSlot_start (x : Tile) (k : Fin 8) (f : Slot → Slot) : (x.modSlot k f).start = x.start := rfl
@[simp] theorem Tile.modSlot_poison (x : Tile) (k : Fin 8) (f : Slot → Slot) : (x.modSlot k f).poison = x.poison := rfl
@[simp] theorem Tile.modSlot_errs (x : Tile) (k : Fin 8) (f : Slot → Slot) : (x.modSlot k f).errs = x.errs := rfl
@[simp] theorem Tile.modSlot_bfmt (x : Tile) (k : Fin 8) (f : Slot → Slot) : (x.modSlot k f).bfmt = x.bfmt := rfl
@[simp] theorem Tile.modSlot_mslot (x : Tile) (k : Fin 8) (f : Slot → Slot) : (x.modSlot k f).mslot = x.mslot := rfl
@[simp] theorem Tile.modSlot_perfsel (x : Tile) (k : Fin 8) (f : Slot → Slot) : (x.modSlot k f).perfsel = x.perfsel := rfl
@[simp] theorem Tile.modSlot_perfNew (x : Tile) (k : Fin 8) (f : Slot → Slot) : (x.modSlot k f).perfNew = x.perfNew := rfl
@[simp] theorem Tile.modSlot_perfcnt (x : Tile) (k : Fin 8) (f : Slot → Slot) : (x.modSlot k f).perfcnt = x.perfcnt := rfl
@[simp] theorem Tile.modSlot_trctl (x : Tile) (k : Fin 8) (f : Slot → Slot) : (x.modSlot k f).trctl = x.trctl := rfl
@[simp] theorem Tile.modSlot_probeDelay (x : Tile) (k : Fin 8) (f : Slot → Slot) : (x.modSlot k f).probeDelay = x.probeDelay := rfl
@[simp] theorem Tile.modSlot_decDeadline (x : Tile) (k : Fin 8) (f : Slot → Slot) : (x.modSlot k f).decDeadline = x.decDeadline := rfl
@[simp] theorem Tile.modSlot_retryLimit (x : Tile) (k : Fin 8) (f : Slot → Slot) : (x.modSlot k f).retryLimit = x.retryLimit := rfl
@[simp] theorem Tile.modSlot_inject (x : Tile) (k : Fin 8) (f : Slot → Slot) : (x.modSlot k f).inject = x.inject := rfl
@[simp] theorem Tile.modSlot_crate (x : Tile) (k : Fin 8) (f : Slot → Slot) : (x.modSlot k f).crate = x.crate := rfl
@[simp] theorem Tile.modSlot_lfsr (x : Tile) (k : Fin 8) (f : Slot → Slot) : (x.modSlot k f).lfsr = x.lfsr := rfl
@[simp] theorem Tile.modSlot_tileId (x : Tile) (k : Fin 8) (f : Slot → Slot) : (x.modSlot k f).tileId = x.tileId := rfl
@[simp] theorem Tile.modSlot_ready (x : Tile) (k : Fin 8) (f : Slot → Slot) : (x.modSlot k f).ready = x.ready := rfl
@[simp] theorem Tile.modSlot_watch (x : Tile) (k : Fin 8) (f : Slot → Slot) : (x.modSlot k f).watch = x.watch := rfl
@[simp] theorem Tile.modSlot_timers (x : Tile) (k : Fin 8) (f : Slot → Slot) : (x.modSlot k f).timers = x.timers := rfl
@[simp] theorem Tile.modSlot_wakeEval (x : Tile) (k : Fin 8) (f : Slot → Slot) : (x.modSlot k f).wakeEval = x.wakeEval := rfl
@[simp] theorem Tile.modSlot_voltaTarget (x : Tile) (k : Fin 8) (f : Slot → Slot) : (x.modSlot k f).voltaTarget = x.voltaTarget := rfl
@[simp] theorem Tile.modSlot_supSlot (x : Tile) (k : Fin 8) (f : Slot → Slot) : (x.modSlot k f).supSlot = x.supSlot := rfl
@[simp] theorem Tile.modSlot_defSup (x : Tile) (k : Fin 8) (f : Slot → Slot) : (x.modSlot k f).defSup = x.defSup := rfl
@[simp] theorem Tile.modSlot_strict (x : Tile) (k : Fin 8) (f : Slot → Slot) : (x.modSlot k f).strict = x.strict := rfl
@[simp] theorem Tile.modSlot_lastIssue (x : Tile) (k : Fin 8) (f : Slot → Slot) : (x.modSlot k f).lastIssue = x.lastIssue := rfl
@[simp] theorem Tile.modSlot_issuedAt (x : Tile) (k : Fin 8) (f : Slot → Slot) : (x.modSlot k f).issuedAt = x.issuedAt := rfl
@[simp] theorem Tile.modSlot_ends (x : Tile) (k : Fin 8) (f : Slot → Slot) : (x.modSlot k f).ends = x.ends := rfl
@[simp] theorem Tile.modSlot_execQ (x : Tile) (k : Fin 8) (f : Slot → Slot) : (x.modSlot k f).execQ = x.execQ := rfl
@[simp] theorem Tile.modSlot_violCount (x : Tile) (k : Fin 8) (f : Slot → Slot) : (x.modSlot k f).violCount = x.violCount := rfl
@[simp] theorem Tile.modSlot_viol (x : Tile) (k : Fin 8) (f : Slot → Slot) : (x.modSlot k f).viol = x.viol := rfl
@[simp] theorem Tile.modSlot_decTable (x : Tile) (k : Fin 8) (f : Slot → Slot) : (x.modSlot k f).decTable = x.decTable := rfl
@[simp] theorem Tile.modSlot_forward (x : Tile) (k : Fin 8) (f : Slot → Slot) : (x.modSlot k f).forward = x.forward := rfl
@[simp] theorem Tile.modSlot_vacated (x : Tile) (k : Fin 8) (f : Slot → Slot) : (x.modSlot k f).vacated = x.vacated := rfl
@[simp] theorem Tile.modSlot_left (x : Tile) (k : Fin 8) (f : Slot → Slot) : (x.modSlot k f).left = x.left := rfl
@[simp] theorem Tile.modSlot_trace (x : Tile) (k : Fin 8) (f : Slot → Slot) : (x.modSlot k f).trace = x.trace := rfl
@[simp] theorem Tile.modSlot_probeCtr (x : Tile) (k : Fin 8) (f : Slot → Slot) : (x.modSlot k f).probeCtr = x.probeCtr := rfl
@[simp] theorem Tile.modSlot_fab (x : Tile) (k : Fin 8) (f : Slot → Slot) : (x.modSlot k f).fab = x.fab := rfl

@[simp] theorem Tile.modVec_slots (x : Tile) (k : Fin 8) (f : VecCtx → VecCtx) : (x.modVec k f).slots = x.slots := rfl
@[simp] theorem Tile.modVec_mem (x : Tile) (k : Fin 8) (f : VecCtx → VecCtx) : (x.modVec k f).mem = x.mem := rfl
@[simp] theorem Tile.modVec_start (x : Tile) (k : Fin 8) (f : VecCtx → VecCtx) : (x.modVec k f).start = x.start := rfl
@[simp] theorem Tile.modVec_poison (x : Tile) (k : Fin 8) (f : VecCtx → VecCtx) : (x.modVec k f).poison = x.poison := rfl
@[simp] theorem Tile.modVec_errs (x : Tile) (k : Fin 8) (f : VecCtx → VecCtx) : (x.modVec k f).errs = x.errs := rfl
@[simp] theorem Tile.modVec_bfmt (x : Tile) (k : Fin 8) (f : VecCtx → VecCtx) : (x.modVec k f).bfmt = x.bfmt := rfl
@[simp] theorem Tile.modVec_mslot (x : Tile) (k : Fin 8) (f : VecCtx → VecCtx) : (x.modVec k f).mslot = x.mslot := rfl
@[simp] theorem Tile.modVec_perfsel (x : Tile) (k : Fin 8) (f : VecCtx → VecCtx) : (x.modVec k f).perfsel = x.perfsel := rfl
@[simp] theorem Tile.modVec_perfNew (x : Tile) (k : Fin 8) (f : VecCtx → VecCtx) : (x.modVec k f).perfNew = x.perfNew := rfl
@[simp] theorem Tile.modVec_perfcnt (x : Tile) (k : Fin 8) (f : VecCtx → VecCtx) : (x.modVec k f).perfcnt = x.perfcnt := rfl
@[simp] theorem Tile.modVec_trctl (x : Tile) (k : Fin 8) (f : VecCtx → VecCtx) : (x.modVec k f).trctl = x.trctl := rfl
@[simp] theorem Tile.modVec_probeDelay (x : Tile) (k : Fin 8) (f : VecCtx → VecCtx) : (x.modVec k f).probeDelay = x.probeDelay := rfl
@[simp] theorem Tile.modVec_decDeadline (x : Tile) (k : Fin 8) (f : VecCtx → VecCtx) : (x.modVec k f).decDeadline = x.decDeadline := rfl
@[simp] theorem Tile.modVec_retryLimit (x : Tile) (k : Fin 8) (f : VecCtx → VecCtx) : (x.modVec k f).retryLimit = x.retryLimit := rfl
@[simp] theorem Tile.modVec_inject (x : Tile) (k : Fin 8) (f : VecCtx → VecCtx) : (x.modVec k f).inject = x.inject := rfl
@[simp] theorem Tile.modVec_crate (x : Tile) (k : Fin 8) (f : VecCtx → VecCtx) : (x.modVec k f).crate = x.crate := rfl
@[simp] theorem Tile.modVec_lfsr (x : Tile) (k : Fin 8) (f : VecCtx → VecCtx) : (x.modVec k f).lfsr = x.lfsr := rfl
@[simp] theorem Tile.modVec_tileId (x : Tile) (k : Fin 8) (f : VecCtx → VecCtx) : (x.modVec k f).tileId = x.tileId := rfl
@[simp] theorem Tile.modVec_ready (x : Tile) (k : Fin 8) (f : VecCtx → VecCtx) : (x.modVec k f).ready = x.ready := rfl
@[simp] theorem Tile.modVec_watch (x : Tile) (k : Fin 8) (f : VecCtx → VecCtx) : (x.modVec k f).watch = x.watch := rfl
@[simp] theorem Tile.modVec_timers (x : Tile) (k : Fin 8) (f : VecCtx → VecCtx) : (x.modVec k f).timers = x.timers := rfl
@[simp] theorem Tile.modVec_wakeEval (x : Tile) (k : Fin 8) (f : VecCtx → VecCtx) : (x.modVec k f).wakeEval = x.wakeEval := rfl
@[simp] theorem Tile.modVec_voltaTarget (x : Tile) (k : Fin 8) (f : VecCtx → VecCtx) : (x.modVec k f).voltaTarget = x.voltaTarget := rfl
@[simp] theorem Tile.modVec_supSlot (x : Tile) (k : Fin 8) (f : VecCtx → VecCtx) : (x.modVec k f).supSlot = x.supSlot := rfl
@[simp] theorem Tile.modVec_defSup (x : Tile) (k : Fin 8) (f : VecCtx → VecCtx) : (x.modVec k f).defSup = x.defSup := rfl
@[simp] theorem Tile.modVec_strict (x : Tile) (k : Fin 8) (f : VecCtx → VecCtx) : (x.modVec k f).strict = x.strict := rfl
@[simp] theorem Tile.modVec_lastIssue (x : Tile) (k : Fin 8) (f : VecCtx → VecCtx) : (x.modVec k f).lastIssue = x.lastIssue := rfl
@[simp] theorem Tile.modVec_issuedAt (x : Tile) (k : Fin 8) (f : VecCtx → VecCtx) : (x.modVec k f).issuedAt = x.issuedAt := rfl
@[simp] theorem Tile.modVec_ends (x : Tile) (k : Fin 8) (f : VecCtx → VecCtx) : (x.modVec k f).ends = x.ends := rfl
@[simp] theorem Tile.modVec_execQ (x : Tile) (k : Fin 8) (f : VecCtx → VecCtx) : (x.modVec k f).execQ = x.execQ := rfl
@[simp] theorem Tile.modVec_violCount (x : Tile) (k : Fin 8) (f : VecCtx → VecCtx) : (x.modVec k f).violCount = x.violCount := rfl
@[simp] theorem Tile.modVec_viol (x : Tile) (k : Fin 8) (f : VecCtx → VecCtx) : (x.modVec k f).viol = x.viol := rfl
@[simp] theorem Tile.modVec_decTable (x : Tile) (k : Fin 8) (f : VecCtx → VecCtx) : (x.modVec k f).decTable = x.decTable := rfl
@[simp] theorem Tile.modVec_forward (x : Tile) (k : Fin 8) (f : VecCtx → VecCtx) : (x.modVec k f).forward = x.forward := rfl
@[simp] theorem Tile.modVec_vacated (x : Tile) (k : Fin 8) (f : VecCtx → VecCtx) : (x.modVec k f).vacated = x.vacated := rfl
@[simp] theorem Tile.modVec_left (x : Tile) (k : Fin 8) (f : VecCtx → VecCtx) : (x.modVec k f).left = x.left := rfl
@[simp] theorem Tile.modVec_trace (x : Tile) (k : Fin 8) (f : VecCtx → VecCtx) : (x.modVec k f).trace = x.trace := rfl
@[simp] theorem Tile.modVec_probeCtr (x : Tile) (k : Fin 8) (f : VecCtx → VecCtx) : (x.modVec k f).probeCtr = x.probeCtr := rfl
@[simp] theorem Tile.modVec_fab (x : Tile) (k : Fin 8) (f : VecCtx → VecCtx) : (x.modVec k f).fab = x.fab := rfl

@[simp] theorem Tile.perf_slots (x : Tile) (ev : Nat) (k : Option (Fin 8)) (n : Nat) : (x.perf ev k n).slots = x.slots := rfl
@[simp] theorem Tile.perf_vecs (x : Tile) (ev : Nat) (k : Option (Fin 8)) (n : Nat) : (x.perf ev k n).vecs = x.vecs := rfl
@[simp] theorem Tile.perf_mem (x : Tile) (ev : Nat) (k : Option (Fin 8)) (n : Nat) : (x.perf ev k n).mem = x.mem := rfl
@[simp] theorem Tile.perf_start (x : Tile) (ev : Nat) (k : Option (Fin 8)) (n : Nat) : (x.perf ev k n).start = x.start := rfl
@[simp] theorem Tile.perf_poison (x : Tile) (ev : Nat) (k : Option (Fin 8)) (n : Nat) : (x.perf ev k n).poison = x.poison := rfl
@[simp] theorem Tile.perf_errs (x : Tile) (ev : Nat) (k : Option (Fin 8)) (n : Nat) : (x.perf ev k n).errs = x.errs := rfl
@[simp] theorem Tile.perf_bfmt (x : Tile) (ev : Nat) (k : Option (Fin 8)) (n : Nat) : (x.perf ev k n).bfmt = x.bfmt := rfl
@[simp] theorem Tile.perf_mslot (x : Tile) (ev : Nat) (k : Option (Fin 8)) (n : Nat) : (x.perf ev k n).mslot = x.mslot := rfl
@[simp] theorem Tile.perf_perfsel (x : Tile) (ev : Nat) (k : Option (Fin 8)) (n : Nat) : (x.perf ev k n).perfsel = x.perfsel := rfl
@[simp] theorem Tile.perf_perfNew (x : Tile) (ev : Nat) (k : Option (Fin 8)) (n : Nat) : (x.perf ev k n).perfNew = x.perfNew := rfl
@[simp] theorem Tile.perf_trctl (x : Tile) (ev : Nat) (k : Option (Fin 8)) (n : Nat) : (x.perf ev k n).trctl = x.trctl := rfl
@[simp] theorem Tile.perf_probeDelay (x : Tile) (ev : Nat) (k : Option (Fin 8)) (n : Nat) : (x.perf ev k n).probeDelay = x.probeDelay := rfl
@[simp] theorem Tile.perf_decDeadline (x : Tile) (ev : Nat) (k : Option (Fin 8)) (n : Nat) : (x.perf ev k n).decDeadline = x.decDeadline := rfl
@[simp] theorem Tile.perf_retryLimit (x : Tile) (ev : Nat) (k : Option (Fin 8)) (n : Nat) : (x.perf ev k n).retryLimit = x.retryLimit := rfl
@[simp] theorem Tile.perf_inject (x : Tile) (ev : Nat) (k : Option (Fin 8)) (n : Nat) : (x.perf ev k n).inject = x.inject := rfl
@[simp] theorem Tile.perf_crate (x : Tile) (ev : Nat) (k : Option (Fin 8)) (n : Nat) : (x.perf ev k n).crate = x.crate := rfl
@[simp] theorem Tile.perf_lfsr (x : Tile) (ev : Nat) (k : Option (Fin 8)) (n : Nat) : (x.perf ev k n).lfsr = x.lfsr := rfl
@[simp] theorem Tile.perf_tileId (x : Tile) (ev : Nat) (k : Option (Fin 8)) (n : Nat) : (x.perf ev k n).tileId = x.tileId := rfl
@[simp] theorem Tile.perf_ready (x : Tile) (ev : Nat) (k : Option (Fin 8)) (n : Nat) : (x.perf ev k n).ready = x.ready := rfl
@[simp] theorem Tile.perf_watch (x : Tile) (ev : Nat) (k : Option (Fin 8)) (n : Nat) : (x.perf ev k n).watch = x.watch := rfl
@[simp] theorem Tile.perf_timers (x : Tile) (ev : Nat) (k : Option (Fin 8)) (n : Nat) : (x.perf ev k n).timers = x.timers := rfl
@[simp] theorem Tile.perf_wakeEval (x : Tile) (ev : Nat) (k : Option (Fin 8)) (n : Nat) : (x.perf ev k n).wakeEval = x.wakeEval := rfl
@[simp] theorem Tile.perf_voltaTarget (x : Tile) (ev : Nat) (k : Option (Fin 8)) (n : Nat) : (x.perf ev k n).voltaTarget = x.voltaTarget := rfl
@[simp] theorem Tile.perf_supSlot (x : Tile) (ev : Nat) (k : Option (Fin 8)) (n : Nat) : (x.perf ev k n).supSlot = x.supSlot := rfl
@[simp] theorem Tile.perf_defSup (x : Tile) (ev : Nat) (k : Option (Fin 8)) (n : Nat) : (x.perf ev k n).defSup = x.defSup := rfl
@[simp] theorem Tile.perf_strict (x : Tile) (ev : Nat) (k : Option (Fin 8)) (n : Nat) : (x.perf ev k n).strict = x.strict := rfl
@[simp] theorem Tile.perf_lastIssue (x : Tile) (ev : Nat) (k : Option (Fin 8)) (n : Nat) : (x.perf ev k n).lastIssue = x.lastIssue := rfl
@[simp] theorem Tile.perf_issuedAt (x : Tile) (ev : Nat) (k : Option (Fin 8)) (n : Nat) : (x.perf ev k n).issuedAt = x.issuedAt := rfl
@[simp] theorem Tile.perf_ends (x : Tile) (ev : Nat) (k : Option (Fin 8)) (n : Nat) : (x.perf ev k n).ends = x.ends := rfl
@[simp] theorem Tile.perf_execQ (x : Tile) (ev : Nat) (k : Option (Fin 8)) (n : Nat) : (x.perf ev k n).execQ = x.execQ := rfl
@[simp] theorem Tile.perf_violCount (x : Tile) (ev : Nat) (k : Option (Fin 8)) (n : Nat) : (x.perf ev k n).violCount = x.violCount := rfl
@[simp] theorem Tile.perf_viol (x : Tile) (ev : Nat) (k : Option (Fin 8)) (n : Nat) : (x.perf ev k n).viol = x.viol := rfl
@[simp] theorem Tile.perf_decTable (x : Tile) (ev : Nat) (k : Option (Fin 8)) (n : Nat) : (x.perf ev k n).decTable = x.decTable := rfl
@[simp] theorem Tile.perf_forward (x : Tile) (ev : Nat) (k : Option (Fin 8)) (n : Nat) : (x.perf ev k n).forward = x.forward := rfl
@[simp] theorem Tile.perf_vacated (x : Tile) (ev : Nat) (k : Option (Fin 8)) (n : Nat) : (x.perf ev k n).vacated = x.vacated := rfl
@[simp] theorem Tile.perf_left (x : Tile) (ev : Nat) (k : Option (Fin 8)) (n : Nat) : (x.perf ev k n).left = x.left := rfl
@[simp] theorem Tile.perf_trace (x : Tile) (ev : Nat) (k : Option (Fin 8)) (n : Nat) : (x.perf ev k n).trace = x.trace := rfl
@[simp] theorem Tile.perf_probeCtr (x : Tile) (ev : Nat) (k : Option (Fin 8)) (n : Nat) : (x.perf ev k n).probeCtr = x.probeCtr := rfl
@[simp] theorem Tile.perf_fab (x : Tile) (ev : Nat) (k : Option (Fin 8)) (n : Nat) : (x.perf ev k n).fab = x.fab := rfl

/-! ### Updates of a slot -/

@[simp] theorem Slot.setG_run (x : Slot) (n : BitVec 5) (v : Word) : (x.setG n v).run = x.run := by
  unfold Slot.setG; split <;> rfl
@[simp] theorem Slot.setG_e (x : Slot) (n : BitVec 5) (v : Word) : (x.setG n v).e = x.e := by
  unfold Slot.setG; split <;> rfl
@[simp] theorem Slot.setG_pc (x : Slot) (n : BitVec 5) (v : Word) : (x.setG n v).pc = x.pc := by
  unfold Slot.setG; split <;> rfl
@[simp] theorem Slot.setG_status (x : Slot) (n : BitVec 5) (v : Word) : (x.setG n v).status = x.status := by
  unfold Slot.setG; split <;> rfl
@[simp] theorem Slot.setG_cause (x : Slot) (n : BitVec 5) (v : Word) : (x.setG n v).cause = x.cause := by
  unfold Slot.setG; split <;> rfl
@[simp] theorem Slot.setG_epc (x : Slot) (n : BitVec 5) (v : Word) : (x.setG n v).epc = x.epc := by
  unfold Slot.setG; split <;> rfl
@[simp] theorem Slot.setG_eval (x : Slot) (n : BitVec 5) (v : Word) : (x.setG n v).eval = x.eval := by
  unfold Slot.setG; split <;> rfl
@[simp] theorem Slot.setG_tvec (x : Slot) (n : BitVec 5) (v : Word) : (x.setG n v).tvec = x.tvec := by
  unfold Slot.setG; split <;> rfl
@[simp] theorem Slot.setG_scratch (x : Slot) (n : BitVec 5) (v : Word) : (x.setG n v).scratch = x.scratch := by
  unfold Slot.setG; split <;> rfl
@[simp] theorem Slot.setG_cir (x : Slot) (n : BitVec 5) (v : Word) : (x.setG n v).cir = x.cir := by
  unfold Slot.setG; split <;> rfl
@[simp] theorem Slot.setG_wdog (x : Slot) (n : BitVec 5) (v : Word) : (x.setG n v).wdog = x.wdog := by
  unfold Slot.setG; split <;> rfl
@[simp] theorem Slot.setG_wdlim (x : Slot) (n : BitVec 5) (v : Word) : (x.setG n v).wdlim = x.wdlim := by
  unfold Slot.setG; split <;> rfl
@[simp] theorem Slot.setG_prio (x : Slot) (n : BitVec 5) (v : Word) : (x.setG n v).prio = x.prio := by
  unfold Slot.setG; split <;> rfl
@[simp] theorem Slot.setG_pid (x : Slot) (n : BitVec 5) (v : Word) : (x.setG n v).pid = x.pid := by
  unfold Slot.setG; split <;> rfl
@[simp] theorem Slot.setG_netid (x : Slot) (n : BitVec 5) (v : Word) : (x.setG n v).netid = x.netid := by
  unfold Slot.setG; split <;> rfl
@[simp] theorem Slot.setG_tenant (x : Slot) (n : BitVec 5) (v : Word) : (x.setG n v).tenant = x.tenant := by
  unfold Slot.setG; split <;> rfl
@[simp] theorem Slot.setG_ports (x : Slot) (n : BitVec 5) (v : Word) : (x.setG n v).ports = x.ports := by
  unfold Slot.setG; split <;> rfl
@[simp] theorem Slot.setG_handles (x : Slot) (n : BitVec 5) (v : Word) : (x.setG n v).handles = x.handles := by
  unfold Slot.setG; split <;> rfl
@[simp] theorem Slot.setG_errTag (x : Slot) (n : BitVec 5) (v : Word) : (x.setG n v).errTag = x.errTag := by
  unfold Slot.setG; split <;> rfl
@[simp] theorem Slot.setG_errRec (x : Slot) (n : BitVec 5) (v : Word) : (x.setG n v).errRec = x.errRec := by
  unfold Slot.setG; split <;> rfl
@[simp] theorem Slot.setG_comps (x : Slot) (n : BitVec 5) (v : Word) : (x.setG n v).comps = x.comps := by
  unfold Slot.setG; split <;> rfl
@[simp] theorem Slot.setG_errOut (x : Slot) (n : BitVec 5) (v : Word) : (x.setG n v).errOut = x.errOut := by
  unfold Slot.setG; split <;> rfl
@[simp] theorem Slot.setG_wait (x : Slot) (n : BitVec 5) (v : Word) : (x.setG n v).wait = x.wait := by
  unfold Slot.setG; split <;> rfl
@[simp] theorem Slot.setG_pend (x : Slot) (n : BitVec 5) (v : Word) : (x.setG n v).pend = x.pend := by
  unfold Slot.setG; split <;> rfl
@[simp] theorem Slot.setG_rupds (x : Slot) (n : BitVec 5) (v : Word) : (x.setG n v).rupds = x.rupds := by
  unfold Slot.setG; split <;> rfl
@[simp] theorem Slot.setG_farTag (x : Slot) (n : BitVec 5) (v : Word) : (x.setG n v).farTag = x.farTag := by
  unfold Slot.setG; split <;> rfl
@[simp] theorem Slot.setG_wdFired (x : Slot) (n : BitVec 5) (v : Word) : (x.setG n v).wdFired = x.wdFired := by
  unfold Slot.setG; split <;> rfl
@[simp] theorem Slot.setG_lastProbe (x : Slot) (n : BitVec 5) (v : Word) : (x.setG n v).lastProbe = x.lastProbe := by
  unfold Slot.setG; split <;> rfl

@[simp] theorem Slot.setE_run (x : Slot) (n : BitVec 3) (v : Word) : (x.setE n v).run = x.run := rfl
@[simp] theorem Slot.setE_g (x : Slot) (n : BitVec 3) (v : Word) : (x.setE n v).g = x.g := rfl
@[simp] theorem Slot.setE_pc (x : Slot) (n : BitVec 3) (v : Word) : (x.setE n v).pc = x.pc := rfl
@[simp] theorem Slot.setE_status (x : Slot) (n : BitVec 3) (v : Word) : (x.setE n v).status = x.status := rfl
@[simp] theorem Slot.setE_cause (x : Slot) (n : BitVec 3) (v : Word) : (x.setE n v).cause = x.cause := rfl
@[simp] theorem Slot.setE_epc (x : Slot) (n : BitVec 3) (v : Word) : (x.setE n v).epc = x.epc := rfl
@[simp] theorem Slot.setE_eval (x : Slot) (n : BitVec 3) (v : Word) : (x.setE n v).eval = x.eval := rfl
@[simp] theorem Slot.setE_tvec (x : Slot) (n : BitVec 3) (v : Word) : (x.setE n v).tvec = x.tvec := rfl
@[simp] theorem Slot.setE_scratch (x : Slot) (n : BitVec 3) (v : Word) : (x.setE n v).scratch = x.scratch := rfl
@[simp] theorem Slot.setE_cir (x : Slot) (n : BitVec 3) (v : Word) : (x.setE n v).cir = x.cir := rfl
@[simp] theorem Slot.setE_wdog (x : Slot) (n : BitVec 3) (v : Word) : (x.setE n v).wdog = x.wdog := rfl
@[simp] theorem Slot.setE_wdlim (x : Slot) (n : BitVec 3) (v : Word) : (x.setE n v).wdlim = x.wdlim := rfl
@[simp] theorem Slot.setE_prio (x : Slot) (n : BitVec 3) (v : Word) : (x.setE n v).prio = x.prio := rfl
@[simp] theorem Slot.setE_pid (x : Slot) (n : BitVec 3) (v : Word) : (x.setE n v).pid = x.pid := rfl
@[simp] theorem Slot.setE_netid (x : Slot) (n : BitVec 3) (v : Word) : (x.setE n v).netid = x.netid := rfl
@[simp] theorem Slot.setE_tenant (x : Slot) (n : BitVec 3) (v : Word) : (x.setE n v).tenant = x.tenant := rfl
@[simp] theorem Slot.setE_ports (x : Slot) (n : BitVec 3) (v : Word) : (x.setE n v).ports = x.ports := rfl
@[simp] theorem Slot.setE_handles (x : Slot) (n : BitVec 3) (v : Word) : (x.setE n v).handles = x.handles := rfl
@[simp] theorem Slot.setE_errTag (x : Slot) (n : BitVec 3) (v : Word) : (x.setE n v).errTag = x.errTag := rfl
@[simp] theorem Slot.setE_errRec (x : Slot) (n : BitVec 3) (v : Word) : (x.setE n v).errRec = x.errRec := rfl
@[simp] theorem Slot.setE_comps (x : Slot) (n : BitVec 3) (v : Word) : (x.setE n v).comps = x.comps := rfl
@[simp] theorem Slot.setE_errOut (x : Slot) (n : BitVec 3) (v : Word) : (x.setE n v).errOut = x.errOut := rfl
@[simp] theorem Slot.setE_wait (x : Slot) (n : BitVec 3) (v : Word) : (x.setE n v).wait = x.wait := rfl
@[simp] theorem Slot.setE_pend (x : Slot) (n : BitVec 3) (v : Word) : (x.setE n v).pend = x.pend := rfl
@[simp] theorem Slot.setE_rupds (x : Slot) (n : BitVec 3) (v : Word) : (x.setE n v).rupds = x.rupds := rfl
@[simp] theorem Slot.setE_farTag (x : Slot) (n : BitVec 3) (v : Word) : (x.setE n v).farTag = x.farTag := rfl
@[simp] theorem Slot.setE_wdFired (x : Slot) (n : BitVec 3) (v : Word) : (x.setE n v).wdFired = x.wdFired := rfl
@[simp] theorem Slot.setE_lastProbe (x : Slot) (n : BitVec 3) (v : Word) : (x.setE n v).lastProbe = x.lastProbe := rfl

end Sys2Proof.Machine
end

