-- ==== Sys2Proof/Laws/Ops.lean ====
section
/-!
SUPPORT. What each shared operation can do, said once: tiles and slots after an update, how a body ends, trap entry and
return, and the shapes of the scalar instructions.
-/
namespace Sys2Proof.Machine

/-! ### Tiles and slots -/

theorem State.tile_setTile (s : State) (t n : Nat) (x : Tile) :
    (s.setTile t x).tile n = if t = n then x else s.tile n := by
  simp [State.tile, State.setTile, mapGet_mapSet]

@[simp] theorem State.tile_setTile_self (s : State) (t : Nat) (x : Tile) : (s.setTile t x).tile t = x := by
  simp [State.tile_setTile]

theorem State.tile_modTile (s : State) (t n : Nat) (f : Tile → Tile) :
    (s.modTile t f).tile n = if t = n then f (s.tile t) else s.tile n := by
  simp [State.modTile, State.tile_setTile]

@[simp] theorem State.tile_modTile_self (s : State) (t : Nat) (f : Tile → Tile) :
    (s.modTile t f).tile t = f (s.tile t) := by simp [State.tile_modTile]

theorem State.tile_modTile_ne (s : State) (t n : Nat) (f : Tile → Tile) (h : t ≠ n) :
    (s.modTile t f).tile n = s.tile n := by simp [State.tile_modTile, h]

@[simp] theorem State.setTile_setTile (s : State) (t : Nat) (x y : Tile) :
    (s.setTile t x).setTile t y = s.setTile t y := by
  simp [State.setTile]

@[simp] theorem State.modTile_modTile (s : State) (t : Nat) (f g : Tile → Tile) :
    (s.modTile t f).modTile t g = s.modTile t fun x => g (f x) := by
  simp [State.modTile]

theorem Tile.modSlot_slot (x : Tile) (k j : Fin 8) (f : Slot → Slot) :
    (x.modSlot k f).slots[j] = if k = j then f x.slots[k] else x.slots[j] := by
  by_cases h : k = j
  · subst h
    simp [Tile.modSlot]
  · have : k.val ≠ j.val := fun e => h (Fin.ext e)
    simp [Tile.modSlot, h, Vector.getElem_set_ne _ _ this]

@[simp] theorem Tile.modSlot_modSlot (x : Tile) (k : Fin 8) (f g : Slot → Slot) :
    (x.modSlot k f).modSlot k g = x.modSlot k fun y => g (f y) := by
  simp [Tile.modSlot, Vector.set_set]

theorem State.slot_modSlot (s : State) (t n : Nat) (k j : Fin 8) (f : Slot → Slot) :
    (s.modSlot t k f).slot n j = if t = n ∧ k = j then f (s.slot t k) else s.slot n j := by
  unfold State.slot State.modSlot
  rw [State.tile_modTile]
  by_cases h : t = n
  · subst h
    simpa using Tile.modSlot_slot (s.tile t) k j f
  · simp [h]

@[simp] theorem State.slot_modSlot_self (s : State) (t : Nat) (k : Fin 8) (f : Slot → Slot) :
    (s.modSlot t k f).slot t k = f (s.slot t k) := by simp [State.slot_modSlot]

@[simp] theorem State.modSlot_modSlot (s : State) (t : Nat) (k : Fin 8) (f g : Slot → Slot) :
    (s.modSlot t k f).modSlot t k g = s.modSlot t k fun x => g (f x) := by
  simp [State.modSlot]

@[simp] theorem State.me_updMe (s : State) (f : Slot → Slot) : (s.updMe f).me = f s.me := by
  simp [State.me, State.updMe]

@[simp] theorem State.updMe_updMe (s : State) (f g : Slot → Slot) : (s.updMe f).updMe g = s.updMe fun x => g (f x) := by
  simp [State.updMe]

@[simp] theorem State.myTile_updTile (s : State) (f : Tile → Tile) : (s.updTile f).myTile = f s.myTile := by
  simp [State.myTile, State.updTile]

theorem State.myTile_updMe (s : State) (f : Slot → Slot) : (s.updMe f).myTile = s.myTile.modSlot s.cur.slot f := by
  simp [State.myTile, State.updMe, State.modSlot]

@[simp] theorem State.mem_updMe (s : State) (f : Slot → Slot) (n : Nat) : ((s.updMe f).tile n).mem = (s.tile n).mem := by
  simp only [State.updMe, State.modSlot, State.tile_modTile]
  by_cases h : s.cur.tile = n
  · subst h; simp
  · simp [h]

@[simp] theorem State.vec_updMe (s : State) (f : Slot → Slot) : (s.updMe f).vec = s.vec := by
  simp [State.vec, State.myTile_updMe]

@[simp] theorem State.me_updVec (s : State) (f : VecCtx → VecCtx) : (s.updVec f).me = s.me := by
  simp [State.me, State.slot, State.updVec, State.updTile]

@[simp] theorem State.vec_updVec (s : State) (f : VecCtx → VecCtx) : (s.updVec f).vec = f s.vec := by
  simp [State.vec, State.myTile, State.updVec, State.updTile, Tile.modVec]

/-! ### Registers (04_scalar_registers.md R141) -/

@[simp] theorem Slot.getG_zero (x : Slot) : x.getG 0 = 0 := rfl

theorem toNat_ne {w : Nat} {a b : BitVec w} (h : a ≠ b) : a.toNat ≠ b.toNat := fun e => h (BitVec.eq_of_toNat_eq e)

/-- What a g register reads after one is written: g0 stays 0. -/
theorem Slot.getG_setG (x : Slot) (d n : BitVec 5) (v : Word) :
    (x.setG d v).getG n = if n = d ∧ d ≠ 0 then v else x.getG n := by
  by_cases hd : d = 0
  · subst hd; simp [Slot.setG]
  · by_cases hn : n = 0
    · subst hn
      have : ¬ (0#5 = d) := fun e => hd e.symm
      simp [Slot.getG, this]
    · have hd' : ¬ d = 0#5 := hd
      have hn' : ¬ n = 0#5 := hn
      by_cases h : n = d
      · subst h; simp [Slot.getG, Slot.setG, hd']
      · have := toNat_ne (fun e : d = n => h e.symm)
        simp [Slot.getG, Slot.setG, hd', hn', h, Vector.getElem_set_ne _ _ this]

theorem Slot.getE_setE (x : Slot) (d n : BitVec 3) (v : Word) :
    (x.setE d v).getE n = if n = d then v else x.getE n := by
  by_cases h : n = d
  · subst h; simp [Slot.getE, Slot.setE]
  · have := toNat_ne (fun e : d = n => h e.symm)
    simp [Slot.getE, Slot.setE, h, Vector.getElem_set_ne _ _ this]

/-! ### A register write and the rest of the slot -/

theorem Slot.setG_zero (x : Slot) (v : Word) : x.setG 0 v = x := rfl

theorem Slot.setG_of_ne (x : Slot) (d : BitVec 5) (v : Word) (h : d ≠ 0) :
    x.setG d v = { x with g := x.g.set d.toFin v } := if_neg h

/-- A register write and a change of the PC and the wait commute. -/
theorem Slot.setG_with (x : Slot) (d : BitVec 5) (v pc : Word) (w : Option Wait) :
    ({ x with pc := pc, wait := w } : Slot).setG d v = { x.setG d v with pc := pc, wait := w } := by
  unfold Slot.setG; split <;> rfl

/-! ### How a body ends -/

@[simp] theorem Slot.tidyStop_of_ne (x : Slot) (h : x.run ≠ .stopping) (k : x.run ≠ .halting) : x.tidyStop = x := by
  unfold Slot.tidyStop
  split
  · exact absurd ‹_› h
  · exact absurd ‹_› k
  · rfl

/-- A body that ends well in a slot that is not to stop or halt: its wait is over, and nothing else is added. -/
theorem State.settle_ok (s t : State) (h : t.me.run ≠ .stopping) (k : t.me.run ≠ .halting) :
    s.settle (.ok t) = t.updMe fun x => { x with wait := none } := by
  simp only [State.settle, State.settleBody, State.updMe_updMe]
  have e : ({ t.me with wait := none } : Slot).tidyStop = { t.me with wait := none } := Slot.tidyStop_of_ne _ h k
  change t.setTile t.cur.tile _ = t.setTile t.cur.tile _
  congr 1
  exact congrArg (fun y => { t.tile t.cur.tile with slots := (t.tile t.cur.tile).slots.set t.cur.slot y }) e

theorem runBody_up (s : State) (b : Body) (h : s.dev.railUp = true) : runBody s b = .next (s.settle (b s)) := by
  simp [runBody, h]

theorem runEvent_up (s : State) (f : State → State) (h : s.dev.railUp = true) : runEvent s f = .next (f s) := by
  simp [runEvent, h]

theorem runBody_down (s : State) (b : Body) (h : s.dev.railUp = false) : runBody s b = .fault .coreRailCut := by
  simp [runBody, h]

theorem runEvent_down (s : State) (f : State → State) (h : s.dev.railUp = false) :
    runEvent s f = .fault .coreRailCut := by simp [runEvent, h]

/-- A body that ends well, as one outcome. -/
theorem runBody_ok (s t : State) (b : Body) (h : s.dev.railUp = true) (hb : b s = .ok t) (hr : t.me.run ≠ .stopping)
    (hk : t.me.run ≠ .halting) : runBody s b = .next (t.updMe fun x => { x with wait := none }) := by
  rw [runBody_up s b h, hb, State.settle_ok s t hr hk]

/-- A body that traps. -/
theorem runBody_trap (s : State) (b : Body) (c : BitVec 8) (v : Word) (h : s.dev.railUp = true)
    (hb : b s = .error (.trap c v)) :
    runBody s b = .next ((s.trapAt c v s.me.pc).updMe Slot.tidyStop) := by
  rw [runBody_up s b h, hb]
  rfl

/-! ### The scalar shapes -/

/-- An operation none of whose operands is windowed. -/
theorem scalarOp_plain (reads : List (BitVec 5)) (dst : Option (BitVec 5))
    (f : State → List Word → Except Stop (State × Word × Bool)) (s : State)
    (hr : ∀ n ∈ reads, s.me.isWin n = false) (hd : ∀ n ∈ dst, s.me.isWin n = false) :
    scalarOp reads dst f s =
      match f s (reads.map s.g) with
      | .error e => .error e
      | .ok (s', v, _) => .ok (dst.elim s' fun d => s'.setG d v) := by
  have h1 : reads.any s.me.isWin = false := by simpa using hr
  have h2 : dst.any s.me.isWin = false := by
    cases dst with
    | none => rfl
    | some d => simpa using hd d rfl
  cases dst <;> simp [scalarOp, h1, h2] <;> rfl

/-- With STATUS.PW = 0 no operand is windowed (R144). -/
theorem Slot.isWin_of_pw (x : Slot) (n : BitVec 5) (h : x.pw = false) : x.isWin n = false := by
  simp [Slot.isWin, h]

/-- Registers g0 to g15 are never windowed (R144). -/
theorem Slot.isWin_low (x : Slot) (n : BitVec 5) (h : n.toNat < 16) : x.isWin n = false := by
  simp [Slot.isWin, show ¬ 16 ≤ n.toNat by omega]

end Sys2Proof.Machine
end

