-- ==== Sys2Proof/Tests/Slice0.lean ====
section
/-!
SUPPORT. Small checks of the model, and a state that meets the hypotheses of each statement.
-/
namespace Sys2Proof.Tests

open Sys2Proof Sys2Proof.Machine

set_option Elab.async false



/-! ### Small states -/

/-- A package whose slot 0 of tile 0 runs, its context changed by `f`. -/
def one (f : Slot → Slot) : State := State.reset.modSlot 0 0 fun x => f { x with run := .running }

/-- The same with its tile changed by `g`. -/
def oneOn (g : Tile → Tile) (f : Slot → Slot) : State := (one f).modTile 0 g

/-- Slot 0 of tile 0 runs and nothing else is set. -/
def plain : State := one id

/-- Code memory in which an instruction begins at every halfword. -/
def started (x : Tile) : Tile := { x with start := BitVec.allOnes 32768 }

/-- What an access to a page that is missing may touch. -/
def anyReach : Reach where
  mem := none
  lo := 0
  hi := 0
  via := none
  so := false

/-- A receive end with no token. -/
def inEnd : RecvEnd where
  netid := 1
  chan := 5
  pid := 9
  port := 0
  slot := 0
  peer := ⟨.tile, 1⟩
  state := .open
  nextSeq := 0
  base := 0xC0000
  decl := 4
  cap := 4
  held := []
  endRec := none
  toe := false
  returned := 0
  grown := 0
  dead := false
  exts := []
  joined := 0
  wpos := 0
  spilled := []
  early := []
  ahead := []
  reading := false
  claims := []

/-- A send end with one credit. -/
def outEnd : SendEnd where
  netid := 1
  chan := 5
  pid := 9
  port := 0
  slot := 0
  peer := ⟨.tile, 1⟩
  state := .open
  credits := 1
  cumul := 4
  nextSeq := 0
  noticed := false
  cap := 4
  room := 4

/-- A slot with the port window on, whose port 0 is bound to `e`. -/
def bound (e : EndPt) : State :=
  oneOn (fun x => { x with ends := [(0, e)] })
    fun x => { x with status := 1, ports := x.ports.set 0 (mkDesc 0 5 (match e with
      | .send _ => true
      | .recv _ => false)) }

/-- A process of network 1 in slot 0 of tile 0. -/
def proc0 : Proc where
  netid := 1
  tnt := 1
  idx := 0
  pid := 9
  tile := 0
  slot := 0
  vector := true
  sup := false
  rcb := Rcb.package
  codeEnd := 0xD0000
  dataEnd := 0xC0000

/-- The process placed. -/
def placed (s : State) : State := s.modMgr fun m => { m with procs := [proc0] }

/-! ### Hypotheses met: scalar instructions, the port window, traps -/

theorem witness_TwoSourceResult : ∃ i len d a t f, TwoSource i len d a t f ∧ Ready plain ∧ Plain plain [a, t, d] :=
  ⟨_, _, _, _, _, _, .add 31 0 1, ⟨rfl, rfl⟩, by unfold Plain; decide +kernel⟩

theorem witness_OneSourceResult : ∃ i len d a f, OneSource i len d a f ∧ Ready plain ∧ Plain plain [a, d] :=
  ⟨_, _, _, _, _, .clz 31 0, ⟨rfl, rfl⟩, by unfold Plain; decide +kernel⟩

theorem witness_NoSourceResult : ∃ i len d f, NoSource i len d f ∧ Ready plain ∧ Plain plain [d] :=
  ⟨_, _, _, _, .oxr 31 7, ⟨rfl, rfl⟩, by unfold Plain; decide +kernel⟩

theorem witness_ExtensionMoves : Ready plain ∧ Plain plain [31] := ⟨⟨rfl, rfl⟩, by unfold Plain; decide +kernel⟩

theorem witness_HintsDoNothing : Ready plain := ⟨rfl, rfl⟩

/-- A branch not taken, one whose target is code, and one whose target lies below code memory. -/
theorem witness_BranchResult :
    (∃ i len a t o c, Branch i len a t o c ∧ Ready plain ∧ Plain plain [a, t] ∧ c (plain.g a) (plain.g t) = false) ∧
    (∃ i len a t o c s, Branch i len a t o c ∧ Ready s ∧ Plain s [a, t] ∧ c (s.g a) (s.g t) = true ∧
      s.myTile.checkTarget (BitVec.ofInt 64 (s.me.pc.toInt + 2 * o)) = none) ∧
    ∃ i len a t o c k v, Branch i len a t o c ∧ Ready plain ∧ Plain plain [a, t] ∧ c (plain.g a) (plain.g t) = true ∧
      plain.myTile.checkTarget (BitVec.ofInt 64 (plain.me.pc.toInt + 2 * o)) = some (k, v) :=
  ⟨⟨_, _, _, _, _, _, .bne 2 0 1, ⟨rfl, rfl⟩, by unfold Plain; decide +kernel, by decide +kernel⟩,
   ⟨_, _, _, _, _, _, oneOn started id, .beq 0 0 1, ⟨rfl, rfl⟩, by unfold Plain; decide +kernel, by decide +kernel,
     by decide +kernel⟩,
   ⟨_, _, _, _, _, _, 0x02, 0xD1FFE, .beq 0xFFF 0 1, ⟨rfl, rfl⟩, by unfold Plain; decide +kernel, by decide +kernel,
     by decide +kernel⟩⟩

theorem witness_JumpResult :
    (∃ i len d a f s, Jump i len d a f ∧ Ready s ∧ Plain s [a, d] ∧ s.myTile.checkTarget (f s.me.pc (s.g a)) = none) ∧
    ∃ i len d a f k v, Jump i len d a f ∧ Ready plain ∧ Plain plain [a, d] ∧
      plain.myTile.checkTarget (f plain.me.pc (plain.g a)) = some (k, v) :=
  ⟨⟨_, _, _, _, _, oneOn started id, .jal 0 1, ⟨rfl, rfl⟩, by unfold Plain; decide +kernel, by decide +kernel⟩,
   ⟨_, _, _, _, _, 0x04, 1, .jalr 1 31 0, ⟨rfl, rfl⟩, by unfold Plain; decide +kernel, by decide +kernel⟩⟩

/-- One token for one windowed source, two for two, and an end token without the trap-on-end bit. -/
theorem witness_WindowReceive :
    (∃ i len d a t f j e v p, let s := bound (.recv { inEnd with held := [(0, true)] });
      TwoSource i len d a t f ∧ Ready s ∧ WinRecv s a j e ∧ Plain s [d] ∧ Plain s [t] ∧ 0 < e.avail 1 ∧
        e.tokenAt s.myTile.mem 0 = (v, p)) ∧
    (∃ i len d a t f j e v w p q, let s := bound (.recv { inEnd with held := [(0, true), (1, false)] });
      TwoSource i len d a t f ∧ Ready s ∧ WinRecv s a j e ∧ Plain s [d] ∧ t = a ∧ 1 < e.avail 2 ∧
        e.tokenAt s.myTile.mem 0 = (v, p) ∧ e.tokenAt s.myTile.mem 1 = (w, q)) ∧
    ∃ i len d a t f j e, let s := bound (.recv { inEnd with endRec := some (0, true) });
      TwoSource i len d a t f ∧ Ready s ∧ WinRecv s a j e ∧ Plain s [d] ∧ Plain s [t] ∧ e.avail 1 = 0 ∧
        e.endAfter 0 = true ∧ e.toe = false :=
  ⟨⟨_, _, _, _, _, _, 0, { inEnd with held := [(0, true)] }, _, _, .add 15 1 16, ⟨rfl, rfl⟩, ⟨by decide +kernel, by decide +kernel⟩, by unfold Plain; decide +kernel,
     by unfold Plain; decide +kernel, by decide +kernel, rfl⟩,
   ⟨_, _, _, _, _, _, 0, { inEnd with held := [(0, true), (1, false)] }, _, _, _, _, .add 16 1 16, ⟨rfl, rfl⟩, ⟨by decide +kernel, by decide +kernel⟩, by unfold Plain; decide +kernel, rfl,
     by decide +kernel, rfl, rfl⟩,
   ⟨_, _, _, _, _, _, 0, { inEnd with endRec := some (0, true) }, .add 15 1 16, ⟨rfl, rfl⟩, ⟨by decide +kernel, by decide +kernel⟩, by unfold Plain; decide +kernel,
     by unfold Plain; decide +kernel, by decide +kernel, by decide +kernel, rfl⟩⟩

theorem witness_WindowSend : ∃ i len d a t f j e, let s := bound (.send outEnd);
    TwoSource i len d a t f ∧ Ready s ∧ Plain s [a, t] ∧ WinSend s d j e ∧ 0 < e.credits ∧ s.released = true :=
  ⟨_, _, _, _, _, _, 0, outEnd, .add 15 16 1, ⟨rfl, rfl⟩, by unfold Plain; decide +kernel, ⟨by decide +kernel, by decide +kernel, rfl, rfl⟩, by decide,
   by decide +kernel⟩

theorem ok_of {ε α : Type} {x : Except ε α} {y : α} (h : x.toOption = some y) : x = .ok y := by
  cases x with
  | ok v => simp only [Except.toOption, Option.some.injEq] at h; rw [h]
  | error _ => simp [Except.toOption] at h

/-- A token that is an address, a branch's operand, a jump's target, a base or data. -/
theorem witness_WindowForms :
    (∃ (v : Word), let s := (bound (.recv { inEnd with held := [(0, true)] })).modTile 0 started; ∃ e, Ready s ∧ WinRecv s 16 0 e ∧ 0 < e.avail 1 ∧
      e.tokenAt s.myTile.mem 0 = (v, true) ∧ OneSource (.addi 1 1 16) 4 1 16 (fun x => BitVec.ofInt 64 (x.toInt + (1 : BitVec 13).toInt)) ∧
      (∃ i len t o c, Branch i len 16 t o c ∧ Plain s [t] ∧ c v (s.g t) = true ∧ s.myTile.checkTarget (BitVec.ofInt 64 (s.me.pc.toInt + 2 * o)) = none) ∧
      (∃ i len t o c, Branch i len 16 t o c ∧ Plain s [t] ∧ c v (s.g t) = false) ∧
      (∃ i len b ext off d, LoadForm i len b ext off d 16 ∧ Plain s [d] ∧
        s.scalarCheck false (BitVec.ofInt 64 (v.toInt + off)) b = .ok (.tile 0 8) ∧ (s.tile 0).errs = 0) ∧
      (∃ i len b off d, StoreForm i len b off d 16 ∧ Plain s [d] ∧ s.scalarCheck true (BitVec.ofInt 64 (v.toInt + off)) b = .ok (.tile 0 8)) ∧
      ∃ i len b off a, StoreForm i len b off 16 a ∧ Plain s [a] ∧ s.released = true ∧
        s.scalarCheck true (BitVec.ofInt 64 ((s.g a).toInt + off)) b = .ok (.tile 0 8)) ∧
    (let s := (bound (.recv { inEnd with held := [(0, false)] })).modTile 0 fun x => { started x with mem := [(0xC0002, 0x0D)] }
      ∃ e, WinRecv s 16 0 e ∧ e.tokenAt s.myTile.mem 0 = (0xD0000, false) ∧ s.myTile.checkTarget (BitVec.ofInt 64 ((0xD0000 : Word).toInt + (0 : BitVec 13).toInt)) = none) ∧
    let s := (bound (.send outEnd)).modTile 0 started
    Ready s ∧ WinSend s 16 0 outEnd ∧ 0 < outEnd.credits ∧ s.released = true ∧
      (∃ i len a f, OneSource i len 16 a f ∧ Plain s [a]) ∧ (∃ i len f, NoSource i len 16 f) ∧
      (∃ i len a f, Jump i len 16 a f ∧ Plain s [a] ∧ s.myTile.checkTarget (f s.me.pc (s.g a)) = none) ∧
      ∃ i len b ext off a, LoadForm i len b ext off 16 a ∧ Plain s [a] ∧ s.scalarCheck false (effAddr s a off) b = .ok (.tile 0 8) ∧ (s.tile 0).errs = 0 := by
  refine ⟨⟨0, { inEnd with held := [(0, true)] }, ⟨rfl, rfl⟩, ⟨by decide +kernel, by decide +kernel⟩, by decide +kernel, rfl, .addi 1 1 16,
      ⟨_, _, _, _, _, .beq 2 16 0, ?_⟩, ⟨_, _, _, _, _, .bne 2 16 0, ?_⟩, ⟨_, _, _, _, _, _, .ldD 8 1 16, ?_, ok_of (by decide +kernel), rfl⟩,
      ⟨_, _, _, _, _, .stD 8 1 16, ?_, ok_of (by decide +kernel)⟩, _, _, _, _, _, .stRel 8 16 0, ?_, by decide +kernel, ok_of (by decide +kernel)⟩,
    ⟨{ inEnd with held := [(0, false)] }, ⟨by decide +kernel, by decide +kernel⟩, by decide +kernel⟩,
    ⟨rfl, rfl⟩, ⟨by decide +kernel, by decide +kernel, rfl, rfl⟩, by decide, by decide +kernel,
    ⟨_, _, _, _, .addi 1 16 1, ?_⟩, ⟨_, _, _, .ldhi 1 16⟩, ⟨_, _, _, _, .jal 2 16, ?_⟩, _, _, _, _, _, _, .ldD 8 16 0, ?_, ok_of (by decide +kernel), rfl⟩ <;>
    unfold Plain <;> decide +kernel

/-- An empty port, a full channel, an update outstanding, an unbound source, an unbound destination, and an end token with the trap-on-end bit. -/
theorem witness_WindowStops :
    (let s := bound (.recv inEnd); Windowed (.sub 15 0 16) [16, 15] (some 0) ∧ Ready s ∧ WinRecv s 16 0 inEnd ∧
      [16, 15].filter s.me.isWin = [16] ∧ s.me.isWin 0 = false ∧ inEnd.avail 1 = 0 ∧ inEnd.endAfter 0 = false ∧ inEnd.spilled = []) ∧
    (let e := { outEnd with credits := 0 }; let s := bound (.send e);
      Windowed (.jal 0 16) [] (some 16) ∧ Ready s ∧ Plain s [] ∧ WinSend s 16 0 e ∧ e.credits = 0) ∧
    (let s := (bound (.send outEnd)).modSlot 0 0 fun x => { x with rupds := [(0, anyReach)] };
      Windowed (.ldD 0 16 1) [1] (some 16) ∧ Ready s ∧ Plain s [1] ∧ WinSend s 16 0 outEnd ∧ 0 < outEnd.credits ∧ s.released = false) ∧
    (let s := bound (.recv inEnd); Windowed (.beq 0 31 0) [31, 0] none ∧ Ready s ∧ [31, 0].find? s.me.isWin = some 31 ∧ s.recvAtPort (portOf 31) = none) ∧
    (let s := bound (.recv inEnd); Windowed (.oxr 31 0) [] (some 31) ∧ Ready s ∧ Plain s [] ∧ s.me.isWin 31 = true ∧ s.sendAtPort (portOf 31) = none) ∧
    let e := { inEnd with endRec := some (0, false), toe := true }; let s := bound (.recv e);
      Windowed (.stD 0 16 1) [1, 16] none ∧ Ready s ∧ WinRecv s 16 0 e ∧ [1, 16].filter s.me.isWin = [16] ∧ e.avail 1 = 0 ∧ e.endAfter 0 = true ∧ e.toe = true :=
  ⟨⟨.two _ _ _ _ _ _ (.sub 15 0 16), ⟨rfl, rfl⟩, ⟨by decide +kernel, by decide +kernel⟩, by decide +kernel⟩,
   ⟨.jal _ _, ⟨rfl, rfl⟩, by unfold Plain; decide +kernel, ⟨by decide +kernel, by decide +kernel, rfl, rfl⟩, rfl⟩,
   ⟨.load _ _ _ _ _ _ _ (.ldD 0 16 1), ⟨rfl, rfl⟩, by unfold Plain; decide +kernel, ⟨by decide +kernel, by decide +kernel, rfl, rfl⟩, by decide +kernel⟩,
   ⟨.branch _ _ _ _ _ _ (.beq 0 31 0), ⟨rfl, rfl⟩, by decide +kernel⟩,
   ⟨.none _ _ _ _ (.oxr 31 0), ⟨rfl, rfl⟩, by unfold Plain; decide +kernel, by decide +kernel⟩,
   .store _ _ _ _ _ _ (.stD 0 16 1), ⟨rfl, rfl⟩, ⟨by decide +kernel, by decide +kernel⟩, by decide +kernel⟩

theorem witness_TokensTaken : let s := bound (.recv { inEnd with held := [(0, false)] });
    0 < 1 ∧ mapFind s.myTile.ends 0 = some (.recv { inEnd with held := [(0, false)] }) ∧
      ({ inEnd with held := [(0, false)] } : RecvEnd).early = [] ∧ ({ inEnd with held := [(0, false)] } : RecvEnd).spilled = [] ∧
      ({ inEnd with held := [(0, false)] } : RecvEnd).ahead = [] := ⟨by decide, rfl, rfl, rfl, rfl⟩

/-- A slot of tile 0 whose handler lies at the start of code. -/
def handled (f : Slot → Slot) : State := oneOn started fun x => f { x with tvec := 0xD0000 }

theorem witness_TrapEntry : HandlerRuns (handled id) := ⟨by decide +kernel, by decide +kernel, rfl⟩

/-- TD set, and a handler address outside code; a process is placed in both. -/
theorem witness_DoubleFault :
    (∃ p, let s := placed (one fun x => { x with status := 4 });
      s.cur.slot ≠ s.myTile.supSlot ∧ s.myTile.defSup = false ∧ s.me.run = .running ∧ s.me.td = true ∧
        s.procAt s.cur.tile s.cur.slot.val = some p) ∧
    ∃ p, let s := placed plain;
      s.cur.slot ≠ s.myTile.supSlot ∧ s.myTile.defSup = false ∧ s.me.run = .running ∧ s.myTile.checkTarget s.me.tvec ≠ none ∧
        s.procAt s.cur.tile s.cur.slot.val = some p :=
  ⟨⟨proc0, by decide +kernel, rfl, rfl, by decide +kernel, by decide +kernel⟩,
   ⟨proc0, by decide +kernel, rfl, rfl, by decide +kernel, by decide +kernel⟩⟩

theorem witness_DefaultSupervisor : let s := placed (oneOn (fun x => { x with defSup := true }) id);
    s.cur.slot ≠ s.myTile.supSlot ∧ s.myTile.defSup = true ∧ s.me.run = .running ∧ s.me.td = false ∧
      s.procAt s.cur.tile s.cur.slot.val = some proc0 :=
  ⟨by decide +kernel, rfl, rfl, by decide +kernel, by decide +kernel⟩

/-- RETT at S with an EPC in code, at S with one outside, and at P. -/
theorem witness_ReturnFromTrap :
    (let s := handled fun x => { x with status := 0x10, epc := 0xDFFFE };
      Ready s ∧ 1 ≤ s.me.prv ∧ s.myTile.checkTarget s.me.epc = none) ∧
    (∃ c v, let s := handled fun x => { x with status := 0x10, epc := 0xE0000 };
      Ready s ∧ 1 ≤ s.me.prv ∧ s.myTile.checkTarget s.me.epc = some (c, v)) ∧
    Ready plain ∧ plain.me.prv = 0 :=
  ⟨⟨⟨rfl, rfl⟩, by decide +kernel, by decide +kernel⟩, ⟨0x02, 0xE0000, ⟨rfl, rfl⟩, by decide +kernel, by decide +kernel⟩,
   ⟨rfl, rfl⟩, by decide +kernel⟩

theorem witness_TrapInstructions :
    (Ready (handled id) ∧ HandlerRuns (handled id) ∧ bit (handled id).me.cir 0 = false) ∧
    let s := handled fun x => { x with cir := 1 };
    Ready s ∧ HandlerRuns s ∧ bit s.me.cir 0 = true :=
  ⟨⟨⟨rfl, rfl⟩, ⟨by decide +kernel, by decide +kernel, rfl⟩, by decide +kernel⟩,
   ⟨rfl, rfl⟩, ⟨by decide +kernel, by decide +kernel, rfl⟩, by decide +kernel⟩

theorem witness_FenceResult :
    (Ready plain ∧ (4 : BitVec 3).toNat ≤ 4 ∧ bits (0xC : BitVec 4) 1 0 = 0) ∧
    (let s := one fun x => { x with rupds := [(0, anyReach)] };
      Ready s ∧ bits (1 : BitVec 4) 1 0 ≠ 0 ∧ (s.me.rupds ≠ [] ∨ s.me.errOut ≠ [])) ∧
    4 < (5 : BitVec 3).toNat :=
  ⟨⟨⟨rfl, rfl⟩, by decide, by decide +kernel⟩, ⟨⟨rfl, rfl⟩, by decide +kernel, by decide +kernel⟩, by decide⟩

theorem witness_ControlRegisters : Readable plain 0x000 ∧ Writable plain 0x000 ∧ Writable plain 0x013 :=
  ⟨⟨0, some 0, by decide +kernel⟩,
   ⟨0, 0, by decide +kernel⟩,
   ⟨0, 0, by decide +kernel⟩⟩

/-- No such register; VL from slot 2, and written with VT.BAD; TVEC at P; a write of CYCLE. -/
theorem witness_ControlRegisterTraps :
    (CtlForm (.ctls 0x007 0 0) 0x007 true true ∧ cregLevels 0x007 = none) ∧
    (CtlForm (.ctlr 0x010 0) 0x010 true false ∧ 2 ≤ ({ plain with cur := { tile := 0, slot := 2 } } : State).cur.slot.val) ∧
    (CtlForm (.ctlw 0x013 0) 0x013 false true ∧
      (oneOn (fun x => x.modVec 0 fun c => { c with vt := 0x80000000 }) id).vec.bad = true) ∧
    (cregLevels 0x004 = some (1, some 1) ∧ ¬(0x010 ≤ 0x004 ∧ 0x004 ≤ 0x014) ∧ plain.me.prv < 1) ∧
    (CtlForm (.ctlc 0x020 0 0) 0x020 true true ∧ cregLevels 0x020 = some (0, none)) ∧ Ready plain ∧
    (encodeWord (.ctlc 0x020 0 0)).isSome = true :=
  ⟨⟨.ctls _ _ _, by decide +kernel⟩, ⟨.ctlr _ _, by decide⟩, ⟨.ctlw _ _, by decide +kernel⟩, by decide +kernel,
   ⟨.ctlc _ _ _, by decide +kernel⟩, ⟨rfl, rfl⟩, by decide +kernel⟩

theorem witness_StatusWrite : Ready plain ∧ plain.me.prv = 0 ∧
    let s := one fun x => { x with status := 0x10 };
    Ready s ∧ 1 ≤ s.me.prv := ⟨⟨rfl, rfl⟩, by decide +kernel, ⟨rfl, rfl⟩, by decide +kernel⟩

/-! ### Hypotheses met: loads, stores, far memory -/

theorem witness_LocalAccess :
    (8 ∈ [1, 2, 4, 8] ∧ (0xCFFF8 : Word).toNat < 0xD0000 ∧ (0xCFFF8 : Word).toNat % 8 = 0) ∧
    (0xD0000 ≤ (0xDFFF8 : Word).toNat ∧ (0xDFFF8 : Word).toNat < 0xE0000 ∧ (0xDFFF8 : Word).toNat % 8 = 0) ∧
    (0xE0000 ≤ (0xEFFF8 : Word).toNat ∧ (0xEFFF8 : Word).toNat < 0xF0000 ∧ (0xEFFF8 : Word).toNat % 8 = 0) ∧
    (0xF0000 ≤ (0xFFFF8 : Word).toNat ∧ (0xFFFF8 : Word).toNat < 0x100000 ∧ (0xFFFF8 : Word).toNat % 8 = 0) ∧
    ((0xFFFFF : Word).toNat < 0x100000 ∧ (0xFFFFF : Word).toNat % 8 ≠ 0) ∧
    (0x100000 ≤ (0x100000 : Word).toNat ∧ (0x100000 : Word).toNat < 2 ^ 62) ∧
    2 ^ 62 + 2 ^ 28 ≤ (0x4000000010000000 : Word).toNat := by decide

/-- An index that names no tile, one that names the issuer's own with an offset past, misaligned, and good. -/
theorem witness_WindowAccess :
    (∃ x : Word, x.toNat = 2 ^ 62 + 255 * 2 ^ 20 + 0 ∧
      ({ plain with fused := [1] } : State).windowTile 0 255 = none) ∧
    ∃ i, i < 256 ∧ plain.windowTile plain.cur.tile i = some 0 ∧ 0xC0000 < 0xBFFF9 + 8 ∧ (0xBFFF4 + 8 ≤ 0xC0000 ∧ 0xBFFF4 % 8 ≠ 0) ∧
      0xBFFF8 + 8 ≤ 0xC0000 ∧ 0xBFFF8 % 8 = 0 :=
  ⟨⟨0x400000000FF00000, by decide, by decide +kernel⟩, 0, by decide +kernel⟩

theorem witness_LoadResult :
    (∃ i len n ext off d a u o, let s := one fun x => x.setG 2 0xDFFFF;
      LoadForm i len n ext off d a ∧ Ready s ∧ Plain s [a, d] ∧ s.scalarCheck false (effAddr s a off) n = .ok (.tile u o) ∧
        o < 0xE0000 ∧ (s.tile u).errs = 0) ∧
    ∃ i len n ext off d a c v, let s := one fun x => x.setG 2 0xDFFFF;
      LoadForm i len n ext off d a ∧ Ready s ∧ Plain s [a, d] ∧ s.scalarCheck false (effAddr s a off) n = .error (c, v) :=
  ⟨⟨_, _, _, _, _, _, _, 0, 0xDFFFF, .ldB 0 1 2, ⟨rfl, rfl⟩, by unfold Plain; decide +kernel, rfl, by decide, rfl⟩,
   ⟨_, _, _, _, _, _, _, 0x03, 0xE0000, .ldBu 1 1 2, ⟨rfl, rfl⟩, by unfold Plain; decide +kernel, rfl⟩⟩

theorem witness_StoreResult :
    (∃ i len n off d a u o, let s := one fun x => x.setG 2 0xCFFFF;
      StoreForm i len n off d a ∧ Ready s ∧ Plain s [a, d] ∧ s.scalarCheck true (effAddr s a off) n = .ok (.tile u o) ∧
        o < 0xE0000 ∧ bits s.myTile.inject 3 0 ≠ 5 ∧ s.released = true) ∧
    (let s := one fun x => { x with rupds := [(0, anyReach)] };
      StoreForm (.stRel 0 1 2) 4 8 0 1 2 ∧ Ready s ∧ Plain s [2, 1] ∧ s.released = false) ∧
    ∃ i len n off d a c v, let s := one fun x => x.setG 2 0xCFFFF;
      StoreForm i len n off d a ∧ Ready s ∧ Plain s [a, d] ∧ s.scalarCheck true (effAddr s a off) n = .error (c, v) :=
  ⟨⟨_, _, _, _, _, _, 0, 0xCFFFF, .stB 0 1 2, ⟨rfl, rfl⟩, by unfold Plain; decide +kernel, rfl, by decide +kernel⟩,
   ⟨.stRel 0 1 2, ⟨rfl, rfl⟩, by unfold Plain; decide +kernel, by decide +kernel⟩,
   ⟨_, _, _, _, _, _, 0x05, 0xD0000, .stB 1 1 2, ⟨rfl, rfl⟩, by unfold Plain; decide +kernel, rfl⟩⟩

theorem witness_GranulePoison : ([0] : List Byte) ≠ [] ∧ 0xCFFFF + ([0] : List Byte).length ≤ 0xD0000 := by decide

/-- Slot 0 with g2 a far address. -/
def farOne (va : Nat) (f : Slot → Slot) : State := one fun x => f (x.setG 2 (BitVec.ofNat 64 (2 ^ 63 + va)))

theorem witness_FarRequest : (∃ i n op f a d r va, let s := farOne (2 ^ 57 - 8) id;
    FarWait i n op f a d r ∧ Ready s ∧ s.me.pend = .none ∧ FarAddr (s.g a) n va ∧ farMustWait s va n = false ∧ MaySend s 0) ∧
    ∃ i n op f a d r va, let s := farOne 0 fun x => { x with rupds := List.replicate 8 (0, anyReach) };
      FarWait i n op f a d r ∧ Ready s ∧ s.me.pend = .none ∧ FarAddr (s.g a) n va ∧ farMustWait s va n = true :=
  ⟨⟨_, _, _, _, _, _, _, 2 ^ 57 - 8, .ldf 3 1 2, ⟨rfl, rfl⟩, rfl, by unfold FarAddr; decide +kernel, by decide +kernel,
     by unfold MaySend; decide +kernel⟩,
   ⟨_, _, _, _, _, _, _, 0, .ldf 3 1 2, ⟨rfl, rfl⟩, rfl, by unfold FarAddr; decide +kernel, by decide +kernel⟩⟩

/-- Statuses 0, 4, 1 and 3. -/
theorem witness_FarResult : ∀ st ∈ [0, 4, 1, 3], ∃ i n op f a d r psn, let s := farOne 0 fun x => { x with pend := .farDone st 7 psn };
    FarWait i n op f a d r ∧ Ready s ∧ s.me.pend = .farDone st 7 psn :=
  fun _ _ => ⟨_, _, _, _, _, _, _, true, .stf 3 3 2, ⟨rfl, rfl⟩, rfl⟩

theorem witness_FarTraps :
    (∃ i n op f a d r, FarWait i n op f a d r ∧ Ready plain ∧ plain.me.pend = .none ∧ (plain.g a).toNat < 2 ^ 63) ∧
    (let s := farOne (2 ^ 57) id; Ready s ∧ 2 ^ 63 + 2 ^ 57 ≤ (s.g 2).toNat) ∧
    ∃ i n op f a d r, let s := farOne 4 id;
      FarWait i n op f a d r ∧ Ready s ∧ s.me.pend = .none ∧ (s.g a).toNat = 2 ^ 63 + 4 ∧ (s.g a).toNat % n ≠ 0 :=
  ⟨⟨_, _, _, _, _, _, _, .add 3 1 1 2, ⟨rfl, rfl⟩, rfl, by decide +kernel⟩, ⟨⟨rfl, rfl⟩, by decide +kernel⟩,
   ⟨_, _, _, _, _, _, _, .cas 3 1 1 2, ⟨rfl, rfl⟩, rfl, by decide +kernel, by decide +kernel⟩⟩

theorem witness_RupdSends : ∃ i n op o a va, let s := farOne (2 ^ 57 - 4) id;
    Rupd i n op o a ∧ Ready s ∧ FarAddr (s.g a) n va ∧ farMustWait s va n = false ∧ MaySend s 0 :=
  ⟨_, _, _, _, _, 2 ^ 57 - 4, .fadd 3 2, ⟨rfl, rfl⟩, by unfold FarAddr; decide +kernel, by decide +kernel,
    by unfold MaySend; decide +kernel⟩

theorem witness_AmoAtHome : 4 ∈ [4, 8] ∧ 9 ≤ 9 := by decide

/-! ### Hypotheses met: vectors, matrices -/

/-- A vector slot with VT's low bits and VL. -/
def vecOne (vt vl : Nat) (f : Slot → Slot) : State :=
  oneOn (fun x => x.modVec 0 fun c => { c with vt := BitVec.ofNat 32 vt, vl := BitVec.ofNat 13 vl }) f

/-- INT8 at its VLMAX, and INT64 at its. -/
theorem witness_VectorInteger : ∀ q ∈ [(0, 1024), (4, 128)], ∃ i b m e d a f, VecInt i b m e d a f ∧
    VecReady (vecOne q.1 q.2 id) ∧ isInt (vecOne q.1 q.2 id).vec.fmt = true := by
  intro q h
  simp only [List.mem_cons, List.not_mem_nil, or_false] at h
  rcases h with rfl | rfl <;>
    exact ⟨_, _, _, _, _, _, _, .vadd 31 0 0 7 1 31 0, by unfold VecReady Ready; decide +kernel, by decide +kernel⟩

theorem witness_VectorSaturating : ∃ i b m e d a f, VecSat i b m e d a f ∧
    VecReady (vecOne 1 1 id) ∧ isInt (vecOne 1 1 id).vec.fmt = true :=
  ⟨_, _, _, _, _, _, _, .vssub 31 0 0 7 0 0 31, by unfold VecReady Ready; decide +kernel, by decide +kernel⟩

theorem witness_VectorFloat : ∃ i rm m e d l f, VecFp i rm m e d l f ∧
    VecReady (vecOne 0x18A 256 id) ∧ isFp (vecOne 0x18A 256 id).vec.fmt = true :=
  ⟨_, _, _, _, _, _, _, .vfmaStatic 31 0 0 7 0 3 0 31, by unfold VecReady Ready; decide +kernel, by decide +kernel⟩

/-- An integer compare, and an FP one. -/
theorem witness_VectorCompare :
    (∃ i b m e d a ok f o, VecCmp i b m e d a ok f o ∧ VecReady (vecOne 2 512 id) ∧ ok (vecOne 2 512 id).vec.fmt = true) ∧
    ∃ i b m e d a ok f o, VecCmp i b m e d a ok f o ∧ VecReady (vecOne 8 1 id) ∧ ok (vecOne 8 1 id).vec.fmt = true :=
  ⟨⟨_, _, _, _, _, _, _, _, _, .vcmpGeu 0 0 0 0 1 7 0, by unfold VecReady Ready; decide +kernel, by decide +kernel⟩,
   _, _, _, _, _, _, _, _, _, .vfcmpUn 0 0 0 0 1 7 0, by unfold VecReady Ready; decide +kernel, by decide +kernel⟩

/-- With VL = 0, as after reset; MMOVE's highest register, FMASK, and a code past it. -/
theorem witness_MaskWrites : Ready plain ∧ plain.cur.slot.val < 2 ∧ plain.vec.bad = false ∧
    (∃ i d f, MaskLogic i d f) ∧ (∃ v, plain.vec.wide 9 = some v ∧ (9 : BitVec 5).toNat ≤ 9) ∧ 10 ≤ (10 : BitVec 5).toNat :=
  ⟨⟨rfl, rfl⟩, by decide, by decide +kernel, ⟨_, _, _, .mnot 7 7⟩, ⟨plain.vec.fmask, rfl, by decide⟩, by decide⟩

/-- In FP32, where g0 names element 0 of 256 and a g of 256 none. -/
theorem witness_VectorToScalar : Ready plain ∧ plain.cur.slot.val < 2 ∧ plain.vec.bad = false ∧ isBfp plain.vec.fmt = false :=
  ⟨⟨rfl, rfl⟩, by decide +kernel⟩

theorem witness_VectorMoves : ∃ i d f, VecMove i d f ∧ VecReady (vecOne 3 256 id) ∧ isBfp (vecOne 3 256 id).vec.fmt = false :=
  ⟨_, _, _, .vgath 1 0 0 7 0 1 1, by unfold VecReady Ready; decide +kernel, by decide +kernel⟩

theorem witness_VectorReductions :
    (∃ i m e d a f, VecReady (vecOne 4 128 id) ∧ VecRed i m e d a f ∧ isInt (vecOne 4 128 id).vec.fmt = true) ∧
    VecReady (vecOne 9 3 id) ∧ isFp (vecOne 9 3 id).vec.fmt = true :=
  ⟨⟨_, _, _, _, _, _, by unfold VecReady Ready; decide +kernel, .vredmin 0 7 1 31 31, by decide +kernel⟩,
   by unfold VecReady Ready; decide +kernel, by decide +kernel⟩

/-- Between FP formats, and from a BFP format. -/
theorem witness_VectorConvert : ∀ g : BitVec 5, g = 10 ∨ g = 0x18 → ∃ i m e rm d a, VecCvt i g.toNat m e rm d a ∧
    VecReady (vecOne 8 512 id) ∧ fmtKnown g.toNat = true ∧ isBfp (vecOne 8 512 id).vec.fmt = false := by
  intro g h
  refine ⟨_, _, _, _, _, _, .vcvt g 0 7 1 31 31, by unfold VecReady Ready; decide +kernel, ?_, by decide +kernel⟩
  rcases h with rfl | rfl <;> decide

theorem witness_VectorExponents : VecReady (vecOne 0x18 1024 id) ∧ isBfp (vecOne 0x18 1024 id).vec.fmt = true :=
  ⟨by unfold VecReady Ready; decide +kernel, by decide +kernel⟩

theorem witness_SetVector : Ready plain ∧ plain.cur.slot.val < 2 ∧ plain.vec.bad = false :=
  ⟨⟨rfl, rfl⟩, by decide, by decide +kernel⟩

/-- In slot 2; with VT.BAD; integers in FP32, floats in INT64, a move in BFP; an indexed access of 513 bytes; SETVT in slot 2. -/
theorem witness_VectorIllegal :
    (let s : State := { plain with cur := { tile := 0, slot := 2 } }; 2 ≤ s.cur.slot.val ∧ VecAccepts (.setvl 1 2) fun _ => true) ∧
    (let s := vecOne 0x80000000 0 id; Ready s ∧ s.me.pend = .none ∧ s.vec.bad = true) ∧
    (VecAccepts (.vadd 0 0 0 0 0 0 0) isInt ∧ isInt plain.vec.fmt = false) ∧
    (VecAccepts (.vfsqrt 0 0 0 0 0) isFp ∧ isFp (vecOne 4 1 id).vec.fmt = false) ∧
    (VecAccepts (.vsend 0 0) (fun f => !isBfp f) ∧ isBfp (vecOne 0x12 8 id).vec.fmt = true) ∧
    (∃ st x d m e a, VecIdx (.vldx 0 0 0 0 0 0 0) st x d m e a ∧ fmtWidth (vecOne 0 513 id).vec.fmt = 8 ∧ 512 < (vecOne 0 513 id).vec.vl.toNat) ∧
    (encodeWord (.setvl 1 2)).isSome = true ∧ (encodeWord (.vsend 0 0)).isSome = true ∧ (encodeWord (.vldx 0 0 0 0 0 0 0)).isSome = true :=
  ⟨⟨by decide, .setvl 1 2⟩, ⟨⟨rfl, rfl⟩, rfl, by decide +kernel⟩, ⟨.int _ _ _ _ _ _ _ (.vadd 0 0 0 0 0 0 0), by decide +kernel⟩,
   ⟨.fp _ _ _ _ _ _ _ (.vfsqrt 0 0 0 0 0), by decide +kernel⟩, ⟨.vsend 0 0, by decide +kernel⟩,
   ⟨_, _, _, _, _, _, .vldx 0 0 0 0 0 0 0, by decide +kernel⟩, by decide +kernel⟩

theorem witness_VectorEmpty : Ready plain ∧ plain.cur.slot.val < 2 ∧ plain.vec.bad = false ∧ plain.vec.vl = 0 ∧
    (∃ i rm m e d l f, VecFp i rm m e d l f ∧ isFp plain.vec.fmt = true) ∧
    ∃ i d f, VecMove i d f ∧ isBfp plain.vec.fmt = false :=
  ⟨⟨rfl, rfl⟩, by decide, by decide +kernel, rfl, ⟨_, _, _, _, _, _, _, .vfabs 0 0 0 0 0, by decide +kernel⟩,
   _, _, _, .vcomp 0 0 0 0 0, by decide +kernel⟩

theorem active_lt {s : State} {m : BitVec 3} {e : BitVec 1} {k : Nat} (h : ActiveAt s m e k = true) : k < s.vec.vl.toNat := by
  simp only [ActiveAt, Bool.and_eq_true, decide_eq_true_eq] at h
  exact h.1.1

/-- The last two elements of the scratchpad. -/
theorem witness_VectorLoad : ∃ i d m e a addr f p, let s := vecOne 10 2 fun x => x.setG 2 0xBFFF8
    VecMem i false d m e a addr ∧ VecReady s ∧ PlainRun s a f ∧ Lies s m e f (addr s f.size) p :=
  ⟨_, _, _, _, _, _, ⟨10, 8, false, false⟩, fun k => (0, 0xBFFF8 + 4 * k), .vld 0 0 0 0 31 2, by unfold VecReady Ready; decide +kernel,
   ⟨⟨0, 0xBFFF8, by decide +kernel, by decide +kernel⟩, by decide +kernel⟩, fun k hk => by
    have hk2 := active_lt hk
    rw [show (vecOne 10 2 fun x => x.setG 2 0xBFFF8).vec.vl.toNat = 2 by decide +kernel] at hk2
    obtain rfl | rfl : k = 0 ∨ k = 1 := by omega
    all_goals exact ⟨ok_of (by decide +kernel), by decide +kernel⟩⟩

/-- A stride of 0: two elements at one place. -/
theorem witness_VectorStore : ∃ i d m e a addr f p, let s := vecOne 10 2 fun x => x.setG 2 0xBFFFC
    VecMem i true d m e a addr ∧ VecReady s ∧ bits s.myTile.inject 3 0 ≠ 5 ∧ PlainRun s a f ∧ Lies s m e f (addr s f.size) p :=
  ⟨_, _, _, _, _, _, ⟨10, 8, false, false⟩, fun _ => (0, 0xBFFFC), .vsts 0 0 0 0 7 31 2, by unfold VecReady Ready; decide +kernel,
   by decide +kernel,
   ⟨⟨0, 0xBFFFC, by decide +kernel, by decide +kernel⟩, by decide +kernel⟩, fun k hk => by
    have hk2 := active_lt hk
    rw [show (vecOne 10 2 fun x => x.setG 2 0xBFFFC).vec.vl.toNat = 2 by decide +kernel] at hk2
    obtain rfl | rfl : k = 0 ∨ k = 1 := by omega
    all_goals exact ⟨ok_of (by decide +kernel), by decide +kernel⟩⟩

/-- The second element, misaligned, traps. -/
theorem witness_VectorMemoryTrap : ∃ i st d m e a addr f k c v, let s := vecOne 10 2 fun x => (x.setG 2 0xBFFFC).setE 7 2
    VecMem i st d m e a addr ∧ VecReady s ∧ PlainRun s a f ∧ ActiveAt s m e k = true ∧
    s.vecCheck false f.size (addr s f.size k) f.size = .error (c, v) ∧
    ∀ j, j < k → ActiveAt s m e j = true → ∃ q, s.vecCheck false f.size (addr s f.size j) f.size = .ok q :=
  ⟨_, _, _, _, _, _, _, ⟨10, 8, false, false⟩, 1, 0x04, 0xBFFFE, .vlds 0 0 0 0 7 31 2, by unfold VecReady Ready; decide +kernel,
   ⟨⟨0, 0xBFFFC, by decide +kernel, by decide +kernel⟩, by decide +kernel⟩,
   by decide +kernel, rfl, fun j hj _ => by
    obtain rfl : j = 0 := by omega
    exact ⟨.tile 0 0xBFFFC, rfl⟩⟩

theorem err_of {α : Type} {x : Except MemFault α} {y : MemFault}
    (h : (match x with | .error q => some q | .ok _ => none) = some y) : x = .error y := by
  cases x with
  | ok _ => simp at h
  | error q => simp only [Option.some.injEq] at h; rw [h]

/-- Index 0 for both elements; and indices 0 and 1 with the second past every region. -/
theorem witness_VectorIndexed :
    (∃ i st x d m e a f, ∃ (p : Nat → Nat × Nat), let s := vecOne 10 2 fun x => x.setG 2 0xBFFFC
      VecIdx i st x d m e a ∧ VecReady s ∧ s.me.pend = .none ∧ bits s.myTile.inject 3 0 ≠ 5 ∧ PlainRun s a f ∧
      ¬(fmtWidth s.vec.fmt = 8 ∧ 512 < s.vec.vl.toNat) ∧ ∀ k, ActiveAt s m e k = true →
        (∀ va, addrForm (idxAddr s x a f.size k) ≠ .far va) ∧ (s.tile (p k).1).errs = 0 ∧
        s.vecCheck true f.size (idxAddr s x a f.size k) f.size = .ok (.tile (p k).1 (p k).2)) ∧
    ∃ i st x d m e a f k c v, let s := vecOne 10 1 fun x => x.setG 2 0xDFFFC
      VecIdx i st x d m e a ∧ VecReady s ∧ s.me.pend = .none ∧ bits s.myTile.inject 3 0 ≠ 5 ∧ PlainRun s a f ∧
      ActiveAt s m e k = true ∧ (∀ j, ActiveAt s m e j = true → ∀ va, addrForm (idxAddr s x a f.size j) ≠ .far va) ∧
      s.vecCheck true f.size (idxAddr s x a f.size k) f.size = .error (c, v) ∧ ∀ j, ¬j < k :=
  ⟨⟨_, _, _, _, _, _, _, ⟨10, 8, false, false⟩, fun _ => (0, 0xBFFFC), .vldx 3 0 0 0 0 31 2, by unfold VecReady Ready; decide +kernel, rfl,
    by decide +kernel,
    ⟨⟨0, 0xBFFFC, by decide +kernel, by decide +kernel⟩, by decide +kernel⟩,
    by decide +kernel, fun k hk => by
      have hk2 := active_lt hk
      rw [show (vecOne 10 2 fun x => x.setG 2 0xBFFFC).vec.vl.toNat = 2 by decide +kernel] at hk2
      have ha : ∀ j < 2, addrForm (idxAddr (vecOne 10 2 fun x => x.setG 2 0xBFFFC) 3 2 4 j) = .local 0xBFFFC := by decide +kernel
      have hz := ha k hk2
      obtain rfl | rfl : k = 0 ∨ k = 1 := by omega
      all_goals exact ⟨fun va h => (nomatch hz.symm.trans h), by decide +kernel, ok_of (by decide +kernel)⟩⟩,
   ⟨_, _, _, _, _, _, _, ⟨10, 8, false, false⟩, 0, 0x05, 0xDFFFC, .vstx 3 0 0 0 0 31 2, by unfold VecReady Ready; decide +kernel, rfl,
    by decide +kernel,
    ⟨⟨0, 0xDFFFC, by decide +kernel, by decide +kernel⟩, by decide +kernel⟩,
    by decide +kernel, fun j hj va h => by
      have hk2 := active_lt hj
      rw [show (vecOne 10 1 fun x => x.setG 2 0xDFFFC).vec.vl.toNat = 1 by decide +kernel] at hk2
      obtain rfl : j = 0 := by omega
      exact (nomatch (show addrForm (idxAddr (vecOne 10 1 fun x => x.setG 2 0xDFFFC) 3 2 4 0) = .local 0xDFFFC by
        decide +kernel).symm.trans h), err_of (by decide +kernel), fun j => Nat.not_lt_zero j⟩⟩

/-- An INT64 element whose index 2^60 reaches the far address 0. -/
theorem witness_VectorIndexedFar : ∃ i st x d m e a f va,
    let s := (vecOne 4 1 id).modTile 0 fun x => x.modVec 0 fun c => { c with v := c.v.set 3 0x1000000000000000 }
    VecIdx i st x d m e a ∧ VecReady s ∧ s.me.pend = .none ∧ PlainRun s a f ∧ ¬(fmtWidth s.vec.fmt = 8 ∧ 512 < s.vec.vl.toNat) ∧
    ActiveAt s m e 0 = true ∧ s.vecCheck true f.size (idxAddr s x a f.size 0) f.size = .ok (.far va) ∧ farMustWait s va f.size = false :=
  ⟨_, _, _, _, _, _, _, ⟨4, 8, false, false⟩, 0, .vldx 3 0 0 0 0 31 0, by unfold VecReady Ready; decide +kernel, rfl,
   ⟨⟨0, 0, by decide +kernel, by decide +kernel⟩, by decide +kernel⟩,
   by decide +kernel, by decide +kernel, ok_of (by decide +kernel), by decide +kernel⟩

/-- One BFP8 block at the start of an untyped bank. -/
theorem witness_VectorLoadBlocks : ∃ u b, let s := vecOne 0x18 8 id
    VecReady s ∧ s.basePlace (s.g 0) = some (.tile u b) ∧
    let f := s.memFmt s.vec.memFmt (.tile u b)
    f.fmt = s.vec.fmt ∧ f.blk = s.vec.blk ∧ isBfp f.fmt = true ∧ fmtKnown f.fmt = true ∧
    s.vec.vl.toNat % f.blk = 0 ∧ s.vec.vl.toNat ≤ s.vec.vlMax ∧ f.typed = false ∧ (s.tile u).errs = 0 ∧
    ∀ j, j < s.vec.vl.toNat / f.blk →
      (∀ x n, (x, n) = (f.expAt b j, 1) ∨ (x, n) = (f.manAt b j, f.mb) →
        s.vecCheck false 1 (s.g 0 + BitVec.ofNat 64 (x - b)) n = .ok (.tile u x)) :=
  ⟨0, 0, by unfold VecReady Ready; decide +kernel, by
    repeat refine ⟨by decide +kernel, ?_⟩
    intro j hj x n h
    have hb : (vecOne 0x18 8 id).vec.vl.toNat / ((vecOne 0x18 8 id).memFmt (vecOne 0x18 8 id).vec.memFmt (.tile 0 0)).blk = 1 := by
      decide +kernel
    obtain rfl : j = 0 := by rw [hb] at hj; omega
    have he : ((vecOne 0x18 8 id).memFmt (vecOne 0x18 8 id).vec.memFmt (.tile 0 0)).expAt 0 0 = 0 := by decide +kernel
    have hm : ((vecOne 0x18 8 id).memFmt (vecOne 0x18 8 id).vec.memFmt (.tile 0 0)).manAt 0 0 = 1 := by decide +kernel
    have hz : ((vecOne 0x18 8 id).memFmt (vecOne 0x18 8 id).vec.memFmt (.tile 0 0)).mb = 8 := by decide +kernel
    rw [he, hm, hz] at h
    rcases h with h | h <;> (simp only [Prod.mk.injEq] at h; obtain ⟨rfl, rfl⟩ := h; exact ok_of (by decide +kernel))⟩

theorem witness_MatrixInit : VecReady (vecOne 3 256 id) ∧ (vecOne 3 256 id).vec.fmt = fINT32 ∧ VecReady (vecOne 10 1 id) ∧
    (vecOne 10 1 id).vec.fmt = fFP32 :=
  ⟨by unfold VecReady Ready; decide +kernel, by decide +kernel, by unfold VecReady Ready; decide +kernel, by decide +kernel⟩

/-- A state whose e0 gives stride 8 and 16, widths 8 and 2, with one INT8 element a row; and one whose bank 0 is typed BFP8. -/
theorem witness_MatrixProduct :
    (∃ p q, let s := vecOne 0 1 fun x => x.setE 0 0x280001000008
      let w := s.e 0
      VecReady s ∧ bits w 63 48 = 0 ∧ bits w 43 40 = 8 ∧ bits w 47 44 = 2 ∧
      PanelAt s (s.g 0) (bits w 19 0) 1 p ∧ PanelAt s (s.g 0) (bits w 39 20) 1 q) ∧
    ∃ f p, let s := oneOn (fun x => { x.modVec 0 (fun c => { c with vt := 0x18, vl := 8 }) with
        bfmt := x.bfmt.set 0 0x98 }) fun x => x.setE 0 0x900009
      let w := s.e 0
      VecReady s ∧ bits w 63 40 = 0 ∧ s.vec.vl.toNat % (f 0).blk = 0 ∧
      BlockPanel s (s.g 0) (bits w 19 0) (s.vec.vl.toNat / (f 0).blk) f p ∧
      BlockPanel s (s.g 0) (bits w 39 20) (s.vec.vl.toNat / (f 0).blk) f p :=
  ⟨⟨fun r => (0, 8 * r), fun r => (0, 16 * r), by
    have h1 : ∀ r < 32, ((vecOne 0 1 fun x => x.setE 0 0x280001000008).panelAt (0 + BitVec.ofNat 64 (r * 8)) 1).toOption =
      some (0, 8 * r) := by decide +kernel
    have h2 : ∀ r < 32, ((vecOne 0 1 fun x => x.setE 0 0x280001000008).panelAt (0 + BitVec.ofNat 64 (r * 16)) 1).toOption =
      some (0, 16 * r) := by decide +kernel
    exact ⟨by unfold VecReady Ready; decide +kernel, by decide +kernel, by decide +kernel, by decide +kernel,
      fun r hr => ⟨ok_of (h1 r hr), rfl⟩, fun r hr => ⟨ok_of (h2 r hr), rfl⟩⟩⟩,
   ⟨fun _ => ⟨0x18, 8, false, true⟩, fun r => (0, 9 * r), by
    have h1 : ∀ r < 32, ((oneOn (fun x => { x.modVec 0 (fun c => { c with vt := 0x18, vl := 8 }) with
        bfmt := x.bfmt.set 0 0x98 }) fun x => x.setE 0 0x900009).panelAt (0 + BitVec.ofNat 64 (r * 9)) 1).toOption =
      some (0, 9 * r) := by decide +kernel
    have h3 : ∀ r < 32, ((oneOn (fun x => { x.modVec 0 (fun c => { c with vt := 0x18, vl := 8 }) with
        bfmt := x.bfmt.set 0 0x98 }) fun x => x.setE 0 0x900009).panelAt (0 + BitVec.ofNat 64 (r * 9)) (1 * (⟨0x18, 8, false, true⟩ : MemFmt).step)).toOption =
      some (0, 9 * r) := by decide +kernel
    have h4 : ∀ r < 32, ((oneOn (fun x => { x.modVec 0 (fun c => { c with vt := 0x18, vl := 8 }) with
        bfmt := x.bfmt.set 0 0x98 }) fun x => x.setE 0 0x900009).tile 0).bankFmt (9 * r) = some ⟨0x18, 8, false, true⟩ ∧
      (⟨0x18, 8, false, true⟩ : MemFmt).boundary (9 * r) = true ∧ (⟨0x18, 8, false, true⟩ : MemFmt).inBank (9 * r) 1 = true := by
      decide +kernel
    have h2 : BlockPanel (oneOn (fun x => { x.modVec 0 (fun c => { c with vt := 0x18, vl := 8 }) with
        bfmt := x.bfmt.set 0 0x98 }) fun x => x.setE 0 0x900009) 0 9 1 (fun _ => ⟨0x18, 8, false, true⟩) fun r => (0, 9 * r) :=
      ⟨fun r hr => ⟨ok_of (h1 r hr), rfl⟩, by decide, fun r hr => ⟨ok_of (h3 r hr), (h4 r hr).1, rfl, rfl, (h4 r hr).2⟩⟩
    exact ⟨by unfold VecReady Ready; decide +kernel, by decide +kernel, by decide +kernel, h2, h2⟩⟩⟩

/-- The last register image, and images at the ends of the scratchpad. -/
theorem witness_MatrixDrain : let s := vecOne 10 1 fun x => (x.setG 2 24).setG 3 0xBF000
    VecReady s ∧ (s.g 2).toNat ∈ [0, 8, 16, 24] ∧ (s.g 3).toNat < 0xC0000 ∧ (s.g 3).toNat % 8 = 0 ∧ (s.g 3).toNat + 4096 ≤ 0xC0000 ∧
      bits s.myTile.inject 3 0 ≠ 5 ∧ bits (s.e 0) 31 7 = 0 :=
  ⟨by unfold VecReady Ready; decide +kernel, by decide +kernel⟩

/-! ### Hypotheses met: copies, channels -/

/-- A slot about to copy one FP32 element from the last word of the scratchpad, the sync word its last. -/
def copying (f : Slot → Slot) : State :=
  vecOne 10 1 fun x => f (((x.setG 2 0xBFFFC).setG 3 0).setE 1 0x80000000000CFFF0)

theorem copySide {a : Word} {x : Nat} (h : (copying id).fmtOfBase a = ⟨10, 8, false, false⟩)
    (hb : (copying id).basePlace a = some (.tile 0 x)) (ha : a.toNat % 4 = 0)
    (hc : ((copying id).vecCheck true 1 (a + BitVec.ofNat 64 (0 * 4)) 4).toOption = some (.tile 0 x)) :
    CopySide (copying id) a ⟨10, 8, false, false⟩ fun _ => (0, x) :=
  ⟨⟨0, x, hb⟩, h.symm, by decide, by decide, ha, fun k hk => by
    have hk2 := active_lt hk
    rw [show (copying id).vec.vl.toNat = 1 by decide +kernel] at hk2
    obtain rfl : k = 0 := by omega
    exact ⟨ok_of hc, rfl⟩⟩

/-- The same place with and without a sync word, copied, added to, and filled. -/
theorem witness_CopyInTile : ∃ fs fd p q, let s := copying id
    VecReady s ∧ s.me.pend = .none ∧ bits s.myTile.inject 3 0 ≠ 5 ∧
    CopySide s (s.g 2) fs p ∧ CopySide s (s.g 3) fd q ∧ (∃ x, s.basePlace (s.g 3) = some (.tile s.cur.tile x)) ∧
    (∀ k, ActiveAt s 0 0 k = true → (q k).1 = s.cur.tile) ∧ SyncWord (s.e 1) (some 0xCFFF0) ∧ SyncWord (s.e 0) none ∧
    (∃ i d a ok f, CopyForm i 1 d a ok f ∧ a = 2 ∧ d = 3 ∧ ok fd.fmt = true) ∧
    s.execBusy ⟨.tile, s.cur.tile⟩ = false ∧ ∃ i d a ok f, CopyForm i 0 d a ok f ∧ a = 2 ∧ d = 3 ∧ ok fd.fmt = true :=
  ⟨⟨10, 8, false, false⟩, ⟨10, 8, false, false⟩, fun _ => (0, 0xBFFFC), fun _ => (0, 0), by unfold VecReady Ready; decide +kernel, rfl,
   by decide +kernel, copySide (by decide +kernel) (by decide +kernel) (by decide +kernel) (by decide +kernel),
   copySide (by decide +kernel) (by decide +kernel) (by decide +kernel) (by decide +kernel), ⟨0, by decide +kernel⟩, fun _ _ => rfl,
   .inr ⟨0xCFFF0, rfl, by decide +kernel⟩, .inl ⟨by decide +kernel, rfl⟩,
   ⟨_, 3, 2, _, _, .cpy 1 3 2, rfl, rfl, rfl⟩, by decide +kernel, _, 3, 2, _, _, .fadd 0 3 2, rfl, rfl, by decide⟩

/-- The strip of the copy in `copying`. -/
def oneStrip : CopyStrip where
  n := 1
  act := 1
  sa := 0xBFFFC
  da := 0
  fs := ⟨10, 8, false, false⟩
  fd := ⟨10, 8, false, false⟩
  sync := none
  fill := none

/-- A copy whose messages have all been answered. -/
def answered (r : List (Nat × Nat × BitVec 8)) : CopyProg :=
  { strip := oneStrip, asked := false, begun := false, pages := [], members := none, sent := true, await := [], refused := r, faults := [], denied := [] }

/-- None refused, and the one element refused. -/
theorem witness_CopyRetires :
    (∃ i o c, let s := copying fun x => { x with pend := .copy c }
      CopyAsks i o ∧ VecReady s ∧ s.me.pend = .copy c ∧ c.sent = true ∧ c.await = [] ∧ c.faults = [] ∧ o.mc = none ∧ c.refused = []) ∧
    ∃ i o c k, let s := copying fun x => { x with pend := .copy c }
      CopyAsks i o ∧ VecReady s ∧ s.me.pend = .copy c ∧ c.sent = true ∧ c.await = [] ∧ c.faults = [] ∧ o.mc = none ∧
        c.refused = [(0, 1, k)] ∧ c.strip.act.testBit 0 = true :=
  ⟨⟨_, _, answered [], .cpy 1 3 2, by unfold VecReady Ready; decide +kernel, rfl, rfl, rfl, rfl, rfl, rfl⟩,
   _, _, answered [(0, 1, 0x0C)], 0x0C, .fadd 0 3 2, by unfold VecReady Ready; decide +kernel, rfl, rfl, rfl, rfl, rfl, rfl, by decide⟩

/-- With a credit, with an update outstanding, without a credit, at an unbound port, and at a GONE end. -/
theorem witness_ChannelSend :
    (let s := bound (.send outEnd); Ready s ∧ s.sendAtPort 0 = some (0, outEnd) ∧ outEnd.state = .open ∧ outEnd.noticed = false ∧
      s.released = true ∧ 0 < outEnd.credits ∧ s.sendAtPort 15 = none) ∧
    (let s := (bound (.send outEnd)).modSlot 0 0 fun x => { x with rupds := [(0, anyReach)] };
      Ready s ∧ s.sendAtPort 0 = some (0, outEnd) ∧ s.released = false) ∧
    (let s := bound (.send { outEnd with credits := 0 }); Ready s ∧ s.sendAtPort 0 = some (0, { outEnd with credits := 0 }) ∧
      s.released = true) ∧
    (let s := bound (.send { outEnd with state := .gone }); Ready s ∧ s.sendAtPort 0 = some (0, { outEnd with state := .gone })) ∧
    ∃ i a, Sends i 2 15 a :=
  ⟨⟨⟨rfl, rfl⟩, by decide +kernel, rfl, rfl, by decide +kernel⟩,
   ⟨⟨rfl, rfl⟩, by decide +kernel, by decide +kernel⟩, ⟨⟨rfl, rfl⟩, by decide +kernel, by decide +kernel⟩,
   ⟨⟨rfl, rfl⟩, by decide +kernel⟩, _, _, .cSend 15 31⟩

/-- A token, an end token with each trap-on-end bit, neither, and an unbound port. -/
theorem witness_ChannelReceive :
    (∃ v psn, let e := { inEnd with held := [(0, true)] }; let s := bound (.recv e)
      Ready s ∧ s.recvAtPort 0 = some (0, e) ∧ 0 < e.avail 1 ∧ e.tokenAt s.myTile.mem 0 = (v, psn) ∧ Unspilled e) ∧
    (∀ toe : Bool, let e := { inEnd with endRec := some (0, true), toe := toe }; let s := bound (.recv e)
      Ready s ∧ s.recvAtPort 0 = some (0, e) ∧ e.avail 1 = 0 ∧ e.endAfter 0 = true ∧ e.toe = toe) ∧
    (let s := bound (.recv inEnd); Ready s ∧ s.recvAtPort 0 = some (0, inEnd) ∧ inEnd.avail 1 = 0 ∧ inEnd.endAfter 0 = false ∧
      inEnd.spilled = [] ∧ s.recvAtPort 15 = none) ∧ ∃ i d, Recvs i 2 15 d :=
  ⟨⟨_, _, ⟨rfl, rfl⟩, by decide +kernel, by decide +kernel, rfl, rfl, rfl, rfl⟩,
   fun toe => by cases toe <;> exact ⟨⟨rfl, rfl⟩, by decide +kernel, by decide +kernel, rfl, rfl⟩,
   ⟨⟨rfl, rfl⟩, by decide +kernel, by decide +kernel, rfl, rfl, by decide +kernel⟩, _, _, .cRecv 31 15⟩

/-- The states of ChannelSend and ChannelReceive, with d and a apart and alike. -/
theorem witness_ChannelEnds :
    (let s := bound (.send outEnd); Ready s ∧ s.sendAtPort 0 = some (0, outEnd) ∧ outEnd.state = .open ∧ outEnd.noticed = false ∧ s.released = true) ∧
    (∃ v psn, let e := { inEnd with held := [(0, false)] }; let s := bound (.recv e)
      Ready s ∧ s.recvAtPort 0 = some (0, e) ∧ 0 < e.avail 1 ∧ e.tokenAt s.myTile.mem 0 = (v, psn) ∧ Unspilled e) ∧
    (let e := { inEnd with endRec := some (0, false) }; let s := bound (.recv e)
      Ready s ∧ s.recvAtPort 0 = some (0, e) ∧ e.avail 1 = 0 ∧ e.endAfter 0 = true) ∧
    ¬((1 : BitVec 5) = 2 ∧ (1 : BitVec 5) ≠ 0) ∧ ¬((0 : BitVec 5) = 0 ∧ (0 : BitVec 5) ≠ 0) ∧ (31 : BitVec 5) ≠ 0 :=
  ⟨⟨⟨rfl, rfl⟩, by decide +kernel, rfl, rfl, by decide +kernel⟩, ⟨_, _, ⟨rfl, rfl⟩, by decide +kernel, by decide +kernel, rfl, rfl, rfl, rfl⟩,
   ⟨⟨rfl, rfl⟩, by decide +kernel, by decide +kernel, rfl⟩, by decide +kernel⟩

/-- The same slot as `bound`, a vector slot with VT and VL. -/
def boundVec (e : EndPt) (vt vl : Nat) : State :=
  (bound e).updVec fun c => { c with vt := BitVec.ofNat 32 vt, vl := BitVec.ofNat 13 vl }

/-- Eight INT8 elements are one token; nine are two. -/
theorem witness_ChannelVector :
    (let s := boundVec (.send outEnd) 0 8; VecReady s ∧ isBfp s.vec.fmt = false ∧ s.sendAtPort 0 = some (0, outEnd) ∧
      outEnd.state = .open ∧ outEnd.noticed = false ∧ s.released = true ∧ (s.vec.vl.toNat * 8 + 63) / 64 ≤ outEnd.credits ∧ s.vec.poisReg 31 = 0) ∧
    (let s := boundVec (.send outEnd) 0 9; VecReady s ∧ s.sendAtPort 0 = some (0, outEnd) ∧ s.released = true ∧
      outEnd.credits < (s.vec.vl.toNat * 8 + 63) / 64) ∧
    let e := { inEnd with held := [(0, false)] }
    (let s := boundVec (.recv e) 0 8; VecReady s ∧ s.recvAtPort 0 = some (0, e) ∧ e.avail 1 = 1 ∧ Unspilled e) ∧
    let s := boundVec (.recv e) 0 9
    VecReady s ∧ s.recvAtPort 0 = some (0, e) ∧ e.avail 2 < 2 ∧ e.endAfter (e.avail 2) = false ∧ e.spilled = [] :=
  ⟨⟨by unfold VecReady Ready; decide +kernel, by decide +kernel, by decide +kernel, rfl, rfl, by decide +kernel⟩,
   ⟨by unfold VecReady Ready; decide +kernel, by decide +kernel⟩,
   ⟨by unfold VecReady Ready; decide +kernel, by decide +kernel, by decide +kernel, rfl, rfl, rfl⟩,
   by unfold VecReady Ready; decide +kernel, by decide +kernel, by decide +kernel, by decide +kernel, rfl⟩

/-! ### Hypotheses met: errands, reels -/

/-- A frame: the numbers of its instructions and operands, its operands, its code's halfwords. -/
def frameOf (nins : Nat) (ops : List Nat) (code : List Nat) : List Byte :=
  toBytes 1 ops.length ++ toBytes 1 (nins + 8) ++ toBytes 6 0 ++ toBytes 8 0x100 ++ (ops.map (toBytes 8)).flatten ++
    toBytes (8 * (4 - ops.length)) 0 ++ (code.map (toBytes 2)).flatten ++ toBytes (16 - 2 * code.length) 0

/-- FINS x1, x2, x3; REPLY x1, with x2 the last 8 bits of the last doubleword of scalar data memory. -/
def goodFrame : List Byte := frameOf 2 [0x55, 56 + 256 * 8, 0xCFFF8] [0xDC43, 0x0811, 0xDC01, 0x0010]

/-- A frame of one reserved instruction. -/
def badFrame : List Byte := frameOf 1 [] [0xFFFF, 0xFFFF]

/-- Slot 0 with g2 the address of a frame image. -/
def errandOne (f : List Byte) (g : Slot → Slot) : State :=
  oneOn (fun x => { x with mem := Mem.writeBytes [] 0xCFFC0 f }) fun x => g (x.setG 2 0xCFFC0)

/-- A frame that passes its checks, with no errand kept and with 16 kept; and one that fails. -/
theorem witness_ErrandSend :
    (∃ ops, let s := errandOne goodFrame id;
      Ready s ∧ s.me.errRec = 0 ∧ FrameImage s (s.g 2) goodFrame ∧ frameCheck goodFrame = .ok ops ∧
        s.me.errOut.length + s.me.validComps < 16 ∧
        frameMustWait s (s.frameReach (frameTarget goodFrame)) = false ∧ s.me.tagUsed s.me.errTag = false) ∧
    (let s := errandOne goodFrame fun x => { x with errOut := List.replicate 16 ⟨9, true, anyReach⟩ };
      Ready s ∧ s.me.errRec = 0 ∧ FrameImage s (s.g 2) goodFrame ∧ 16 ≤ s.me.errOut.length + s.me.validComps) ∧
    ∃ r, let s := errandOne badFrame id;
      Ready s ∧ s.me.errRec = 0 ∧ FrameImage s (s.g 2) badFrame ∧ frameCheck badFrame = .error r :=
  ⟨⟨_, ⟨rfl, rfl⟩, rfl, ⟨by decide +kernel, by decide +kernel, rfl, by decide +kernel⟩, rfl, by decide +kernel⟩,
   ⟨⟨rfl, rfl⟩, rfl, ⟨by decide +kernel, by decide +kernel, rfl, by decide +kernel⟩, by decide +kernel⟩,
   ⟨_, ⟨rfl, rfl⟩, rfl, ⟨by decide +kernel, by decide +kernel, rfl, by decide +kernel⟩, rfl⟩⟩

/-- Tag 0: kept in the last position, outstanding, and neither. -/
theorem witness_ErrandWait :
    (∃ j : Fin 16, let s := one fun x => { x with comps := x.comps.set 15 { valid := true, tag := 0, status := 0, val := 7 } };
      Ready s ∧ s.me.errRec = 0 ∧ s.me.comps[j].valid = true ∧ s.me.comps[j].tag = (s.g 0).setWidth 16 ∧
        (∀ k : Fin 16, k < j → ¬(s.me.comps[k].valid = true ∧ s.me.comps[k].tag = (s.g 0).setWidth 16)) ∧ s.me.comps[j].status = 0) ∧
    (let s := one fun x => { x with errOut := [⟨0, true, anyReach⟩] };
      Ready s ∧ s.me.errRec = 0 ∧ (∀ k : Fin 16, ¬(s.me.comps[k].valid = true ∧ s.me.comps[k].tag = (s.g 0).setWidth 16)) ∧
        ∃ o ∈ s.me.errOut, o.tag = (s.g 0).setWidth 16 ∧ o.wait = true) ∧
    let s := one fun x => { x with errOut := [⟨0, false, anyReach⟩] };
    Ready s ∧ s.me.errRec = 0 ∧ (∀ k : Fin 16, ¬(s.me.comps[k].valid = true ∧ s.me.comps[k].tag = (s.g 0).setWidth 16)) ∧
      ∀ o ∈ s.me.errOut, ¬(o.tag = (s.g 0).setWidth 16 ∧ o.wait = true) :=
  ⟨⟨15, ⟨rfl, rfl⟩, rfl, by decide +kernel⟩,
   ⟨⟨rfl, rfl⟩, rfl, by decide +kernel, ⟨0, true, anyReach⟩, by decide +kernel, by decide +kernel, rfl⟩,
   ⟨rfl, rfl⟩, rfl, by decide +kernel, by decide +kernel⟩

/-- A header of a class between two ends. -/
def hdrOf (src dst : Ep) (cls arg : Nat) : MsgHdr :=
  { attempt := 0, dst := dst, src := src, cls := cls, slot := 0, tnt := 0, seq := 0, arg := BitVec.ofNat 48 arg, len := 0, m := 0,
    stream := .none, pid := 0, netid := 0 }

def msgOf (src dst : Ep) (cls arg : Nat) (p : List Byte) : Msg := ⟨hdrOf src dst cls arg, p⟩

theorem witness_ErrandFrame : Ready plain ∧ ∃ m q, let s := plain.modTile 8191 fun t => { t with execQ := [.frame m] };
    s.dev.railUp = true ∧ FrameFirst s 8191 m q ∧ (s.tile 8191).errs = 0 ∧ (frameTarget m.payload).toNat < 0xD0000 ∧
    frameCheck m.payload = .ok [.fins 1 2 3, .reply 1] ∧
    (frameOpnd m.payload 2).toNat % 8 = 0 ∧ (frameOpnd m.payload 2).toNat + 8 ≤ 0xD0000 ∧
    (frameOpnd m.payload 1).toNat / 256 % 16 = 8 ∧ (frameOpnd m.payload 1).toNat % 64 + 8 ≤ 64 :=
  ⟨⟨rfl, rfl⟩, msgOf ⟨.tile, 0⟩ ⟨.tile, 8191⟩ clsERRAND 0 goodFrame, [], rfl,
   ⟨rfl, ⟨by decide +kernel, by decide +kernel⟩⟩, by decide +kernel, by decide +kernel, rfl, by decide +kernel⟩

/-- An end's inbox given. -/
def inboxAt (e : Ep) (l : List Msg) (s : State) : State := s.modFab e fun f => { f with inbox := l }

/-- An errand that waits and one that does not, in the last tile. -/
theorem witness_ErrandReply : ∀ w : Bool, ∃ m o,
    let s := inboxAt ⟨.tile, 8191⟩ [m] (plain.modSlot 8191 0 fun x => { x with run := .running, errOut := [⟨5, w, anyReach⟩] });
    s.dev.railUp = true ∧ Inbox s ⟨.tile, 8191⟩ 0 m ∧ m.hdr.cls = clsREPLY ∧
    let k : Fin 8 := Fin.ofNat 8 m.hdr.aslot
    (s.slot 8191 k).run = .running ∧ (s.slot 8191 k).errOut = [o] ∧ o.tag.toNat = bits m.hdr.arg 15 0 ∧ o.wait = w ∧
    bits m.hdr.arg 23 16 = 0 ∧ ∀ j : Fin 16, (s.slot 8191 k).comps[j].valid = false := fun w => by
  refine ⟨msgOf ⟨.tile, 1⟩ ⟨.tile, 8191⟩ clsREPLY 5 [], ⟨5, w, anyReach⟩, ?_⟩
  cases w <;> exact ⟨rfl, by unfold Inbox; decide +kernel, rfl, by decide +kernel, by decide +kernel, by decide +kernel, rfl, by decide +kernel,
    by decide +kernel⟩

/-- Handle 15 bound, with a room of 1, a weight of 65535. -/
def reelOne (w : Word) (f : Slot → Slot) : State := one fun x => f { x with handles := x.handles.set 15 w }

/-- An unbound handle; and one with room 1, for weights 0, 1 and 2. -/
theorem witness_ReelArrival :
    (∃ i n ok, Arrives i 15 n ok ∧ ok plain ∧ Ready plain ∧ bit (handleWord plain 15) 63 = false) ∧
    ∀ v : Word, v = 0 ∨ v = 1 ∨ v = 2 → ∃ i n ok, let s := reelOne 0x80003FFFFFFFFF80 fun x => x.setG 2 v;
      let w := handleWord s 15
      Arrives i 15 n ok ∧ ok s ∧ Ready s ∧ bit w 63 = true ∧ bit w 5 = false ∧ bits w 21 6 < bits w 37 22 ∧
        bits w 37 22 - bits w 21 6 = 1 ∧ n s = v.toNat ∧ s.me.rupds = [] ∧ s.me.errOut = [] := by
  refine ⟨⟨_, _, _, .garr 15 0, trivial, ⟨rfl, rfl⟩, by decide +kernel⟩, fun v h => ⟨_, _, _, .garr 15 2, trivial, ?_⟩⟩
  rcases h with rfl | rfl | rfl <;>
    exact ⟨⟨rfl, rfl⟩, by decide +kernel, by decide +kernel, by decide +kernel, by decide +kernel, by decide +kernel, rfl, rfl⟩

/-- A vote of full weight, and one whose answer has come. -/
theorem witness_ReelCollectives :
    (∃ i kind give ok fin, let s := reelOne 0x80003FFFC0000000 fun x => x.setG 2 1;
      let w := handleWord s 15
      Collective i 15 kind give ok fin ∧ Ready s ∧ ok s ∧ bit w 63 = true ∧ bit w 5 = false ∧ bits w 21 6 < bits w 37 22 ∧
        (isVote kind = true → (give s (bits w 37 22 - bits w 21 6)).toNat ≤ bits w 37 22 - bits w 21 6) ∧ s.me.rupds = [] ∧ s.me.errOut = []) ∧
    ∃ i kind give ok fin op ans, let s := reelOne 0x80003FFFFFFFFFFF fun x => { x with pend := .reelDone 8 [1, 2, 3, 4] };
      Collective i 15 kind give ok fin ∧ Ready s ∧ ok s ∧ bit (handleWord s 15) 63 = true ∧ bit (handleWord s 15) 5 = true ∧
        s.me.pend = .reelDone op ans :=
  ⟨⟨_, _, _, _, _, .voteAll 15 1 2, ⟨rfl, rfl⟩, trivial, by decide +kernel, by decide +kernel, by decide +kernel, by decide +kernel, rfl, rfl⟩,
   _, _, _, _, _, 8, _, .redMax 15 2 31 30, ⟨rfl, rfl⟩, by decide, by decide +kernel, by decide +kernel, rfl⟩

/-- A bound handle, a weight of 0, a good word, and an answer. -/
theorem witness_ReelMembership :
    (∃ i sc, Joins i 15 2 sc 1 2) ∧
    (let s := reelOne 0x8000000000000000 id; Ready s ∧ s.me.pend = .none ∧ bit (handleWord s 15) 63 = true) ∧
    (let s := reelOne 0 fun x => x.setG 2 0xFFFF0000FFFFFFFF;
      Ready s ∧ s.me.pend = .none ∧ bit (handleWord s 15) 63 = false ∧ bits (s.g 2) 47 32 = 0) ∧
    (let s := reelOne 0 fun x => x.setG 2 0x03FFFFFFFFFFFFFF;
      Ready s ∧ bit (handleWord s 15) 63 = false ∧ bits (s.g 2) 47 32 ≠ 0 ∧ bits (s.g 2) 63 58 = 0) ∧
    ∀ ans, let s := reelOne 0 fun x => { x with pend := .reelDone 7 ans }; Ready s ∧ s.me.pend = .reelDone 7 ans :=
  ⟨⟨_, _, .gjoin 15 1 2⟩, ⟨⟨rfl, rfl⟩, rfl, by decide +kernel⟩, ⟨⟨rfl, rfl⟩, rfl, by decide +kernel, by decide +kernel⟩,
   ⟨⟨rfl, rfl⟩, by decide +kernel⟩, fun _ => ⟨⟨rfl, rfl⟩, rfl⟩⟩

/-- A full handle of phase 31 whose phase has completed, and one at phase 1. -/
theorem witness_ReelQueries : ∀ w : Word, w = 0x80003FFFFFFFFFDF ∨ w = 0x8000000000000001 →
    let s := reelOne w fun x => { x with pend := .reelDone 8 [32, 0, 0, 0] };
    Ready s ∧ bit (handleWord s 15) 63 = true ∧ s.me.pend = .reelDone 8 [32, 0, 0, 0] ∧
    (((wordAt [32, 0, 0, 0] 0).setWidth 32 : BitVec 32) - (s.g 0).setWidth 32 - 1).toNat < 2 ^ 31 := by
  intro w h
  rcases h with rfl | rfl <;> exact ⟨⟨rfl, rfl⟩, by decide +kernel, rfl, by decide +kernel⟩

/-- A station with one entry, and `l` its members. -/
def stationOf (e : ReelEntry) (l : List (Nat × Member)) (m : Msg) : State :=
  (plain.modReel 31 fun x => { x with entries := [(0, e)], members := l }).modFab ⟨.reel, 31⟩ fun f => { f with inbox := [m] }

def memberOf (rank weight arr : Nat) : Member :=
  { entry := 0, pid := 9, tile := 0, slot := 0, rank := rank, weight := weight, state := .counted, arr := arr, early := 0, val := 0,
    hasVal := false, vnext := false, ekind := 0, ey := 0, en := 0, first := 0, made := false }

def entryOf (counted arrived : Nat) : ReelEntry :=
  { ReelEntry.fresh 0 1 5 0 true with phase := 0xFFFFFFFF, counted := counted, arrived := arrived }

/-- A REEL message to station 31 from PID 9. -/
def reelMsg (op rank : Nat) (words : List Word) : Msg :=
  ⟨{ hdrOf ⟨.tile, 0⟩ ⟨.reel, 31⟩ clsREEL (op + rank * 65536) with pid := 9, netid := 1 }, ofWords words⟩

theorem atStation {e : ReelEntry} {l : List (Nat × Member)} {m : Msg} {op : Nat} (h : m.hdr.cls = clsREEL)
    (ho : bits m.hdr.arg 7 0 = op) (hb : ((stationOf e l m).fab ⟨.reel, 31⟩).inbox = [m]) :
    AtStation (stationOf e l m) 31 0 op m :=
  ⟨rfl, by decide, by unfold Inbox; rw [hb]; rfl, h, ho, fun _ _ hk => absurd hk (by omega)⟩

/-- Each message at a station it can be taken from: a first entry, a join, a leave, a depart, a move. -/
theorem witness_ReelMembers :
    (∃ m k i, let s := inboxAt ⟨.reel, 31⟩ [m] (plain.modMgr fun g => { g with nets := [] });
      AtStation s 31 0 1 m ∧ (s.reelSt 31).named m.hdr.netid (msgWord m 0 % 2 ^ 32) = none ∧
        freeKey (s.reelSt 31).entries 0 256 = some k ∧ freeKey (s.reelSt 31).members 0 4096 = some i) ∧
    (∃ m k e i, let s := stationOf (entryOf 3 0) [(0, memberOf 0 3 0)] m;
      AtStation s 31 0 2 m ∧ (s.reelSt 31).named m.hdr.netid (msgWord m 0 % 2 ^ 32) = some (k, e) ∧
        mapFind (s.reelSt 31).entries k = some e ∧ (∀ x ∈ (s.reelSt 31).of k, x.2.rank ≠ msgWord m 0 / 2 ^ 48 % 2 ^ 10) ∧
        ((s.reelSt 31).of k).length < 1024 ∧ freeKey (s.reelSt 31).members 0 4096 = some i ∧ e.arrived = 0) ∧
    (∀ op, op = 3 ∨ op = 9 → ∃ m e i o, let s := stationOf (entryOf 3 0) [(0, memberOf 0 3 0)] m;
      AtStation s 31 0 op m ∧ Names s 31 m (msgWord m 0 % 65536) e i o ∧ o.state = .counted ∧ o.arr = 0 ∧ o.early = 0 ∧ e.arrived = 0) ∧
    ∃ m i o, let s := stationOf (entryOf 3 0) [(0, memberOf 0 3 0)] m;
      AtStation s 31 0 10 m ∧ (s.reelSt 31).member (bits m.hdr.arg 15 8) (bits m.hdr.arg 25 16) (msgWord m 0 % 65536) m.hdr.netid = some (i, o) := by
  refine ⟨⟨reelMsg 1 0 [0x0000000300000005, 0, 9, 0, 0], 0, 0, ⟨rfl, by decide, by unfold Inbox; decide +kernel, rfl, by decide +kernel, fun _ _ hk => absurd hk (by omega)⟩,
      by decide +kernel⟩,
    ⟨reelMsg 2 1 [0x0001000300000005, 0, 10, 1, 0], 0, entryOf 3 0, 1, atStation rfl (by decide +kernel) (by decide +kernel),
      by decide +kernel, by decide +kernel, by decide +kernel, by decide +kernel, by decide +kernel, rfl⟩, fun op h => ?_,
    ⟨reelMsg 10 0 [9, 8191, 7], 0, memberOf 0 3 0, atStation rfl (by decide +kernel) (by decide +kernel), by decide +kernel⟩⟩
  rcases h with rfl | rfl
  · exact ⟨reelMsg 3 0 [9], entryOf 3 0, 0, memberOf 0 3 0, atStation rfl (by decide +kernel) (by decide +kernel),
      ⟨by decide +kernel, by decide +kernel⟩, rfl, rfl, rfl, rfl⟩
  · exact ⟨reelMsg 9 0 [9], entryOf 3 0, 0, memberOf 0 3 0, atStation rfl (by decide +kernel) (by decide +kernel),
      ⟨by decide +kernel, by decide +kernel⟩, rfl, rfl, rfl, rfl⟩

/-- A member of weight 3 of an entry that counts 3 or 4: an arrival of 3, with each count; a wait, an INFO, a gang notice. -/
theorem witness_ReelPhases :
    (∀ c, c = 3 ∨ c = 4 → ∃ m e i o, let s := stationOf (entryOf c 0) [(0, memberOf 0 3 0)] m;
      Names s 31 m m.hdr.pid e i o ∧ o.entry = bits m.hdr.arg 15 8 ∧ AtStation s 31 0 4 m ∧
        msgWord m 0 % 32 = e.phase.toNat % 32 ∧ msgWord m 2 = 0 ∧ e.arrived + msgWord m 1 = 3 ∧ e.counted = c ∧ e.early = 0 ∧
        o.state = .counted ∧ (s.reelSt 31).waiters = [] ∧ msgWord m 4 = 0) ∧
    (∀ op, op = 5 ∨ op = 6 ∨ op = 11 → ∃ m e i o, let s := stationOf (entryOf 3 0) [(0, memberOf 0 3 0)] m;
      Names s 31 m m.hdr.pid e i o ∧ o.entry = bits m.hdr.arg 15 8 ∧ AtStation s 31 0 op m ∧ msgWord m 1 = 0 ∧
        msgWord m 0 % 32 = e.phase.toNat % 32) := by
  constructor
  · intro c h
    rcases h with rfl | rfl
    all_goals
      exact ⟨reelMsg 4 0 [31, 3, 0, 0, 0], entryOf _ 0, 0, memberOf 0 3 0, ⟨by decide +kernel, by decide +kernel⟩, rfl,
        atStation rfl (by decide +kernel) (by decide +kernel), by decide +kernel, by decide +kernel, by decide +kernel, rfl, rfl, rfl, rfl,
        by decide +kernel⟩
  · intro op h
    rcases h with rfl | rfl | rfl
    · exact ⟨reelMsg 5 0 [31, 0], entryOf 3 0, 0, memberOf 0 3 0, ⟨by decide +kernel, by decide +kernel⟩, rfl,
        atStation rfl (by decide +kernel) (by decide +kernel), by decide +kernel, by decide +kernel⟩
    · exact ⟨reelMsg 6 0 [31, 0], entryOf 3 0, 0, memberOf 0 3 0, ⟨by decide +kernel, by decide +kernel⟩, rfl,
        atStation rfl (by decide +kernel) (by decide +kernel), by decide +kernel, by decide +kernel⟩
    · exact ⟨reelMsg 11 0 [31, 0], entryOf 3 0, 0, memberOf 0 3 0, ⟨by decide +kernel, by decide +kernel⟩, rfl,
        atStation rfl (by decide +kernel) (by decide +kernel), by decide +kernel, by decide +kernel⟩

/-- A REEL message from station 31 to slot 0 of the last tile. -/
def reelBack (op : Nat) (words : List Word) : Msg :=
  ⟨{ hdrOf ⟨.reel, 31⟩ ⟨.tile, 8191⟩ clsREEL op with pid := 9, netid := 1 }, ofWords words⟩

/-- An answer to each request, a gang notice, and an EXPAND. -/
theorem witness_ReelAnswers :
    (∃ m, let s := inboxAt ⟨.tile, 8191⟩ [m] (plain.modSlot 8191 0 fun x => { x with pend := .reel 7 5 });
      Inbox s ⟨.tile, 8191⟩ 0 m ∧ m.hdr.cls = clsREEL ∧ bits m.hdr.arg 7 0 = 7 ∧ (s.slot 8191 0).pend = .reel 7 (msgWord m 3) ∧
        (toWords m.payload).length = 4) ∧
    (∃ m, let s := inboxAt ⟨.tile, 8191⟩ [m] (plain.modSlot 8191 0 fun x => { x with pend := .reel 8 (reelKey 0 31 0 4) });
      Inbox s ⟨.tile, 8191⟩ 0 m ∧ m.hdr.cls = clsREEL ∧ bits m.hdr.arg 7 0 = 8 ∧
        (s.slot 8191 0).pend = .reel 8 (reelKey (msgWord m 3 / 2 ^ 56) m.hdr.src.num (bits m.hdr.arg 15 8) (msgWord m 0)) ∧
        (toWords m.payload).length = 4) ∧
    (∃ m, let s := inboxAt ⟨.tile, 8191⟩ [m] (plain.modSlot 8191 0 fun x => { x with run := .running, pid := 9 });
      Inbox s ⟨.tile, 8191⟩ 0 m ∧ m.hdr.cls = clsREEL ∧ bits m.hdr.arg 7 0 = 11 ∧ (s.slot 8191 0).run ≠ .empty ∧
        (s.slot 8191 0).pid.toNat = m.hdr.pid) ∧
    ∃ m e i o c, let s := (stationOf (entryOf 3 0) [(0, memberOf 0 3 0)] m).modSlot 0 0 fun x => { x with pend := .copy c };
      AtStation s 31 0 12 m ∧ Names s 31 m m.hdr.pid e i o ∧ o.tile < 8192 ∧ (s.slot o.tile (Fin.ofNat 8 o.slot)).pend = .copy c :=
  ⟨⟨reelBack 7 [0, 0, 0, 5], by unfold Inbox; decide +kernel, rfl, by decide +kernel⟩,
   ⟨reelBack 8 [36, 0, 0, 0], by unfold Inbox; decide +kernel, rfl, by decide +kernel⟩,
   ⟨reelBack 11 [9], by unfold Inbox; decide +kernel, rfl, by decide +kernel⟩,
   ⟨reelMsg 12 0 [9], entryOf 3 0, 0, memberOf 0 3 0, answered [],
    ⟨rfl, by decide, by unfold Inbox; decide +kernel, rfl, by decide +kernel, fun _ _ hk => absurd hk (by omega)⟩,
    ⟨by decide +kernel, by decide +kernel⟩, by decide, by decide +kernel⟩⟩

/-! ### Hypotheses met: sync words, trace, scheduling -/

/-- The last sync word of the tile, at generation 2^31, waited for at once and at the first generation not reached. -/
def syncOne (want : Nat) : State :=
  oneOn (fun x => { x with mem := Mem.writeBytes [] 0xCFFF0 (toBytes 12 0x800000000000000000000005) }) fun x =>
    (x.setG 2 0xCFFF0).setG 3 (BitVec.ofNat 64 want)

theorem witness_SyncWords :
    (let s := syncOne 0; Ready s ∧ s.syncCheck true (s.g 2) = .ok (0, 0xCFFF0) ∧ (s.tile 0).errs = 0 ∧ bits s.myTile.inject 3 0 ≠ 5 ∧
      s.released = true ∧ (s.modSlot 0 0 fun x => { x with rupds := [(0, anyReach)] }).released = false) ∧
    (let s := syncOne 1; s.syncCheck false (s.g 2) = .ok (0, 0xCFFF0) ∧ s.me.wait = none ∧ s.me.pend = .none ∧
      (swGen s 0 0xCFFF0 + 2 ^ 32 - (s.g 3).toNat % 2 ^ 32) % 2 ^ 32 = 2 ^ 31 - 1) ∧
    let s := syncOne 0
    (swGen s 0 0xCFFF0 + 2 ^ 32 - (s.g 3).toNat % 2 ^ 32) % 2 ^ 32 = 2 ^ 31 :=
  ⟨⟨⟨rfl, rfl⟩, by rfl, rfl, by decide +kernel⟩, ⟨by rfl, rfl, rfl, by decide +kernel⟩, by decide +kernel⟩

/-- A tile whose trace is on, with the drops of a GAP. -/
def traceOne (c : BitVec 4) (gap : Nat) : State :=
  oneOn (fun x => { x with trctl := c, trace := { x.trace with gap := gap } }) id

theorem witness_TraceInstructions :
    (∃ i, (∃ a, i = Instr.temit a ∧ (1 : Nat) = 1)) ∧ (Ready (traceOne 0 0) ∧ bit (traceOne 0 0).myTile.trctl 0 = false) ∧
    (bit (traceOne 3 0).myTile.trctl 2 = false) ∧
    (let s := traceOne 7 1; Ready s ∧ bit s.myTile.trctl 0 = true ∧ bit s.myTile.trctl 1 = true ∧ bit s.myTile.trctl 2 = true ∧
      s.myTile.trace.gap ≠ 0) ∧
    let s := traceOne 7 0
    Ready s ∧ s.myTile.trace.gap = 0 ∧ s.myTile.trace.heldCaps = [] ∧ s.myTile.trace.fifo.length < 256 ∧
      16 ≤ (s.modTile s.cur.tile fun x => { x with trace := x.trace.roll (s.cycle s.cur.tile) }).traceLeft s.cur.tile s.cur.slot.val :=
  ⟨⟨_, 0, rfl, rfl⟩, ⟨⟨rfl, rfl⟩, by decide +kernel⟩, by decide +kernel,
   ⟨⟨rfl, rfl⟩, by decide +kernel⟩,
   ⟨rfl, rfl⟩, by decide +kernel⟩

/-- A supervisor's slot: level S, the last park record in g2 with its WAIT byte and deadline, `n` records in each FIFO. -/
def parkOne (w dl n : Nat) (f : Slot → Slot) : State :=
  oneOn (fun x => { x with mem := Mem.writeBytes [] 0xCFFC5 (toBytes 1 w ++ toBytes 10 0 ++ toBytes 8 dl),
                           ready := Vector.replicate 4 (List.replicate n 0xC0000) }) fun x =>
    f { x.setG 2 0xCFFC0 with status := 0x10 }

theorem witness_ReadyQueue :
    (let s := parkOne 0 0 32 id; Ready s ∧ 1 ≤ s.me.prv ∧ RecAddr s 2 0xCFFC0 ∧ 32 ≤ (s.myTile.ready[(3 : Fin 4)]).length) ∧
    (let s := parkOne 0 0 31 id; Ready s ∧ 1 ≤ s.me.prv ∧ RecAddr s 2 0xCFFC0 ∧ (s.myTile.ready[(3 : Fin 4)]).length < 32) ∧
    (let s := parkOne 0 0 0 id; Ready s ∧ 1 ≤ s.me.prv ∧ ∀ p : Fin 4, s.myTile.ready[p] = []) ∧
    (let s := oneOn (fun x => { x with ready := x.ready.set 3 [7, 8] }) fun x => { x with status := 0x10 };
      Ready s ∧ 1 ≤ s.me.prv ∧ s.myTile.ready[(3 : Fin 4)] = 7 :: [8] ∧ ∀ q : Fin 4, q < 3 → s.myTile.ready[q] = []) ∧
    (∀ w, w = 2 ∨ w = 3 → let s := parkOne w 0 31 id;
      Ready s ∧ RecAddr s 2 0xCFFC0 ∧ Mem.load s.myTile.mem (0xCFFC0 + 5) 1 = w ∧ Mem.load s.myTile.mem (0xCFFC0 + 16) 8 ≤ s.time ∧
        Mem.load s.myTile.mem (0xCFFC0 + 2) 2 % 2 = 0 ∧
        (s.myTile.ready[Fin.ofNat 4 (Mem.load s.myTile.mem (0xCFFC0 + 4) 1)]).length < 32 ∧ s.cur.slot ≠ s.myTile.supSlot) ∧
    let s := parkOne 2 1 0 id
    Ready s ∧ RecAddr s 2 0xCFFC0 ∧ Mem.load s.myTile.mem (0xCFFC0 + 5) 1 = 2 ∧ s.time < Mem.load s.myTile.mem (0xCFFC0 + 16) 8 ∧
      s.myTile.watch.length < 32 := by
  refine ⟨⟨⟨rfl, rfl⟩, by decide +kernel, by unfold RecAddr; decide +kernel, by decide +kernel⟩,
    ⟨⟨rfl, rfl⟩, by decide +kernel, by unfold RecAddr; decide +kernel, by decide +kernel⟩,
    ⟨⟨rfl, rfl⟩, by decide +kernel, by decide +kernel⟩, ⟨⟨rfl, rfl⟩, by decide +kernel⟩, ?_,
    ⟨rfl, rfl⟩, by unfold RecAddr; decide +kernel, by decide +kernel⟩
  intro w h
  rcases h with rfl | rfl <;>
    exact ⟨⟨rfl, rfl⟩, by unfold RecAddr; decide +kernel, by decide +kernel⟩

/-- The other vector slot in a run state, its save area the last of the scratchpad; and slot 7. -/
theorem witness_SlotControl :
    (∀ r : RunState, let s := (parkOne 0 0 0 fun x => (x.setG 2 7)).modSlot 0 7 fun x => { x with run := r };
      Ready s ∧ 1 ≤ s.me.prv ∧ OtherSlot s 2 7 ∧ 2 ≤ (7 : Fin 8).val ∧ (s.slot s.cur.tile 7).run = r ∧ (s.slot s.cur.tile 7).quiet = true) ∧
    let s := (parkOne 0 0 0 fun x => (x.setG 2 1).setG 3 0xB0AC0).modSlot 0 1 fun x => { x with run := .stopped }
    Ready s ∧ 1 ≤ s.me.prv ∧ OtherSlot s 2 1 ∧ (1 : Fin 8).val < 2 ∧ (s.slot s.cur.tile 1).run = .stopped ∧ s.g 3 ≠ 0 ∧
      (s.g 3).toNat % 64 = 0 ∧ (s.g 3).toNat + 0xF540 = 0xC0000 ∧ s.myTile.errs = 0 ∧ bits s.myTile.inject 3 0 ≠ 5 := by
  refine ⟨fun r => ?_, ⟨rfl, rfl⟩, by decide +kernel, by unfold OtherSlot; decide +kernel, by decide, by decide +kernel,
    by decide +kernel, by decide +kernel, by decide +kernel, rfl, by decide +kernel⟩
  cases r <;> exact ⟨⟨rfl, rfl⟩, by decide +kernel, by unfold OtherSlot; decide +kernel, by decide +kernel⟩

/-- A partition of four by four tiles from the first. -/
def part0 : Partition := { tnt := 1, rx := 0, ry := 0, rw := 1, rh := 1, rcb := Rcb.only 53 0x80, ptdir := 0, owned := [], maps := [] }

/-- A slot at level M in that partition, whose g2 names tile `u`. -/
def voltaOne (u : Nat) (f : Slot → Slot) : State :=
  (one fun x => f { x.setG 2 (BitVec.ofNat 64 u) with status := 0x20 }).modMgr fun m => { m with parts := [part0] }

theorem witness_Voltas :
    (let s := voltaOne 0 id;
      Ready s ∧ 1 ≤ s.me.prv ∧ bit (s.assistBits (((s.partOf s.cur.tile).map (·.tnt)).getD 0)) 5 = false ∧
        s.freeFor s.cur.tile ((s.g 2).toNat % 2 ^ 16) = false ∧ s.me.pend = .none) ∧
    (let s := voltaOne 1 id;
      Ready s ∧ 1 ≤ s.me.prv ∧ bit (s.assistBits (((s.partOf s.cur.tile).map (·.tnt)).getD 0)) 5 = false ∧
        s.freeFor s.cur.tile ((s.g 2).toNat % 2 ^ 16) = true ∧ (∀ k : Fin 8, k ≠ s.cur.slot → (s.slot s.cur.tile k).run ≠ .running ∧
          (s.slot s.cur.tile k).run ≠ .stopping) ∧ s.me.rupds = []) ∧
    (let s := voltaOne 5 id; Ready s ∧ 2 ≤ s.me.prv ∧ (s.tile ((s.g 2).toNat % 2 ^ 16)).vacated = false ∧ s.g 0 = 0) ∧
    let s := (voltaOne 5 fun x => x.setG 3 9).modTile 5 fun x => { x with vacated := true }
    Ready s ∧ 2 ≤ s.me.prv ∧ (s.tile ((s.g 2).toNat % 2 ^ 16)).vacated = true ∧ s.g 0 = 0 ∧ s.g 3 ≠ 0 :=
  ⟨⟨⟨rfl, rfl⟩, by decide +kernel, by decide +kernel, by decide +kernel, rfl⟩,
   ⟨⟨rfl, rfl⟩, by decide +kernel, by decide +kernel, by decide +kernel, by decide +kernel, rfl⟩,
   ⟨⟨rfl, rfl⟩, by decide +kernel⟩,
   ⟨rfl, rfl⟩, by decide +kernel⟩

/-! ### Hypotheses met: events at a tile -/

/-- The supervisor slot of tile 0 running its handler, interrupts enabled, with more STATUS bits. -/
def supTile (st : Nat) : State :=
  (oneOn (fun x => { x with start := BitVec.allOnes 32768, wakeEval := 0xC0000 }) id).modSlot 0 7 fun x =>
    { x with run := .running, status := BitVec.ofNat 64 (0x102 + st), tvec := 0xDFFFE }

/-- Each event at the ends of its range. -/
theorem witness_SupervisorEvents :
    (∀ i j c, (SupEvent i 0 c ∧ ((j = 40 ∨ j = 47) ∧ i = .watchdogEvent 0 ∨ j = 49 ∧ i = .migrateEvent 0 ∨
        (j = 32 ∨ j = 39) ∧ i = .timerEvent 0 ∨ j = 48 ∧ i = .wakeEvent 0)) →
      let s := supTile (2 ^ j)
      let k := (s.tile 0).supSlot
      let x := s.slot 0 k
      s.dev.railUp = true ∧ (c s k.val j).2.2 ∧ x.run = .running ∧ x.pend = .none ∧ x.ie = true ∧ x.td = false ∧ bit x.status j = true ∧
        (s.tile 0).checkTarget x.tvec = none) ∧
    (∃ c, SupEvent (.watchdogEvent 0) 0 c) ∧ (∃ c, SupEvent (.migrateEvent 0) 0 c) ∧ (∃ c, SupEvent (.timerEvent 0) 0 c) ∧
    ∃ c, SupEvent (.wakeEvent 0) 0 c := by
  refine ⟨?_, ⟨_, .watchdog 0⟩, ⟨_, .migrate 0⟩, ⟨_, .timer 0⟩, ⟨_, .wake 0⟩⟩
  intro i j c h
  obtain ⟨h1, ⟨hj | hj, rfl⟩ | ⟨hj, rfl⟩ | ⟨hj | hj, rfl⟩ | ⟨hj, rfl⟩⟩ := h <;> subst hj <;> cases h1 <;>
    exact ⟨rfl, by
      first
        | exact ⟨by decide, by decide, fun j h1 h2 => by omega⟩
        | exact ⟨by decide, by decide, fun j h1 h2 => by
            have : ∀ j, j < 47 → 40 ≤ j → bit ((supTile (2 ^ 47)).slot 0 7).status j = false := by decide +kernel
            exact this j h2 h1⟩
        | exact ⟨rfl, by decide +kernel⟩
        | exact ⟨by decide, by decide, by decide +kernel, by decide +kernel, fun j h1 h2 => by omega⟩
        | exact ⟨by decide, by decide, by decide +kernel, by decide +kernel, fun j h1 h2 => by
            have : ∀ j, j < 39 → 32 ≤ j → bit ((supTile (2 ^ 39)).slot 0 7).status j = false := by decide +kernel
            exact this j h2 h1⟩,
      by decide +kernel⟩

/-- A watchdog at its limit plus one, a timer and a deadline that have come. -/
theorem witness_TimersExpire :
    (let s := one fun x => { x with wdog := 6, wdlim := 5 };
      s.dev.railUp = true ∧ (s.slot 0 0).wdlim.toNat < (s.slot 0 0).wdog.toNat ∧ (s.slot 0 0).wdFired = false ∧
        (s.slot 0 0).run = .running ∧ (s.slot 0 0).quiet = true ∧ (0 : Fin 8) ≠ (s.tile 0).supSlot) ∧
    (let s := oneOn (fun x => { x with timers := x.timers.set 7 (some 0) }) id;
      (s.tile 0).timers[(7 : Fin 8)] = some 0 ∧ 0 ≤ s.time) ∧
    ∃ w, let s := oneOn (fun x => { x with mem := [(0xCFFC2, 2)], watch := [w] }) id
      (s.tile 0).watch[0]? = some w ∧ (w.wait = 2 ∨ w.wait = 3) ∧ w.deadline ≤ s.time ∧
        Mem.load (s.tile 0).mem (w.addr + 2) 2 % 4 = 2 ∧ ((s.tile 0).ready[Fin.ofNat 4 (Mem.load (s.tile 0).mem (w.addr + 4) 1)]).length < 32 :=
  ⟨⟨rfl, by decide +kernel⟩,
   ⟨by decide +kernel, by decide⟩,
   { addr := 0xCFFC0, pid := 0, wait := 3, port := 0, deadline := 0, lastProbe := none }, by decide +kernel, .inr rfl, by decide +kernel⟩

/-- VT good and bad. -/
theorem witness_VectorRegisterWrites : plain.dev.railUp = true ∧ ((plain.tile 0).vecs[vecIdx 1]).bad = false ∧
    (let s := vecOne 0x80000000 0 id; s.dev.railUp = true ∧ ((s.tile 0).vecs[vecIdx 0]).bad = true) ∧ (0x7FF : Word).toNat < 2 ^ 11 ∧
    fmtKnown (bits (0x798 : Word) 4 0) = true := by decide +kernel

theorem witness_TileRegisterWrites : (∃ i f, TileWrite i 0 f) ∧ plain.dev.railUp = true := ⟨⟨_, _, .mslot 0 15 3⟩, rfl⟩

/-- A slot at P and at S, stopped and running. -/
theorem witness_SlotRegisterWrites : (∃ c o f, SlotReg c o f) ∧ plain.dev.railUp = true ∧ (plain.slot 0 0).prv = 0 ∧
    1 ≤ ((one fun x => { x with status := 0x10 }).slot 0 0).prv ∧
    ((plain.modSlot 0 0 fun x => { x with run := .stopped }).slot 0 0).run = .stopped ∧ (plain.slot 0 0).run ≠ .stopped :=
  ⟨⟨_, _, _, .cause⟩, rfl, by decide +kernel⟩

/-- A network of one process. -/
def net0 : Network :=
  { netid := 1, tnt := 1, rcb := Rcb.only 53 0x80, tag := 0, pidBase := 9, nproc := 1, chans := [], spillBase := 0, spillSize := 0,
    spillPages := [], poisoned := none }

/-- The process of tile 0, slot 0, its network and partition; the slot in a run state. -/
def homed (r : RunState) : State :=
  (plain.modSlot 0 0 fun x => { x with run := r, pid := 9, netid := 1, tenant := 1 }).modMgr fun m =>
    { m with parts := [part0], nets := [net0], procs := [proc0], scAt := 0x10000, rcAt := 0x20000 }

theorem witness_ProcessEnds : ∃ r, let s := (homed .stopped).modMgr fun m => { m with ends := [r] };
    s.dev.railUp = true ∧ s.mgr.ends = r :: [] ∧ r.fault = false ∧ (s.net r.netid).isSome = true ∧ proc0 ∈ s.mgr.procs ∧
      proc0.netid = r.netid ∧ r.pid = some proc0.pid ∧ proc0.slot < 8 ∧ (∀ q ∈ s.mgr.procs, q.netid = r.netid → r.pid = some q.pid → q = proc0) ∧
      (s.slot 0 0).run = .stopped ∧ (s.slot 0 0).rupds = [] ∧ (s.slot 0 0).errOut = [] :=
  ⟨{ tile := 0, slot := some 0, netid := 1, pid := some 9, cause := 0, eval := 0, fault := false, cycle := 0, unit := 0 }, rfl, rfl, rfl, by decide +kernel,
   by decide +kernel, rfl, rfl, by decide, by decide +kernel, by decide +kernel, rfl, rfl⟩

/-! ### Hypotheses met: the supervisor channel -/

/-- One message at the head of the supervisor channel of a package that has booted. -/
def told (kind len tnt : Nat) (pay : List Byte) (s : State) : State :=
  { s with dev := { s.dev with bootStatus := 2 },
           host := (0x10000, 1) :: (((toBytes 2 kind ++ toBytes 2 len ++ toBytes 4 7 ++ toBytes 2 tnt ++ toBytes 6 0 ++ pay).zipIdx 0x10040).map
             fun b => (b.2, b.1)).filter fun c => c.2 != 0 }

def headOk (s : State) (kind len : Nat) (res : List Nat) : Bool :=
  s.dev.railUp && decide (s.headMsg = some (s.hostMsg 0)) && decide ((s.hostMsg 0).kind = kind) && decide ((s.hostMsg 0).len = len) &&
    !(s.hostMsg 0).res && !(s.hostMsg 0).resUsed res && decide (s.mgr.out = []) && s.hostRoom && decide (s.mgr.ahead = []) &&
    decide (s.mgr.acking = 0) && decide (s.mgr.scAt.toNat + 16 ≤ s.mgr.rcAt.toNat + 0x40)

theorem headOk_head {s : State} {kind len : Nat} {res : List Nat} (h : headOk s kind len res = true) :
    Head s (s.hostMsg 0) kind len res := by
  simp only [headOk, Bool.and_eq_true, decide_eq_true_eq, Bool.not_eq_true'] at h
  obtain ⟨⟨⟨⟨⟨⟨⟨⟨⟨⟨a, b⟩, c⟩, d⟩, e⟩, f⟩, g⟩, i⟩, j⟩, l⟩, k⟩ := h
  exact ⟨a, b, c, d, ⟨e, f⟩, ⟨g, i, j, l⟩, .inl k⟩

def manageOk (s : State) (op len : Nat) (res : List Nat) (pkg : Bool) : Bool :=
  headOk s 5 len ([2, 3, 4, 5, 6, 7] ++ res) && decide ((s.hostMsg 0).u 0 2 = op) &&
    if pkg then decide ((s.hostMsg 0).tnt = 0) else needPart s (s.hostMsg 0)

theorem manageOk_head {s : State} {op len : Nat} {res : List Nat} {pkg : Bool} (h : manageOk s op len res pkg = true) :
    ManageHead s (s.hostMsg 0) op len res pkg := by
  simp only [manageOk, Bool.and_eq_true, decide_eq_true_eq] at h
  obtain ⟨⟨a, b⟩, c⟩ := h
  refine ⟨headOk_head a, b, ?_⟩
  cases pkg <;> simpa using c

/-- Tenant 2, which has no partition, and tenant 0, for a row of each kind. -/
theorem witness_TenantChecked : (∃ i, TenantRow i 1 0) ∧ (∃ i, TenantRow i 5 4) ∧
    (let s := told 1 24 2 [] (homed .running); Head s (s.hostMsg 0) 1 24 [] ∧ s.part (s.hostMsg 0).tnt = none) ∧
    let s := told 5 32 0 (toBytes 2 4) (homed .running)
    Head s (s.hostMsg 0) 5 32 [] ∧ (s.hostMsg 0).u 0 2 = 4 ∧ (s.hostMsg 0).tnt = 0 :=
  ⟨⟨_, .launch⟩, ⟨_, .map⟩, ⟨headOk_head (by decide +kernel), by decide +kernel⟩, headOk_head (by decide +kernel), by decide +kernel,
   by decide +kernel⟩

/-- A region control block of level 1: tenant 1023, the last block of the package, everything inherited. -/
def block1 : List Byte :=
  [1, 0] ++ toBytes 2 1023 ++ toBytes 12 0 ++ toBytes 37 (2 ^ 296 - 1) ++ [0x80, 0, 0, 31, 15, 1, 1] ++ toBytes 4 0 ++ toBytes 64 0x1000

/-- The package without partitions; with one that is empty. -/
theorem witness_ManagePartitions :
    (∃ d, let s := told 5 136 0 (toBytes 8 1 ++ block1) ((homed .stopped).modMgr fun m => { m with parts := [], nets := [], procs := [] });
      let m := s.hostMsg 0;
      let b := (m.pay.drop 8).take 128;
      let p := partOfBlock b;
      ManageHead s m 1 136 [] true ∧ blockBad b 1 = false ∧ p.tnt ≠ 0 ∧ s.part p.tnt = none ∧ p.rw ≠ 0 ∧ p.rh ≠ 0 ∧ p.rx + p.rw ≤ 32 ∧
        p.ry + p.rh ≤ 16 ∧
        (∀ x y, s.coord s.managerTile = some (x, y) → ¬(p.rx ≤ x / 4 ∧ x / 4 < p.rx + p.rw ∧ p.ry ≤ y / 4 ∧ y / 4 < p.ry + p.rh)) ∧
        (∀ q ∈ s.mgr.parts, q.meets p = false) ∧ s.carvePart p.rcb = true ∧ s.placeDir p.ptdir = some d ∧
        (s.modMgr fun x => { x with parts := x.parts ++ [{ p with ptdir := d, owned := [(d, dirBytes)] }] }).dramFits p.tnt = true) ∧
    (∃ p, let s := told 5 10 0 (toBytes 8 2 ++ toBytes 2 1) ((homed .stopped).modMgr fun m => { m with nets := [], procs := [] });
      let m := s.hostMsg 0;
      ManageHead s m 2 10 [] true ∧ s.part (m.u 8 2) = some p ∧ (∀ q ∈ s.mgr.procs, q.tnt ≠ m.u 8 2) ∧ ∀ n ∈ s.mgr.nets, n.tnt ≠ m.u 8 2) ∧
    (∃ p, let s := told 5 24 1 (toBytes 8 3 ++ toBytes 4 0xFFFFFFFF ++ toBytes 4 49 ++ toBytes 8 3) (homed .running);
      let m := s.hostMsg 0;
      ManageHead s m 3 24 [13, 14, 15] false ∧ s.part m.tnt = some p ∧ m.u 8 4 = 0xFFFFFFFF ∧ m.u 12 1 = 49 ∧ m.u 16 8 ≤ 3) ∧
    let s := told 5 8 0 (toBytes 8 8) (homed .running)
    ManageHead s (s.hostMsg 0) 8 8 [] true := by
  refine ⟨⟨0x1000, manageOk_head (by decide +kernel), ?_⟩, ⟨part0, manageOk_head (by decide +kernel), by decide +kernel⟩,
    ⟨part0, manageOk_head (by decide +kernel), by decide +kernel⟩,
    manageOk_head (by decide +kernel)⟩
  repeat refine ⟨by decide +kernel, ?_⟩
  refine ⟨fun x y h => ?_, by decide +kernel⟩
  rw [show State.coord _ _ = some (0, 31) by decide +kernel] at h
  cases h
  decide +kernel

/-- A leaf of level 4 at 64 KiB, readable and writable. -/
def leaf4 : Word := spillLeaf 0x10000

/-- A page to map, one to unmap, a send end to rebind to port 15, and a tile's counters to read. -/
theorem witness_ManageMappings :
    (∃ p, let s := told 5 32 1 (toBytes 8 4 ++ toBytes 2 9 ++ toBytes 6 4 ++ toBytes 8 (2 ^ 57 - 2 ^ 16) ++ toBytes 8 leaf4.toNat) (homed .running);
      let m := s.hostMsg 0;
      let leaf : Word := BitVec.ofNat 64 (m.u 24 8);
      ManageHead s m 4 32 [11, 12, 13, 14, 15] false ∧ s.part m.tnt = some p ∧ leafOperand leaf (m.u 10 1) = true ∧ m.u 16 8 < 2 ^ 57 ∧
        m.u 16 8 % 2 ^ pageBits (m.u 10 1) = 0 ∧ s.mapOk p (m.u 8 2) (m.u 16 8) (m.u 10 1) leaf = true ∧
        s.migOf m.tnt (m.u 8 2) (m.u 16 8) = none ∧ (s.mapPage m.tnt (m.u 8 2) (m.u 16 8) (m.u 10 1) leaf).isSome = true) ∧
    (∃ p g, let s := told 5 24 1 (toBytes 8 5 ++ toBytes 8 9 ++ toBytes 8 0) ((homed .running).modMgr fun m => { m with parts := [{ part0 with maps := [⟨9, 0, 4, 65536⟩] }] });
      let m := s.hostMsg 0;
      ManageHead s m 5 24 [10, 11, 12, 13, 14, 15] false ∧ s.part m.tnt = some p ∧ g ∈ p.maps ∧ g.pid = m.u 8 2 ∧ g.va = m.u 16 8 ∧
        s.migOf m.tnt (m.u 8 2) (m.u 16 8) = none) ∧
    (∃ n c k i e, let s := told 5 21 1 (toBytes 8 6 ++ toBytes 4 1 ++ toBytes 4 5 ++ toBytes 4 0 ++ [15]) (((homed .running).modTile 0 fun x => { x with ends := [(0, .send outEnd)] }).modMgr fun m => { m with nets := [{ net0 with chans := [⟨5, 0, 0, 0, 1, false, 4⟩] }] });
      let m := s.hostMsg 0;
      ManageHead s m 6 21 [17] false ∧ s.net (m.u 8 4) = some n ∧ n.tnt = m.tnt ∧ n.chans.find? (fun x => x.id == m.u 12 4) = some c ∧
        m.u 16 1 = 0 ∧ c.prod ≠ 0xFFFF ∧ s.mgr.procs.find? (fun x => x.netid == m.u 8 4 && x.idx == m.u 18 2) = some proc0 ∧
        s.homeSlot proc0 = some k ∧ m.u 20 1 < 16 ∧ s.portEnd proc0.tile k (BitVec.ofNat 4 (m.u 20 1)) = none ∧
        s.findEnd (m.u 8 4) (m.u 12 4) true = some (proc0.tile, i, .send e) ∧ s.quietChan (m.u 8 4) (m.u 12 4) = true) ∧
    ∃ b, let s := told 5 24 0 (toBytes 8 7 ++ toBytes 8 0 ++ toBytes 8 0x100000) (homed .running);
      let m := s.hostMsg 0;
      Head s m 5 24 [2, 3, 4, 5, 6, 7, 9, 12, 13, 14, 15] ∧ m.u 0 2 = 7 ∧ m.tnt = 0 ∧ s.readObject (m.u 8 1) (m.u 10 2) 0 = some b ∧
        ∀ x, m.u 16 8 ≤ x → x < m.u 16 8 + b.length → ¬(s.mgr.rcAt.toNat ≤ x ∧ x < s.mgr.rcAt.toNat + 0x8040) ∧
          ¬(s.mgr.scAt.toNat + 8 ≤ x ∧ x < s.mgr.scAt.toNat + 16) := by
  refine ⟨⟨part0, manageOk_head (by decide +kernel), by decide +kernel⟩,
    ⟨_, ⟨9, 0, 4, 65536⟩, manageOk_head (by decide +kernel), rfl, by decide +kernel⟩,
    ⟨{ net0 with chans := [⟨5, 0, 0, 0, 1, false, 4⟩] }, ⟨5, 0, 0, 0, 1, false, 4⟩, 0, 0, outEnd, manageOk_head (by decide +kernel),
      by decide +kernel⟩,
    ⟨List.replicate 80 0, headOk_head (by decide +kernel), by decide +kernel, by decide +kernel, by decide +kernel, fun x h1 _ => ?_⟩⟩
  have hm : ((told 5 24 0 (toBytes 8 7 ++ toBytes 8 0 ++ toBytes 8 0x100000) (homed .running)).hostMsg 0).u 16 8 = 0x100000 := by
    decide +kernel
  rw [hm] at h1
  have h2 : (told 5 24 0 (toBytes 8 7 ++ toBytes 8 0 ++ toBytes 8 0x100000) (homed .running)).mgr.rcAt.toNat = 0x20000 := by decide +kernel
  have h3 : (told 5 24 0 (toBytes 8 7 ++ toBytes 8 0 ++ toBytes 8 0x100000) (homed .running)).mgr.scAt.toNat = 0x10000 := by decide +kernel
  rw [h2, h3]
  omega

theorem witness_HaltAndResume : ∀ r : RunState,
    (let s := told 5 11 1 (toBytes 8 9 ++ [0, 0, 0]) (homed r);
      s.haltSlot (s.hostMsg 0) = some (0, 0) ∧ ManageHead s (s.hostMsg 0) 9 11 [] false ∧ (s.slot 0 0).run = r) ∧
    let s := told 5 11 1 (toBytes 8 10 ++ [0, 0, 0]) (homed r)
    s.haltSlot (s.hostMsg 0) = some (0, 0) ∧ ManageHead s (s.hostMsg 0) 10 11 [] false ∧ (s.slot 0 0).run = r := by
  intro r
  cases r <;> exact ⟨⟨by decide +kernel, manageOk_head (by decide +kernel), by decide +kernel⟩, by decide +kernel,
    manageOk_head (by decide +kernel), by decide +kernel⟩

/-- An object of one process, `p`: its section of code one compact instruction, its place tile 0 of the partition, slot 2. -/
def object : List Byte :=
  let names := str "\x00.strtab\x00.note.dexay\x00.text.p\x00"
  let region := [2, 0] ++ toBytes 14 0 ++ toBytes 37 (2 ^ 296 - 1) ++ [0x80] ++ toBytes 74 0
  let place := toBytes 4 27 ++ toBytes 2 0 ++ [2, 0] ++ toBytes 8 0xD0000 ++ toBytes 8 0 ++ toBytes 8 permId ++ toBytes 8 permId ++ toBytes 72 0
  let desc := toBytes 8 1 ++ toBytes 4 1 ++ toBytes 4 64 ++ toBytes 24 0 ++ toBytes 4 176 ++ toBytes 4 128 ++ toBytes 16 0 ++ place ++ region
  let note := toBytes 4 6 ++ toBytes 4 304 ++ toBytes 4 1 ++ str "Dexay" ++ toBytes 3 0 ++ desc
  let sec := fun (name typ off size : Nat) => toBytes 4 name ++ toBytes 4 typ ++ toBytes 16 0 ++ toBytes 8 off ++ toBytes 8 size ++ toBytes 24 0
  [0x7F, 0x45, 0x4C, 0x46, 2, 1, 1] ++ toBytes 11 0 ++ toBytes 2 0x0C8A ++ toBytes 20 0 ++ toBytes 8 419 ++ toBytes 4 1 ++ toBytes 6 0 ++
    toBytes 2 64 ++ toBytes 2 4 ++ toBytes 2 1 ++ names ++ note ++ [0, 0] ++
    sec 0 0 0 0 ++ sec 1 3 64 29 ++ sec 9 7 93 324 ++ sec 21 1 417 2

/-- A LAUNCH of the object, in a partition whose decode tables the host has left as they are. -/
def launching : State :=
  let s := told 1 24 1 (toBytes 8 0x30000 ++ toBytes 8 (675 * 2 ^ 32) ++ [5])
    ((homed .empty).modMgr fun m => { m with parts := [{ part0 with rcb := Rcb.only 53 0x10 }], nets := [], procs := [], decodeAns := some [] })
  { s with host := s.host ++ ((object.zipIdx 0x30000).map fun b => (b.2, b.1)).filter fun c => c.2 != 0 }

def isDone : Handled → Bool
  | .done _ _ _ => true
  | _ => false

theorem done_of {h : Handled} (w : isDone h = true) : ∃ r n v, h = .done r n v := by
  cases h with
  | done r n v => exact ⟨r, n, v, rfl⟩
  | _ => exact Bool.noConfusion w

theorem witness_Launch : ∃ r netid v, Head launching (launching.hostMsg 0) 1 24 [9, 10, 11, 18, 19, 20, 21, 22, 23] ∧
    needPart launching (launching.hostMsg 0) = true ∧ launching.launchRequest (launching.hostMsg 0) = .done r netid v :=
  let ⟨r, n, v, h⟩ := done_of (h := launching.launchRequest (launching.hostMsg 0)) (by decide +kernel)
  ⟨r, n, v, headOk_head (by decide +kernel), by decide +kernel, h⟩

/-- An ABORT, a CAPTURE_START with every enable, a CAPTURE_STOP, an ATTEST far above the channels, a message held back. -/
theorem witness_HostRequests :
    (∃ n, let s := told 2 4 1 (toBytes 4 1) (homed .stopped);
      let m := s.hostMsg 0;
      Head s m 2 4 [] ∧ needPart s m = true ∧ s.net (m.u 0 4) = some n ∧ n.tnt = m.tnt ∧ m.u 0 4 ≠ 0xFFFFFFFF ∧
        ∀ p ∈ s.mgr.procs, p.netid = m.u 0 4 → (s.slot p.tile p.k).run = .stopped ∧ (s.slot p.tile p.k).rupds = [] ∧
          (s.slot p.tile p.k).errOut = []) ∧
    (∃ n, let s := told 3 20 1 (toBytes 4 1 ++ toBytes 4 14 ++ toBytes 8 0x8000000000000000 ++ toBytes 4 0x1000) (homed .running);
      let m := s.hostMsg 0;
      Head s m 3 20 [] ∧ needPart s m = true ∧ s.net (m.u 0 4) = some n ∧ n.tnt = m.tnt ∧ m.resUsed [5, 6, 7] = false ∧
        m.u 4 1 % 2 = 0 ∧ m.u 4 1 < 16 ∧ m.u 16 4 ≠ 0 ∧ m.u 16 4 % 4096 = 0 ∧ bits (BitVec.ofNat 64 (m.u 8 8)) 63 57 = 0x40 ∧
        ∀ u, bit (s.tile u).trctl 0 = false) ∧
    (∃ n, let s := told 4 4 1 (toBytes 4 1) ((homed .running).modTile 0 fun x =>
        { x with trctl := 15, trace := { x.trace with netid := 1, base := 0x8000000000000000, size := 4096 } });
      let m := s.hostMsg 0;
      Head s m 4 4 [] ∧ needPart s m = true ∧ s.net (m.u 0 4) = some n ∧ n.tnt = m.tnt ∧
        s.cannotDrain (s.windowTiles (m.u 0 4)) = false ∧ 0 ∈ s.windowTiles (m.u 0 4)) ∧
    (let s := told 7 40 0 (toBytes 8 0x100000) (homed .running);
      let m := s.hostMsg 0;
      Head s m 7 40 [] ∧ m.tnt = 0 ∧ ∀ x n, m.u 0 8 ≤ x → x < m.u 0 8 + n →
        ¬(s.mgr.rcAt.toNat ≤ x ∧ x < s.mgr.rcAt.toNat + 0x8040) ∧ ¬(s.mgr.scAt.toNat + 8 ≤ x ∧ x < s.mgr.scAt.toNat + 16)) ∧
    ∃ x l, let s := (homed .running).modMgr fun m => { m with out := [[1]], acking := 1 };
      s.dev.railUp = true ∧ s.mgr.out = x :: l ∧ s.hostRoom = true ∧ s.mgr.acking = 1 ∧ s.mgr.ahead = [] ∧ s.mayHandle = false := by
  refine ⟨⟨net0, headOk_head (by decide +kernel), by decide +kernel, by decide +kernel, by decide +kernel, by decide +kernel, ?_⟩,
    ⟨net0, headOk_head (by decide +kernel), ?_⟩,
    ⟨net0, headOk_head (by decide +kernel), by decide +kernel⟩,
    ⟨headOk_head (by decide +kernel), by decide +kernel, fun x n h1 _ => ?_⟩, _, _, rfl, rfl, by decide +kernel, rfl, rfl, by decide +kernel⟩
  · intro p hp _
    have he : (told 2 4 1 (toBytes 4 1) (homed .stopped)).mgr.procs = [proc0] := rfl
    rw [he, List.mem_singleton] at hp
    subst hp
    exact ⟨by decide +kernel, rfl, rfl⟩
  · repeat refine ⟨by decide +kernel, ?_⟩
    intro u
    show bit ((homed .running).tile u).trctl 0 = false
    by_cases h : u = 0
    · subst h; decide +kernel
    · have : (homed .running).tile u = Tile.reset :=
        (mapGet_mapSet_ne _ _ _ _ _ (Ne.symm h)).trans (mapGet_mapSet_ne _ _ _ _ _ (Ne.symm h))
      rw [this]; rfl
  · have hm : ((told 7 40 0 (toBytes 8 0x100000) (homed .running)).hostMsg 0).u 0 8 = 0x100000 := by decide +kernel
    have h2 : (told 7 40 0 (toBytes 8 0x100000) (homed .running)).mgr.rcAt.toNat = 0x20000 := by decide +kernel
    have h3 : (told 7 40 0 (toBytes 8 0x100000) (homed .running)).mgr.scAt.toNat = 0x10000 := by decide +kernel
    rw [hm] at h1
    rw [h2, h3]
    omega

/-- An answer of a function and verdict at the head, to a request of tag 7. -/
def answered6 (func verdict : Nat) (pay : List Byte) (what : AssistFor) (s : State) : State :=
  (told 6 (answerLen func verdict) 1 (toBytes 1 func ++ toBytes 1 verdict ++ toBytes 6 0 ++ pay) s).modMgr fun m =>
    { m with assists := [{ tag := 7, func := func, tnt := 1, what := what }] }

theorem answer_of {s : State} {func verdict : Nat} {what : AssistFor}
    (h : (s.dev.railUp && decide (s.headMsg = some (s.hostMsg 0)) && decide ((s.hostMsg 0).kind = 6) &&
      decide ((s.hostMsg 0).u 0 1 = func) && decide ((s.hostMsg 0).u 1 1 = verdict) && !s.answerBad (s.hostMsg 0) &&
      decide (s.mgr.ahead = []) && decide (s.mgr.acking = 0) && decide (s.mgr.assists.find? (fun x => x.tag.toNat == (s.hostMsg 0).tag && x.func == func) =
        some ⟨7, func, 1, what⟩)) = true) : Answer s (s.hostMsg 0) ⟨7, func, 1, what⟩ func verdict := by
  simp only [Bool.and_eq_true, decide_eq_true_eq, Bool.not_eq_true'] at h
  obtain ⟨⟨⟨⟨⟨⟨⟨⟨a, b⟩, c⟩, d⟩, e⟩, f⟩, g⟩, j⟩, i⟩ := h
  exact ⟨a, b, c, d, e, f, g, j, i⟩

theorem witness_AssistAnswers :
    (∃ a n k va pid c, let s := answered6 0 0 [] (.element 0 0 0 9) ((homed .running).modSlot 0 0 fun x => { x with pend := .copy { answered [] with asked := true, sent := false } });
      Answer s (s.hostMsg 0) a 0 0 ∧ a.what = .element n k va pid ∧ (s.slot n k).pid.toNat = pid ∧
        (s.slot n k).pend = .copy c ∧ c.asked = true) ∧
    (∃ a n k best cap low netid es x, let s := answered6 1 0 [] (.growth 0 0 5 8 5 1 []) (homed .running);
      Answer s (s.hostMsg 0) a 1 0 ∧ a.what = .growth n k best cap low netid es ∧ s.net netid = some x) ∧
    (∃ a n q, let s := (answered6 2 0 [] (.reel 31) (homed .running)).modReel 31 fun x => { x with asked := [(7, reelMsg 1 0 [5, 0, 9, 0, 0])] };
      Answer s (s.hostMsg 0) a 2 0 ∧ a.what = .reel n ∧ n < 32 ∧ (s.reelSt n).asked.find? (fun z => z.1 == a.tag.toNat) = some q) ∧
    (∃ a n, let s := (answered6 3 1 [] (.link 323) (homed .running)).modLink 323 fun x => { x with step := 1 };
      Answer s (s.hostMsg 0) a 3 1 ∧ a.what = .link n ∧ 0 < (s.link n).step.toNat) ∧
    (∃ a, let s := answered6 4 0 [] .decode (homed .running); Answer s (s.hostMsg 0) a 4 0) ∧
    ∃ a n k, let s := answered6 5 1 (toBytes 2 1) (.migration 0 0) ((homed .running).modSlot 0 0 fun x => { x with pend := .volta 7 none });
      Answer s (s.hostMsg 0) a 5 1 ∧ a.what = .migration n k ∧ (s.slot n k).pend = .volta a.tag.toNat none :=
  ⟨⟨⟨7, 0, 1, .element 0 0 0 9⟩, 0, 0, 0, 9, { answered [] with asked := true, sent := false }, answer_of (by decide +kernel), rfl,
      by decide +kernel, by decide +kernel, rfl⟩,
   ⟨⟨7, 1, 1, .growth 0 0 5 8 5 1 []⟩, 0, 0, 5, 8, 5, 1, [], net0, answer_of (by decide +kernel), rfl, by decide +kernel⟩,
   ⟨⟨7, 2, 1, .reel 31⟩, 31, (7, reelMsg 1 0 [5, 0, 9, 0, 0]), answer_of (by decide +kernel), rfl, by decide, by decide +kernel⟩,
   ⟨⟨7, 3, 1, .link 323⟩, 323, answer_of (by decide +kernel), rfl, by decide +kernel⟩,
   ⟨⟨7, 4, 1, .decode⟩, answer_of (by decide +kernel)⟩,
   ⟨⟨7, 5, 1, .migration 0 0⟩, 0, 0, answer_of (by decide +kernel), rfl, by decide +kernel⟩⟩

/-! ### The package, links, pages, upkeep -/

/-- A reading that raises, one that lowers the last cluster, one that trips it. -/
theorem witness_Throttling :
    (let s := plain; s.dev.railUp = true ∧ 31 < 32 ∧ (s.clusters[(31 : Fin 32)]).step = 0 ∧ 95 * 16 ≤ 1520) ∧
    (∃ (w : Nat), let s : State := { plain with units := 10 ^ 6 * Config.tickUnits, clusters := plain.clusters.set 31 ⟨3, 0, 0, some 0⟩ };
      s.dev.railUp = true ∧ 1439 < 90 * 16 ∧ (s.clusters[(31 : Fin 32)]).coolSince = some w ∧ w + 10 ^ 6 * Config.tickUnits ≤ s.units ∧
        0 < (s.clusters[(31 : Fin 32)]).step) ∧
    let s := placed plain
    s.dev.railUp = true ∧ 110 * 16 ≤ 1760 ∧ proc0 ∈ s.mgr.procs :=
  ⟨⟨rfl, by decide, rfl, by decide⟩, ⟨0, rfl, by decide, rfl, by decide, by decide +kernel⟩, rfl, by decide, by decide +kernel⟩

theorem witness_ResetAndBoot : (plain.dev.railUp = true ∧ plain.dev.bootStatus = 0 ∧ plain.dev.bboxPos < (toWords (plain.bboxImage 0)).length ∧
      0 ∈ plain.activeTiles) ∧
    let s : State := { plain with dev := { plain.dev with bootStatus := 1 } }
    s.dev.railUp = true ∧ s.dev.bootStatus = 1 :=
  ⟨⟨rfl, rfl, by decide +kernel, by decide +kernel⟩, rfl, rfl⟩

theorem witness_RailDownStops : ∃ i : Instr, let s : State := { plain with dev := { plain.dev with railUp := false } };
    s.dev.railUp = false ∧ i.isEvent = false :=
  ⟨.cNop, rfl, rfl⟩

/-- A fragment of data on its way. -/
def fragOf (h : MsgHdr) (i : Nat) : Frag := { hdr := h, fidx := i, data := List.replicate 32 1, hops := 0, retries := 0, link := 0 }

/-- A link with its state given, and one fragment on the wire. -/
def linkOne (l : Link → Link) (f : Frag) : State := { plain.modLink 323 l with wire := [f] }

theorem witness_LinkEvents (m : BitVec 8) (hm : m.toNat < Config.marginThreshold 323) :
    (let s := linkOne (fun x => { x with step := 2 }) (fragOf (hdrOf ⟨.tile, 0⟩ ⟨.tile, 1⟩ 0 0) 0);
      s.dev.railUp = true ∧ 323 < 324 ∧ m.toNat < Config.marginThreshold 323 ∧ (s.link 323).step.toNat < 3 ∧ s.linkAssisted = false) ∧
    (∃ (w : Nat), let s : State := { linkOne (fun x => { x with step := 1, cleanSince := some 0 }) (fragOf (hdrOf ⟨.tile, 0⟩ ⟨.tile, 1⟩ 0 0) 0) with
          units := 10 ^ 9 * Config.tickUnits };
      (s.link 323).cleanSince = some w ∧ s.linkAssisted = false ∧ w + 10 ^ 9 * Config.tickUnits ≤ s.units ∧ 0 < (s.link 323).step.toNat) ∧
    (∃ (w : Nat), let s := linkOne (fun x => { x with retrain := some 0 }) (fragOf (hdrOf ⟨.tile, 0⟩ ⟨.tile, 1⟩ 0 0) 0);
      (s.link 323).retrain = some w) ∧
    (∀ r m, (r = 2 ∨ r = 3) ∧ (m = 323 ∨ m = 324) → ∃ (f : Frag),
      let s := linkOne id { fragOf (hdrOf ⟨.tile, 0⟩ ⟨.tile, 1⟩ 0 0) 0 with link := m, retries := r }
      s.wire[0]? = some f ∧ (if f.link = m then f.retries else 0) = r) ∧
    ∃ (f : Frag), let s := linkOne id (fragOf { hdrOf ⟨.tile, 0⟩ ⟨.tile, 1⟩ 0 0 with tnt := 1023 } 0);
      s.wire[0]? = some f ∧ f.hdr.tnt ≠ 0 ∧ ∀ p ∈ s.mgr.parts, p.tnt ≠ f.hdr.tnt :=
  ⟨⟨rfl, by decide, hm, by decide +kernel, by decide +kernel⟩, ⟨0, by decide +kernel⟩,
   ⟨0, by decide +kernel⟩, fun _ _ _ => ⟨_, rfl, if_pos rfl⟩, _, rfl, by decide, fun _ h => nomatch h⟩

/-- The tables of PID 9 of tenant 1 (and PID 0 beside it) with one leaf, of far page 0. -/
def tables (leaf : Word) : Memory :=
  [(0, 0x1001), (72, 0x1001), (0x1000, 0x2001), (0x2000, 0x3001), (0x3000, 0x4001), (0x4000, 0x5001), (0x5000, leaf.toNat)].foldl
    (fun m x => Mem.store m x.1 8 x.2) []

/-- The process of `homed` with its far page 0 mapped by `leaf`. -/
def paged (leaf : Word) : State := { homed .running with dram := tables leaf }

theorem paged_walk : (paged leaf4).walk 1 9 0 = .leaf ⟨leaf4, 4, 0x5000⟩ := by decide +kernel

/-- A migration of that page, in state `m`. -/
def moving (m : MigState) (u : Nat) : State :=
  { (paged leaf4).modMgr fun g => { g with migs := [⟨1, 9, 0, 4, 0xBFFFF0000, 0, m, [], 0⟩] } with units := u }

theorem paged_free : (paged leaf4).findDram 15 (2 ^ pageBits 4) = some 0xFBFFFF0000 := by decide +kernel

theorem page_clear : ∀ a n, (a, n) = ((0xBFFFF0000 : Nat), 2 ^ pageBits 4) ∨ (a, n) = (Leaf.pa ⟨leaf4, 4, 0x5000⟩, 2 ^ pageBits 4) →
    overlaps a n 0x5000 8 = false := by
  intro a n h
  rcases h with h | h <;> (obtain ⟨rfl, rfl⟩ := Prod.mk.inj h; decide +kernel)

theorem witness_PageMigrations :
    (∃ (l : Leaf) (p : Nat), let s := paged leaf4;
      s.dev.railUp = true ∧ s.walk 1 9 0 = .leaf l ∧ s.migOf 1 9 0 = none ∧ 0 = pageBase l.level 0 ∧ 15 < 16 ∧ l.tgt = 0 ∧
        s.findDram 15 (2 ^ pageBits l.level) = some p) ∧
    (∃ (g : Migration) (l : Leaf), let s := moving .frozen 0;
      Mem.wf s.dram = true ∧ s.mgr.migs[0]? = some g ∧ g.state = .frozen ∧ g.queue = [] ∧ s.walk g.tnt g.pid g.va = .leaf l ∧ l.tgt = 0 ∧
        (g.newPa + 2 ^ pageBits l.level ≤ l.pa ∨ l.pa + 2 ^ pageBits l.level ≤ g.newPa) ∧
        ∀ a n, (a, n) = (g.newPa, 2 ^ pageBits l.level) ∨ (a, n) = (l.pa, 2 ^ pageBits l.level) → overlaps a n l.at' 8 = false) ∧
    ∃ (g : Migration) (l : Leaf), let s := moving .switched (2 ^ 24 * Config.tickUnits);
      s.mgr.migs[0]? = some g ∧ g.state = .switched ∧ g.since + 2 ^ 24 ≤ s.time ∧ s.walk g.tnt g.pid g.va = .leaf l :=
  ⟨⟨_, _, rfl, paged_walk, rfl, rfl, by decide, by decide +kernel, paged_free⟩,
   ⟨⟨1, 9, 0, 4, 0xBFFFF0000, 0, .frozen, [], 0⟩, ⟨leaf4, 4, 0x5000⟩, by decide +kernel, rfl, rfl, rfl, by decide +kernel, by decide +kernel, Or.inr (by decide +kernel), page_clear⟩,
   ⟨1, 9, 0, 4, 0xBFFFF0000, 0, .switched, [], 0⟩, ⟨leaf4, 4, 0x5000⟩, rfl, rfl, by decide +kernel, by decide +kernel⟩

theorem witness_TileUpkeep :
    (∃ (f : Forward), let s := plain.modTile 8191 fun x => { x with forward := some ⟨1, 1, 0⟩ };
      s.dev.railUp = true ∧ (s.tile 8191).forward = some f ∧ f.expiry ≤ s.time) ∧
    (∃ (f : Forward), let s := plain.modTile 8191 fun x => { x with forward := some ⟨1, 1, 1⟩ };
      (s.tile 8191).forward = some f ∧ s.time < f.expiry) ∧
    (let s := plain.modTile 8191 fun x => { x with trace := { x.trace with gap := 2 ^ 32, fifo := List.replicate 254 0 } };
      let tr := (s.tile 8191).trace;
      0 < tr.gap ∧ tr.fifo.length < 255 ∧ tr.heldCaps = []) ∧
    (let s : State := { plain.modTile 8191 fun x => { x with trctl := 1 } with units := 2 ^ 40 * Config.tickUnits };
      bit (s.tile 8191).trctl 0 = true ∧ (s.tile 8191).trace.lastWrap < s.time / 2 ^ 40) ∧
    (∃ (l : Leaf), let s := (paged leaf4).modTile 0 fun x => { x with trace := { x.trace with tnt := 1, base := 0x8000000000000000, fifo := [1, 2, 3, 4] } };
      let tr := (s.tile 0).trace;
      4 ≤ tr.fifo.length ∧ s.lineFrozen 0 = false ∧ tr.heldCaps = [] ∧ tr.lineAt % 65536 + 64 ≤ 65536 ∧
        s.farCheck tr.tnt 0 tr.lineAt false true = .ok l ∧ s.drainMisses 0 1 = []) ∧
    (∃ (va : Nat) (l : List Nat), let s := ((homed .running).modMgr fun m =>
          { m with parts := [{ part0 with rcb := { part0.rcb with assist := some 1 } }] }).modTile 0 fun x =>
            { x with trace := { x.trace with tnt := 1, base := 0x8000000000000000, fifo := [1, 2, 3, 4] } };
      let tr := (s.tile 0).trace;
      4 ≤ tr.fifo.length ∧ s.lineFrozen 0 = false ∧ s.drainMisses 0 1 = va :: l ∧ tr.asking = false) ∧
    (let s := (homed .running).modMgr fun m => { m with parts := [{ part0 with rcb := { part0.rcb with assist := some 0x20 } }] };
      s.freeFor 0 1 = true ∧ bit (s.assistBits (((s.partOf 0).map (·.tnt)).getD 0)) 5 = true ∧ proc0 ∈ s.mgr.procs ∧ proc0.tile = 0) ∧
    (let s := plain.modSlot 8191 7 fun x => { x with run := .stopped };
      (∀ k : Fin 8, (s.slot 8191 k).run = .stopped ∨ (s.slot 8191 k).run = .empty) ∧ (s.slot 8191 7).run = .stopped ∧ s.mgr.ends = []) ∧ (plain.slot 0 0).run = .running :=
  ⟨⟨⟨1, 1, 0⟩, rfl, by decide +kernel, by decide +kernel⟩, ⟨⟨1, 1, 1⟩, by decide +kernel, by decide +kernel⟩,
   by decide +kernel, ⟨by decide +kernel, by decide +kernel⟩,
   ⟨⟨leaf4, 4, 0x5000⟩, by decide +kernel, by decide +kernel, by decide +kernel, by decide +kernel, ok_of (by decide +kernel), by decide +kernel⟩,
   ⟨0, [63], by decide +kernel⟩,
   ⟨by decide +kernel, by decide +kernel, by decide +kernel, rfl⟩, ⟨by decide +kernel, by decide +kernel, rfl⟩, rfl⟩

/-! ### Fragments and the messages of channels, copies and far memory -/

def ep1 : Ep := ⟨.tile, 8191⟩

/-- A state of the last tile's fragment layer, and the wire. -/
def fabOne (g : Fabric → Fabric) (w : List Frag) : State := { plain.modFab ep1 g with wire := w }

/-- A header to the last tile of `n` payload bytes. -/
def hdrTo (cls arg n : Nat) : MsgHdr := { hdrOf ⟨.tile, 0⟩ ep1 cls arg with len := n }

theorem active_there : (plain.coord 8191).isSome = true := by decide +kernel

theorem reaches_of {h : MsgHdr} {i : Nat} {g : Fabric → Fabric} {w : List Frag} (hd : h.dst = ep1) (ht : h.tnt = 0)
    (hb : badFields h = false) : Reaches (fabOne g w) (fragOf h i) := by
  refine ⟨by rw [show (fragOf h i).hdr = h from rfl, hd]; decide, hb, fun _ => ?_, by
    rw [show (fragOf h i).hdr = h from rfl, ht]; rfl⟩
  rw [show (fragOf h i).hdr = h from rfl, hd]
  exact ⟨rfl, rfl, active_there, rfl⟩

/-- A fragment of another tenant; one past its message; one late; the first of two; the only one. -/
theorem witness_FragmentArrives :
    (∃ (f : Frag), let s := fabOne id [f]; let e := f.hdr.dst;
      s.dev.railUp = true ∧ s.wire[0]? = some f ∧ e.kind = .tile ∧ (s.tile e.num).forward = none ∧ (s.tile e.num).vacated = false ∧
        (s.coord e.num).isSome = true ∧ f.hdr.tnt ≠ 0 ∧ (s.partOf e.num).map (·.tnt) ≠ some f.hdr.tnt) ∧
    (∀ d, d = (⟨.edge, 255⟩ : Ep) ∨ d = ⟨.reel, 31⟩ → ∃ (f : Frag), let s := fabOne id [f];
      s.wire[0]? = some f ∧ f.hdr.dst = d ∧ f.hdr.tnt ≠ 0 ∧ ∀ p ∈ s.mgr.parts, p.tnt ≠ f.hdr.tnt) ∧
    (∀ i, i = 2 ∨ i = 20 → ∃ (f : Frag), let s := fabOne id [f];
      s.wire[0]? = some f ∧ Reaches s f ∧ NoneOpen s f.hdr.dst ∧ f.fidx = i ∧
        ¬(f.fidx < 20 ∧ (f.fidx < 16 → f.fidx < dataCount f.hdr.len))) ∧
    (∃ (f : Frag) (g : FiltEnt), let s := fabOne (fun x => { x with filter := [g] }) [f];
      Reaches s f ∧ NoneOpen s f.hdr.dst ∧ (f.fidx < 20 ∧ (f.fidx < 16 → f.fidx < dataCount f.hdr.len)) ∧
        (s.fab f.hdr.dst).filter = [g] ∧ sameIdent g.hdr f.hdr = true ∧ f.hdr.attempt ≤ g.attempt) ∧
    (∀ i, i = 1 ∨ i = 19 → ∃ (f : Frag), let s := fabOne id [f];
      Reaches s f ∧ NoneOpen s f.hdr.dst ∧ (f.fidx < 20 ∧ (f.fidx < 16 → f.fidx < dataCount f.hdr.len)) ∧ f.fidx = i ∧
        (s.fab f.hdr.dst).filter = [] ∧ s.bufferFree f.hdr.dst f.hdr = true ∧ f.hdr.cls ≠ clsERRAND ∧
        (f.hdr.dst.kind = .tile → s.copyDirect f.hdr.dst.num f.hdr = false) ∧ 2 ≤ dataCount f.hdr.len) ∧
    ∃ (f : Frag), let s := fabOne id [f];
      Reaches s f ∧ NoneOpen s f.hdr.dst ∧ (s.fab f.hdr.dst).filter = [] ∧ s.bufferFree f.hdr.dst f.hdr = true ∧
        f.hdr.cls ≠ clsERRAND ∧ (f.hdr.dst.kind = .tile → s.copyDirect f.hdr.dst.num f.hdr = false) ∧ dataCount f.hdr.len = 1 ∧
        f.fidx = 0 ∧ execKind f.hdr.dst { hdr := f.hdr, payload := f.data.take f.hdr.len } = .other := by
  refine ⟨⟨fragOf { hdrTo 0 0 64 with tnt := 1023 } 0, rfl, rfl, rfl, rfl, rfl, active_there, by decide, by decide +kernel⟩,
    fun d _ => ⟨fragOf { hdrTo 0 0 64 with dst := d, tnt := 1023 } 0, rfl, rfl, (by decide : (1023 : Nat) ≠ 0), fun _ h => nomatch h⟩,
    fun i h => ⟨fragOf (hdrTo 0 0 64) i, rfl, reaches_of rfl rfl (by decide +kernel), ⟨rfl, rfl, rfl⟩, rfl, ?_⟩,
    ⟨fragOf (hdrTo 0 0 64) 1, ⟨hdrTo 0 0 64, .accepted, 0, 0⟩, reaches_of rfl rfl (by decide +kernel), ⟨rfl, rfl, rfl⟩,
      by decide +kernel, rfl, by decide +kernel, by decide⟩,
    fun i h => ⟨fragOf (hdrTo 0 0 64) i, reaches_of rfl rfl (by decide +kernel), ⟨rfl, rfl, rfl⟩, ?_⟩,
    fragOf (hdrTo 0 0 32) 0, reaches_of rfl rfl (by decide +kernel), ⟨rfl, rfl, rfl⟩, rfl, by decide +kernel, by decide,
      fun _ => by decide +kernel, by decide, rfl, by decide +kernel⟩
  · rcases h with rfl | rfl <;> decide +kernel
  · rcases h with rfl | rfl <;>
      exact ⟨by decide +kernel, rfl, rfl, by decide +kernel, by decide, fun _ => by decide +kernel, by decide⟩

/-- A buffer of the last tile that has had `n` NACKs. -/
def bufOf (n : Nat) : DecBuf := ⟨hdrTo 0 0 64, [(0, List.replicate 32 1)], false, [], n, 0⟩

theorem witness_FragmentDeadlines :
    (∃ (h : HeldFrag), let s : State := { fabOne (fun x => { x with held := [h], bufs := List.replicate 32 (bufOf 0) }) [] with units := 10 ^ 9 };
      s.dev.railUp = true ∧ ep1.kind ≠ .port ∧ (s.fab ep1).held[0]? = some h ∧ s.bufferFree ep1 h.frag.hdr = false ∧
        h.since + (h.nacks + 1) * s.deadline ep1 ≤ s.units) ∧
    (∀ n, n = 2 ∨ n = 3 → ∃ (b : DecBuf), let s := fabOne (fun x => { x with bufs := [b] }) [];
      (s.fab ep1).bufs[0]? = some b ∧ s.deadlineRuns ep1 b = true ∧ b.deadline ≤ s.units ∧ b.nacks = n ∧ s.retryLimit ep1 = 3 ∧
        (s.fab ep1).filter.length < 256 ∧ (s.fab ep1).bufs = [b] ∧ (s.fab ep1).held = [] ∧ isAck b.hdr = false) ∧
    (∃ (b : DecBuf), let s := fabOne (fun x => { x with bufs := [b], held := [⟨fragOf b.hdr 1, 0, 0⟩] }) [];
      (s.fab ep1).bufs[0]? = some b ∧ s.deadlineRuns ep1 b = false) ∧
    (∀ u, u = 2 ^ 24 * 60 ∨ u = 2 ^ 24 * 60 - 1 → ∃ (g : FiltEnt), let s : State := { fabOne (fun x => { x with filter := [g] }) [] with units := u };
      (s.fab ep1).filter[0]? = some g ∧ NoneOpen s ep1 ∧ g.since + 2 ^ 24 * s.cycleLen (s.regTile ep1) = 2 ^ 24 * 60 ∧ s.units = u) ∧
    ∀ due, due = 0 ∨ due = 1 → ∃ (f : Frag), let s := fabOne (fun x => { x with injHeld := [(f, due)] }) [];
      ep1.kind = .tile ∧ (s.fab ep1).injHeld[0]? = some (f, due) ∧ s.units = 0 := by
  refine ⟨⟨⟨fragOf (hdrTo 0 0 64) 0, 0, 0⟩, rfl, by decide, rfl, by decide +kernel, by decide +kernel⟩, fun n h => ⟨bufOf n, rfl, ?_⟩,
    ⟨bufOf 0, rfl, by decide +kernel⟩,
    fun u h => ⟨⟨hdrTo 0 0 64, .accepted, 0, 0⟩, rfl, ⟨rfl, rfl, rfl⟩, ?_, rfl⟩,
    fun due _ => ⟨fragOf (hdrTo 0 0 64) 0, rfl, rfl, rfl⟩⟩
  · rcases h with rfl | rfl <;>
      exact ⟨by decide +kernel, by decide +kernel, rfl, by decide +kernel, by decide +kernel, rfl, rfl, by decide +kernel⟩
  · rcases h with rfl | rfl <;> decide +kernel

/-- A shadow entry of the last tile. -/
def shadowOf (h : MsgHdr) (n : Nat) : Shadow := ⟨⟨h, List.replicate h.len 1⟩, 0, n, some 0, false, 0, false, none⟩

/-- A header from the last tile. -/
def hdrFrom (cls arg n : Nat) : MsgHdr := { hdrOf ep1 ⟨.tile, 0⟩ cls arg with len := n, m := 1 }

/-- The last tile's shadow and an acknowledgement of the message there. -/
def acked (x : Shadow) (cls arg : Nat) : State :=
  fabOne (fun f => { f with shadow := [x], inbox := [msgOf ⟨.tile, 0⟩ ep1 cls arg (headerBytes x.msg.hdr 0)] }) []

theorem acked_same : sameIdent (hdrFrom clsREEL 0 64) (ackOf (msgOf ⟨.tile, 0⟩ ep1 clsCONTROL 3 (headerBytes (hdrFrom clsREEL 0 64) 0))) = true := by
  decide +kernel

theorem witness_SendShadow :
    (∀ n, n = 2 ∨ n = 3 → ∃ (x : Shadow) (d : Nat), let s := fabOne (fun f => { f with shadow := [x] }) [];
      s.dev.railUp = true ∧ ep1.kind ≠ .port ∧ (s.fab ep1).shadow[0]? = some x ∧ x.timer = some d ∧ d ≤ s.units ∧ x.resends = n ∧
        s.retryLimit ep1 = 3) ∧
    (∃ (x : Shadow) (o : ErrOut), let s := (fabOne (fun f => { f with shadow := [x] }) []).modSlot 8191 7 fun y => { y with run := .running, errOut := [o] };
      (∀ y ∈ (s.fab ep1).shadow, y.unsent = none) ∧ 3 ≤ x.resends ∧ x.msg.hdr.cls = clsERRAND ∧ x.msg.hdr.src = ⟨.tile, 8191⟩ ∧ (Fin.ofNat 8 x.msg.hdr.slot) = 7 ∧
        (s.slot 8191 7).run = .running ∧ (s.slot 8191 7).errOut = [o] ∧ o.tag.toNat = x.msg.hdr.seq ∧ o.wait = true ∧
        ∀ j : Fin 16, (s.slot 8191 7).comps[j].valid = false) ∧
    (∀ b : Bool, ∃ (m : Msg) (x : Shadow), let s := acked x clsCONTROL 2;
      Inbox s ep1 0 m ∧ m.hdr.cls = clsCONTROL ∧ bits m.hdr.arg 7 0 = 2 ∧ bits m.hdr.arg 15 8 = 0 ∧ (s.fab ep1).findShadow (ackOf m) = some 0 ∧
        (s.fab ep1).shadow[0]? = some x ∧ x.credits = 0 ∧ x.done = false ∧ (∀ y ∈ (s.fab ep1).shadow, y.unsent = none) ∧ x.lost = b) ∧
    (∀ st, st = .accepted ∨ st = .lost → ∃ (m : Msg) (g : FiltEnt),
      let s := (acked (shadowOf (hdrFrom clsREEL 0 64) 0) clsCONTROL 3).modFab ep1 fun f => { f with filter := [g] };
      Inbox s ep1 0 m ∧ m.hdr.cls = clsCONTROL ∧ bits m.hdr.arg 7 0 = 3 ∧ (s.fab ep1).bufs = [] ∧ (s.fab ep1).held = [] ∧
        (s.fab ep1).filter = [g] ∧ sameIdent g.hdr (ackOf m) = true ∧ g.status = st ∧ (s.fab ep1).tails = []) ∧
    (∃ (m : Msg) (z : Tail), let s := (acked (shadowOf (hdrFrom clsREEL 0 64) 0) clsCONTROL 3).modFab ep1 fun f => { f with tails := [z] };
      Inbox s ep1 0 m ∧ (s.fab ep1).tails = [z] ∧ z.uid = (ackOf m).uid) ∧
    (∃ (m : Msg), let s := fabOne (fun f => { f with inbox := [m] }) [];
      Inbox s ep1 0 m ∧ m.hdr.cls = clsNACK ∧ (s.fab ep1).findShadow (ackOf m) = none) ∧
    ∀ b : Bool, ∃ (m : Msg) (x : Shadow), let s := acked x clsNACK (1 + b2n b * 2 ^ 21);
      Inbox s ep1 0 m ∧ m.hdr.cls = clsNACK ∧ (s.fab ep1).findShadow (ackOf m) = some 0 ∧ (s.fab ep1).shadow[0]? = some x ∧ x.done = false ∧
        x.lost = false ∧ (ackOf m).attempt = min x.attempt 3 ∧ bit m.hdr.arg 20 = false ∧ bit m.hdr.arg 21 = b ∧ x.resends < s.retryLimit ep1 := by
  refine ⟨fun n h => ⟨shadowOf (hdrFrom clsREEL 0 64) n, 0, rfl, by decide, rfl, rfl, ?_⟩,
    ⟨shadowOf { hdrFrom clsERRAND 0 64 with slot := 7, seq := 5 } 3, ⟨5, true, anyReach⟩, by decide +kernel, by decide, rfl, rfl, rfl, by decide +kernel,
      by decide +kernel, rfl, rfl, by decide +kernel⟩,
    fun b => ⟨_, { shadowOf (hdrFrom clsREEL 0 64) 0 with lost := b }, rfl, rfl, by cases b <;> decide +kernel⟩,
    fun st _ => ⟨msgOf ⟨.tile, 0⟩ ep1 clsCONTROL 3 (headerBytes (hdrFrom clsREEL 0 64) 0), ⟨hdrFrom clsREEL 0 64, st, 0, 0⟩,
      rfl, rfl, by decide +kernel, rfl, rfl, rfl, acked_same, rfl, rfl⟩,
    ⟨msgOf ⟨.tile, 0⟩ ep1 clsCONTROL 3 (headerBytes (hdrFrom clsREEL 0 64) 0), ⟨0, 0⟩, rfl, rfl, by decide +kernel⟩,
    ⟨msgOf ⟨.tile, 0⟩ ep1 clsNACK 1 (headerBytes (hdrFrom clsREEL 0 64) 0), rfl, rfl, by decide +kernel⟩,
    fun b => ⟨_, shadowOf (hdrFrom clsREEL 0 64) 2, rfl, rfl, ?_⟩⟩
  · rcases h with rfl | rfl <;> exact ⟨by decide +kernel, rfl, by decide +kernel⟩
  cases b <;> exact ⟨by decide +kernel, rfl, rfl, rfl, by decide +kernel⟩

theorem witness_OneLossRebuilt : ∀ i, i = 0 ∨ i = 15 → i < dataCount (List.replicate 512 (7 : Byte)).length ∧
    dataCount (List.replicate 512 (7 : Byte)).length ≤ 16 ∧ 3 < 4 := by
  rintro i (rfl | rfl) <;> decide +kernel

theorem witness_ParityBytes : (3 < 4 ∧ 31 < 32) ∧ 15 < 16 := by decide

/-- The last tile with one end, and one message of its channel in its inbox. -/
def chanOne (e : EndPt) (cls arg : Nat) (p : List Byte) : State :=
  inboxAt ep1 [⟨{ hdrTo cls arg p.length with stream := .chan 1 5 }, p⟩] (plain.modTile 8191 fun x => { x with ends := [(255, e)] })

theorem chanMsg (e : EndPt) (cls arg : Nat) (p : List Byte) :
    ChanMsg (chanOne e cls arg p) 8191 0 ⟨{ hdrTo cls arg p.length with stream := .chan 1 5 }, p⟩ 1 5 := ⟨rfl, by decide, rfl, rfl⟩

/-- A token at the wrap of the number, an end token of either kind, a credit, a notice. -/
theorem witness_ChannelMessages :
    (∃ (m : Msg) (e : RecvEnd) (v : Word), let s := chanOne (.recv { inEnd with nextSeq := 2 ^ 32 - 1 }) clsTOKENS (5 + 0xFFFF * 2 ^ 24) (toBytes 8 7);
      ChanMsg s 8191 0 m 1 5 ∧ s.findRecv 8191 1 5 = some (255, e) ∧ mapFind (s.tile 8191).ends 255 = some (.recv e) ∧ e.dead = false ∧
        Unspilled e ∧ e.held = [] ∧ 0 < e.decl ∧ (s.tile 8191).watch = [] ∧ m.payload = toBytes 8 v.toNat) ∧
    (∃ (m : Msg), m.hdr.cls = clsTOKENS ∧ m.hdr.seq = 0xFFFF ∧ tokSeq m.hdr = (2 ^ 32 - 1) % 2 ^ 32 ∧ bits m.hdr.arg 42 41 = 0) ∧
    (∀ b : Bool, ∃ (m : Msg) (e : RecvEnd), let s := chanOne (.recv inEnd) clsTOKENS (5 + (1 + b2n b) * 2 ^ 41) (toBytes 8 0);
      ChanMsg s 8191 0 m 1 5 ∧ m.hdr.cls = clsTOKENS ∧ s.findRecv 8191 1 5 = some (255, e) ∧ mapFind (s.tile 8191).ends 255 = some (.recv e) ∧
        e.dead = false ∧ tokSeq m.hdr = e.nextSeq % 2 ^ 32 ∧ Unspilled e ∧ e.held = [] ∧ 0 < e.decl ∧ (s.tile 8191).watch = [] ∧
        bits m.hdr.arg 42 41 = 1 + b2n b) ∧
    (∃ (m : Msg) (e : SendEnd), let s := chanOne (.send outEnd) clsCONTROL (1 + 5 * 256) (toBytes 8 (4 + (2 ^ 63 - 1)));
      ChanMsg s 8191 0 m 1 5 ∧ m.hdr.cls = clsCONTROL ∧ bits m.hdr.arg 7 0 = 1 ∧ s.findSend 8191 1 5 = some (255, e) ∧ 2 ^ 63 - 1 < 2 ^ 63 ∧
        m.payload = toBytes 8 ((e.cumul + (2 ^ 63 - 1)) % 2 ^ 64)) ∧
    ∃ (m : Msg) (e : SendEnd), let s := chanOne (.send outEnd) clsCONTROL (4 + 5 * 256) (toBytes 8 0);
      ChanMsg s 8191 0 m 1 5 ∧ m.hdr.cls = clsCONTROL ∧ bits m.hdr.arg 7 0 = 4 ∧ s.findSend 8191 1 5 = some (255, e) := by
  refine ⟨⟨_, { inEnd with nextSeq := 2 ^ 32 - 1 }, 7, chanMsg _ _ _ _, by decide +kernel, by decide +kernel, rfl, ⟨rfl, rfl, rfl⟩, rfl, by decide, rfl, rfl⟩,
    ⟨⟨{ hdrTo clsTOKENS (5 + 0xFFFF * 2 ^ 24) 8 with seq := 0xFFFF }, []⟩, rfl, rfl, by decide +kernel, by decide +kernel⟩,
    fun b => ⟨_, inEnd, chanMsg _ _ _ _, rfl, ?_⟩,
    ⟨_, outEnd, chanMsg _ _ _ _, rfl, by decide +kernel⟩,
    _, outEnd, chanMsg _ _ _ _, rfl, by decide +kernel, by decide +kernel⟩
  cases b <;> exact ⟨by decide +kernel, by decide +kernel, rfl, by decide +kernel, ⟨rfl, rfl, rfl⟩, rfl, by decide, rfl, by decide +kernel⟩

/-- A COPY for offset `off` of the last tile, of `p` in transfer format `xf` with XBL `xbl`, its sync-word field `sy`, all
elements active, its issuer's VT `vt`. -/
def copyMsg (off rop xf xbl vt sy : Nat) (p : List Byte) : Msg :=
  ⟨{ hdrTo clsCOPY (off + sy * 2 ^ 20 + rop * 2 ^ 38 + xf * 2 ^ 41 + xbl * 2 ^ 46) p.length with vt := vt, act := 2 ^ p.length - 1 }, p⟩

/-- 32 bytes, of INT8 to INT8. -/
def rawMsg (off rop : Nat) : Msg := copyMsg off rop fINT8 1 fINT8 0xFFFF (List.replicate 32 7)

/-- That copy into a place whose scratchpad page ends at `lim`. -/
def limited (lim : Nat) : Msg := { rawMsg 0 7 with hdr := { (rawMsg 0 7).hdr with lim := lim } }

/-- What the clauses of a COPY at the last tile ask of it: accepted, or refused for a reason. -/
def copyOk (m : Msg) (why : Option Nat) (lim : Nat) : Bool :=
  let s := inboxAt ep1 [m] plain
  let a := CopyArg.ofBits m.hdr.arg
  let f := ((s.tile 8191).bankFmt a.doff).getD (vtFmt m.hdr.vt)
  let n := carriedElems a m.payload
  m.hdr.cls == clsCOPY && a.far == false && stripRefusal f a.doff n a.rop (rawCopy a) == why && decide (a.doff < 0xD0000) &&
    decide (f.stripEnd a.doff n m.hdr.act ≤ 0xD0000) && (m.hdr.lim == lim) && (lim == 0 || decide (f.stripEnd a.doff n m.hdr.act ≤ lim)) &&
    decide ((s.tile 8191).errs = 0) && a.sync.all (fun o => decide (o + 16 ≤ 0xD0000)) && (s.tile 8191).watch == [] &&
    (a.rop == 7 || s.earlierPending ep1 m.hdr == false)

/-- Raw bytes just below code memory and at a page's end; INT8 from INT16, INT8 to FP32, BF16 to BFP, BFP as it is, a sync word counted; a
reducing copy alone. -/
theorem witness_CopyMessages_placed :
    copyOk (rawMsg (0xD0000 - 32) 7) none 0 = true ∧ copyOk (limited 32) none 32 = true ∧
    copyOk (copyMsg 64 7 fINT16 0 fINT8 0xCFFF (List.replicate 32 7)) none 0 = true ∧
    copyOk (copyMsg 64 7 fINT8 0 fFP32 0xFFFF (List.replicate 32 7)) none 0 = true ∧
    copyOk (copyMsg 64 7 fBF16 0 0x14 0xFFFF (List.replicate 32 7)) none 0 = true ∧
    copyOk (copyMsg 64 7 0x14 0 0x14 0xFFFF (List.replicate 10 7)) none 0 = true ∧
    copyOk (rawMsg 0 0) none 0 = true ∧ CopyTurn (inboxAt ep1 [rawMsg 0 0] plain) ep1 (rawMsg 0 0) ∧
    CopyTurn (inboxAt ep1 [rawMsg 0 7] plain) ep1 (rawMsg 0 7) ∧ ∀ m, Inbox (inboxAt ep1 [m] plain) ep1 0 m := by
  refine ⟨?_, ?_, ?_, ?_, ?_, ?_, ?_, .inr ⟨?_, ?_, rfl, rfl, fun h => nomatch h⟩, .inl ?_, fun _ => rfl⟩ <;> decide +kernel

/-- At code memory's first byte, one byte past a page, raw to BFP; a reducing copy behind another; a report for the last sync word. -/
theorem witness_CopyMessages :
    (let m := rawMsg 0xD0000 7; m.hdr.cls = clsCOPY ∧ (CopyArg.ofBits m.hdr.arg).far = false ∧ 0xD0000 ≤ (CopyArg.ofBits m.hdr.arg).doff) ∧
    (let m := limited 31; let s := inboxAt ep1 [m] plain; let a := CopyArg.ofBits m.hdr.arg;
      m.hdr.lim = 31 ∧ a.doff = 0 ∧ (((s.tile 8191).bankFmt a.doff).getD (vtFmt m.hdr.vt)).stripEnd 0 (carriedElems a m.payload) m.hdr.act = 32) ∧
    copyOk (copyMsg 64 7 fINT8 1 0x14 0xFFFF (List.replicate 32 7)) (some 0x09) 0 = true ∧
    (∃ (h : ExecEntry), let m := rawMsg 0 0; let s := (inboxAt ep1 [m] plain).modTile 8191 fun x => { x with execQ := [h] };
      m.hdr.cls = clsCOPY ∧ (CopyArg.ofBits m.hdr.arg).rop < 7 ∧ s.earlierPending ep1 m.hdr = false ∧ (s.fab ep1).inbox = [m] ∧
        (s.tile 8191).execQ = [h] ∧ sameIdent h.msg.hdr m.hdr = false) ∧
    ∃ (m : Msg), let s := inboxAt ep1 [m] plain;
      Inbox s ep1 0 m ∧ m.hdr.cls = clsCONTROL ∧ bits m.hdr.arg 7 0 = 7 ∧ m.payload = toBytes 8 (2 ^ 32 - 1) ∧ 2 ^ 32 - 1 < 2 ^ 32 ∧
        16 * bits m.hdr.arg 23 8 = 0xCFFF0 ∧ (s.tile 8191).watch = [] :=
  ⟨by decide +kernel, by decide +kernel, by decide +kernel,
    ⟨.combine { rawMsg 32 0 with hdr := { (rawMsg 32 0).hdr with seq := 1 } }, by decide +kernel⟩,
    msgOf ⟨.tile, 0⟩ ep1 clsCONTROL (7 + 0xCFFF * 256) (toBytes 8 (2 ^ 32 - 1)), rfl, rfl, by decide +kernel, rfl, by decide, by decide +kernel, rfl⟩

/-- A request of the process of `paged` at station 1, the home of its page. -/
def farMsg (op len va : Nat) (rupd : Bool) : Msg :=
  ⟨{ hdrOf ⟨.tile, 0⟩ ⟨.edge, 1⟩ clsTOKENS 0 with stream := .implicitReq, pid := 9, netid := 1, tnt := 1 },
    ofWords [BitVec.ofNat 64 (op + len * 2 ^ 16 + 7 * 2 ^ 32), BitVec.ofNat 64 (2 ^ 63 + va), BitVec.ofNat 64 (b2n rupd * 256), 5, 6]⟩

def homeAt (leaf : Word) (m : Msg) : State := inboxAt ⟨.edge, 1⟩ [m] (paged leaf)

theorem homeMsg {leaf : Word} {m : Msg} {l : Leaf}
    (h : (decide ((homeAt leaf m).farHeld ⟨.edge, 1⟩ m = false) &&
      decide ((homeAt leaf m).walk (FarReq.ofMsg m).tnt (FarReq.ofMsg m).pid (FarReq.ofMsg m).va = .leaf l) &&
      decide ((homeAt leaf m).migOf (FarReq.ofMsg m).tnt (FarReq.ofMsg m).pid (FarReq.ofMsg m).va = none) &&
      decide (l.station (FarReq.ofMsg m).va = 1)) = true) (hc : m.hdr.cls = clsTOKENS) (hs : m.hdr.stream = .implicitReq) :
    HomeMsg (homeAt leaf m) 1 0 m l := by
  simp only [Bool.and_eq_true, decide_eq_true_eq] at h
  exact ⟨rfl, by decide, rfl, hc, hs, h.1.1.1, h.1.1.2, h.1.2, h.2⟩

/-- The leaf without its write bit. -/
def leafR : Word := leaf4 ^^^ 8

theorem witness_HomeRequests :
    (let m := farMsg 1 8 65528 false; let s := homeAt leaf4 m; let l : Leaf := ⟨leaf4, 4, 0x5000⟩; let r := FarReq.ofMsg m;
      HomeMsg s 1 0 m l ∧ l.tgt = 0 ∧ s.dramErrs = [] ∧ r.op = 1 ∧ r.rupd = false ∧ l.canRead = true ∧
        (∀ g ∈ granules (l.pa + r.va % 2 ^ pageBits l.level) r.len, g ∉ s.dramPoison) ∧ l.psn = false) ∧
    (∀ op, op = 2 ∨ op = 4 ∨ op = 5 → let m := farMsg op 8 65528 false; let s := homeAt leaf4 m; let l : Leaf := ⟨leaf4, 4, 0x5000⟩;
      HomeMsg s 1 0 m l ∧ Alone s ⟨.edge, 1⟩ m ∧ (FarReq.ofMsg m).op = op ∧ (FarReq.ofMsg m).rupd = false ∧ l.canRead = true ∧ l.canWrite = true) ∧
    (let m := farMsg 5 8 65528 true; let s := homeAt leaf4 m; let l : Leaf := ⟨leaf4, 4, 0x5000⟩; let r := FarReq.ofMsg m;
      HomeMsg s 1 0 m l ∧ Alone s ⟨.edge, 1⟩ m ∧ r.op = 5 ∧ r.rupd = true ∧ (s.slot m.hdr.src.num r.slot).run = .running ∧ l.canRead = true ∧ l.canWrite = true) ∧
    (let m := farMsg 5 8 65528 true; let s := homeAt leafR m; let l : Leaf := ⟨leafR, 4, 0x5000⟩;
      HomeMsg s 1 0 m l ∧ Alone s ⟨.edge, 1⟩ m ∧ (s.slot m.hdr.src.num (FarReq.ofMsg m).slot).run = .running ∧ l.tgt = 0 ∧ l.canWrite = false) ∧
    ∀ op, op = 2 ∨ op = 4 → let m := farMsg op 8 65528 false; let s := homeAt leafR m; let l : Leaf := ⟨leafR, 4, 0x5000⟩;
      HomeMsg s 1 0 m l ∧ (FarReq.ofMsg m).op = op ∧ (FarReq.ofMsg m).rupd = false ∧ l.tgt = 0 ∧ l.canWrite = false := by
  refine ⟨⟨homeMsg (by decide +kernel) rfl rfl, by decide +kernel, rfl, by decide +kernel, by decide +kernel, by decide +kernel,
      fun _ _ h => (nomatch h), by decide +kernel⟩, fun op h => ?_,
    ⟨homeMsg (by decide +kernel) rfl rfl, ⟨rfl, rfl, fun _ => rfl⟩, by decide +kernel⟩, ⟨homeMsg (by decide +kernel) rfl rfl, ⟨rfl, rfl, fun _ => rfl⟩, by decide +kernel⟩, fun op h => ?_⟩
  · rcases h with rfl | rfl | rfl <;>
      exact ⟨homeMsg (by decide +kernel) rfl rfl, ⟨rfl, rfl, fun _ => rfl⟩, by decide +kernel⟩
  · rcases h with rfl | rfl <;>
      exact ⟨homeMsg (by decide +kernel) rfl rfl, by decide +kernel⟩

/-- A reply with the awaited TAG, whole or wrapped, and one with another. -/
theorem witness_FarReplyArrives : (∀ t0, t0 = 2 ^ 32 + 7 ∨ t0 = 8 → ∃ (m : Msg),
    let s := inboxAt ep1 [m] (plain.modSlot 8191 0 fun x => { x with pend := .far t0 });
    s.dev.railUp = true ∧ 8191 < 8192 ∧ Inbox s ep1 0 m ∧ m.hdr.stream = .implicitRep 8191 m.hdr.aslot ∧ (s.slot 8191 (Fin.ofNat 8 m.hdr.aslot)).pend = .far t0 ∧
      bits (wordAt (toWords m.payload) 0) 31 0 = 7) ∧
    ∀ tag, tag = some 7 ∨ tag = some 8 → ∃ (m : Msg) (p : ElemProg),
      let s := inboxAt ep1 [m] (plain.modSlot 8191 1 fun x => { x with pend := .elems p });
      Inbox s ep1 0 m ∧ m.hdr.stream = .implicitRep 8191 m.hdr.aslot ∧ (s.slot 8191 (Fin.ofNat 8 m.hdr.aslot)).pend = .elems p ∧
        p.tag = tag ∧ bits (wordAt (toWords m.payload) 0) 31 0 = 7 :=
  ⟨fun _ _ => ⟨⟨{ hdrTo clsTOKENS 0 24 with stream := .implicitRep 8191 0 }, ofWords [7, 0, 5]⟩, rfl, by decide, rfl, rfl, rfl, by decide +kernel⟩,
   fun tag _ => ⟨⟨{ hdrTo clsTOKENS 0 24 with stream := .implicitRep 8191 1, aslot := 1 }, ofWords [7, 0, 5]⟩,
     ⟨vtFmt 0, [], tag, none, [], []⟩, rfl, rfl, rfl, rfl, by decide +kernel⟩⟩

/-- A pair at the last station with a request at its head. -/
def pairOf (op len va : Nat) (data : List Word) : ServerPair :=
  { netid := 1, chan := 6, pid := 9, tnt := 1, reqPeer := ⟨.tile, 0⟩, reqCap := 8, repPeer := ⟨.tile, 0⟩,
    toks := ([BitVec.ofNat 64 (op + len * 2 ^ 16 + 7 * 2 ^ 32), BitVec.ofNat 64 (2 ^ 63 + va), 0, 0] ++ data).zipIdx.map fun v => (v.2, v.1, false),
    got := [], nextIn := 0, returned := 0, out := [], credits := 0, cumul := 0, nextOut := 0, ended := false, endSent := false, repGone := false,
    asking := false, denied := [] }

def served (p : ServerPair) : State := (paged leaf4).modEdge 255 fun x => { x with pairs := [p] }

theorem served_pair (p : ServerPair) : ((served p).edge 255).pairs[0]? = some p := rfl

theorem servedAt {op len va : Nat} {d : List Word} (h : (decide ((pairOf op len va d).header = some ⟨op, 0, len, 7, BitVec.ofNat 64 (2 ^ 63 + va), false⟩) &&
      decide (((served (pairOf op len va d)).edge 255).serving < 64) && decide (1 ≤ len) && decide (len ≤ 4096) &&
      decide (va % 65536 + len ≤ 65536) && decide (va < 2 ^ 57) && decide ((served (pairOf op len va d)).migOf 1 9 va = none) &&
      decide ((served (pairOf op len va d)).walk 1 9 va = .leaf ⟨leaf4, 4, 0x5000⟩) &&
      decide (((served (pairOf op len va d)).farCheck 1 9 va (op == 1) (op != 1)).toOption = some ⟨leaf4, 4, 0x5000⟩)) = true) :
    Served (served (pairOf op len va d)) 255 0 (pairOf op len va d) op len va ⟨leaf4, 4, 0x5000⟩ := by
  simp only [Bool.and_eq_true, decide_eq_true_eq] at h
  obtain ⟨⟨⟨⟨⟨⟨⟨⟨a, b⟩, c⟩, d⟩, e⟩, f⟩, g⟩, i⟩, j⟩ := h
  exact ⟨rfl, by decide, served_pair _, rfl, rfl, rfl, rfl, rfl, rfl, fun _ => b, c, d, ⟨7, a⟩, e, f, ok_of j, by decide +kernel, by decide +kernel, g, i⟩

/-- A table's entry followed. -/
theorem walk_next {m : Memory} {va k level table : Nat} (e : Nat) (h : Mem.load m (table + 8 * levelIndex va level) 8 = e)
    (c : (bit (BitVec.ofNat 64 e) 0 && !bit (BitVec.ofNat 64 e) 1 && decide (bits (BitVec.ofNat 64 e) 63 56 = 0) &&
      decide (bits (BitVec.ofNat 64 e) 7 2 = 0) && decide (bits (BitVec.ofNat 64 e) 11 8 = 0)) = true) :
    walkGo m va (k + 1) level table = walkGo m va k (level + 1) (bits (BitVec.ofNat 64 e) 55 8 * 2 ^ 8) := by
  simp only [Bool.and_eq_true, decide_eq_true_eq, Bool.not_eq_true'] at c
  obtain ⟨⟨⟨⟨c0, c1⟩, c2⟩, c3⟩, c4⟩ := c
  rw [walkGo, h]
  simp [c0, c1, c2, c3, c4]

/-- The page's tables lie below it: a write into the page leaves the walk as it was. -/
theorem walk_kept {s : State} (hs : s.part 1 = some part0) (m : Memory) (h : ∀ b, b < 0x10000 → Mem.read m b = Mem.read (tables leaf4) b) :
    ({ s with dram := m } : State).walk 1 9 65527 = .leaf ⟨leaf4, 4, 0x5000⟩ := by
  have hl : ∀ a, a + 8 ≤ 0x10000 → Mem.load m a 8 = Mem.load (tables leaf4) a 8 := fun a ha => by
    unfold Mem.load
    rw [Mem.readBytes_eq m (tables leaf4) a 8 fun i hi => h _ (by omega)]
  have hr : rootOf m 0 9 = some 0x1000 := by
    unfold rootOf
    rw [hl _ (by decide)]
    decide +kernel
  have hp : ({ s with dram := m } : State).part 1 = some part0 := hs
  have hg : walkGo m 65527 4 0 0x1000 = .leaf ⟨leaf4, 4, 0x5000⟩ := by
    rw [walk_next 0x2001 ((hl _ (by decide)).trans (by decide +kernel)) (by decide +kernel),
      walk_next 0x3001 ((hl _ (by decide)).trans (by decide +kernel)) (by decide +kernel),
      walk_next 0x4001 ((hl _ (by decide)).trans (by decide +kernel)) (by decide +kernel),
      walk_next 0x5001 ((hl _ (by decide)).trans (by decide +kernel)) (by decide +kernel), walkGo,
      show Mem.load m _ 8 = leaf4.toNat from (hl _ (by decide)).trans (by decide +kernel)]
    decide +kernel
  unfold State.walk
  rw [hp]
  show (match rootOf m 0 9 with | none => Walk.missing | some r => walkGo m 65527 4 0 r) = _
  rw [hr]
  exact hg

theorem served_data : ∀ r, (pairOf 2 9 65527 [7, 8]).header = some r → (pairOf 2 9 65527 [7, 8]).data r = some [(7, false), (8, false)] := by
  intro r h
  rw [show (pairOf 2 9 65527 [7, 8]).header = some ⟨2, 0, 9, 7, 0x800000000000FFF7, false⟩ by decide +kernel] at h
  cases h
  decide +kernel

/-- A FAR = 1 COPY of 9 bytes for the last bytes of the page of `paged`, plain or reducing. -/
def farCopy (rop : Nat) : Msg :=
  ⟨{ hdrOf ⟨.tile, 0⟩ ⟨.edge, 1⟩ clsCOPY (0xFFFF * 2 ^ 20 + 2 ^ 37 + rop * 2 ^ 38 + fINT8 * 2 ^ 41) with
      pid := 9, netid := 1, tnt := 1, vt := fINT8, act := 2 ^ 9 - 1 },
    ofWords [BitVec.ofNat 64 (2 ^ 63 + 65527)] ++ List.replicate 9 7⟩

theorem witness_CopyMessages_far : ∀ rop, rop = 0 ∨ rop = 7 →
    CopyHome (homeAt leaf4 (farCopy rop)) 1 0 (farCopy rop) ⟨leaf4, 4, 0x5000⟩ ∧ CopyTurn (homeAt leaf4 (farCopy rop)) ⟨.edge, 1⟩ (farCopy rop) ∧
    stripRefusal (vtFmt fINT8) 0 (carriedElems (CopyArg.ofBits (farCopy rop).hdr.arg) ((farCopy rop).payload.drop 8)) rop
      (rawCopy (CopyArg.ofBits (farCopy rop).hdr.arg)) = none := by
  have h : ∀ rop, rop = 0 ∨ rop = 7 → (copyVa (farCopy rop) = 65527 ∧ Leaf.pa ⟨leaf4, 4, 0x5000⟩ + 65527 % 2 ^ pageBits 4 = 0x1FFF7) ∧
      (homeAt leaf4 (farCopy rop)).walk 1 9 65527 = .leaf ⟨leaf4, 4, 0x5000⟩ ∧ (homeAt leaf4 (farCopy rop)).migOf 1 9 65527 = none ∧
      Leaf.station ⟨leaf4, 4, 0x5000⟩ 65527 = 1 ∧ (vtFmt fINT8).stripEnd 0 9 (2 ^ 9 - 1) = 9 ∧
      ((homeAt leaf4 (farCopy rop)).farCheck 1 9 65527 (decide ((CopyArg.ofBits (farCopy rop).hdr.arg).rop < 7)) true).toOption =
        some ⟨leaf4, 4, 0x5000⟩ ∧
      carriedElems (CopyArg.ofBits (farCopy rop).hdr.arg) ((farCopy rop).payload.drop 8) = 9 ∧ (CopyArg.ofBits (farCopy rop).hdr.arg).far = true ∧
      (CopyArg.ofBits (farCopy rop).hdr.arg).rop = rop ∧ (homeAt leaf4 (farCopy rop)).earlierPending ⟨.edge, 1⟩ (farCopy rop).hdr = false ∧
      stripRefusal (vtFmt fINT8) 0 9 rop (rawCopy (CopyArg.ofBits (farCopy rop).hdr.arg)) = none := by
    rintro _ (rfl | rfl) <;> refine ⟨?_, ?_, ?_, ?_, ?_, ?_, ?_, ?_, ?_, ?_, ?_⟩ <;> decide +kernel
  intro rop hr
  obtain ⟨⟨v, pa⟩, w, g, st, l, c, n, f, r, e, x⟩ := h rop hr
  refine ⟨⟨rfl, by decide, rfl, rfl, f, by rw [v]; exact w, by rw [v]; exact g, by rw [v]; exact st, by decide +kernel, by rw [v]; exact ok_of c, rfl, ?_, ?_⟩, ?_, ?_⟩
  · rw [v, n]
    exact Nat.le_of_eq (congrArg (65527 + ·) l)
  · intro d hd
    rw [v, n] at hd
    rw [v]
    refine walk_kept (by rcases hr with rfl | rfl <;> decide +kernel) d fun b hb => hd b fun y => ?_
    rw [pa] at y
    exact absurd (Nat.lt_of_le_of_lt y.1 hb) (by decide)
  · rcases hr with rfl | rfl
    · exact .inr ⟨by rw [r]; decide, e, rfl, rfl, fun _ => rfl⟩
    · exact .inl r
  · rw [n]; exact x

/-- The longest READ and ZERO to the end of the page, a WRITE of its last bytes, one whose last token is still to come, a request of no
bytes. -/
theorem witness_MemoryServer :
    (∀ op, op = 1 ∨ op = 3 → Served (served (pairOf op 4096 61440 [])) 255 0 (pairOf op 4096 61440 []) op 4096 61440 ⟨leaf4, 4, 0x5000⟩) ∧
    Served (served (pairOf 2 9 65527 [7, 8])) 255 0 (pairOf 2 9 65527 [7, 8]) 2 9 65527 ⟨leaf4, 4, 0x5000⟩ ∧
    (∀ r, (pairOf 2 9 65527 [7, 8]).header = some r → (pairOf 2 9 65527 [7, 8]).data r = some [(7, false), (8, false)]) ∧
    (∀ m : Memory, (∀ b : Nat, ¬(0x1FFF7 ≤ b ∧ b < 0x1FFF7 + 9) → Mem.read m b = Mem.read (served (pairOf 2 9 65527 [7, 8])).dram b) →
      ({ served (pairOf 2 9 65527 [7, 8]) with dram := m } : State).walk 1 9 65527 = .leaf ⟨leaf4, 4, 0x5000⟩) ∧
    Leaf.pa ⟨leaf4, 4, 0x5000⟩ + 65527 % 2 ^ pageBits 4 = 0x1FFF7 ∧
    (∃ r x, ((served (pairOf 2 9 65527 [7])).edge 255).pairs[0]? = some (pairOf 2 9 65527 [7]) ∧ ((served (pairOf 2 9 65527 [7])).edge 255).serving < 64 ∧
      (pairOf 2 9 65527 [7]).header = some r ∧ r.malformed = false ∧ r.op = 2 ∧ (pairOf 2 9 65527 [7]).data r = none ∧
      0 < r.tokens ∧ (pairOf 2 9 65527 [7]).token 0 = some x) ∧
    ((served (pairOf 2 0 0 [])).edge 255).pairs[0]? = some (pairOf 2 0 0 []) ∧ (pairOf 2 0 0 []).ended = false ∧
    (pairOf 2 0 0 []).out = [] ∧ ((served (pairOf 2 0 0 [])).edge 255).serving < 64 ∧
    (pairOf 2 0 0 []).header = some ⟨2, 0, 0, 7, 0x8000000000000000, false⟩ ∧
    SrvReq.malformed ⟨2, 0, 0, 7, 0x8000000000000000, false⟩ = true := by
  refine ⟨fun op h => ?_, servedAt (by decide +kernel), served_data, fun m h => ?_, by decide +kernel,
    ⟨⟨2, 0, 9, 7, 0x800000000000FFF7, false⟩, (0x700090002, false), served_pair _, by decide +kernel⟩, served_pair _, rfl, rfl,
    by decide +kernel⟩
  · rcases h with rfl | rfl <;> exact servedAt (by decide +kernel)
  · exact walk_kept (by decide +kernel) m fun b hb => h b fun x => absurd (Nat.lt_of_le_of_lt x.1 hb) (by decide)

/-! ### Probes, growth, and the machine as a whole -/

/-- Slot 0 of tile 0 of network 1 waits for a token of its receive end, whose send end is at tile 1. -/
def waiting (e : RecvEnd) (ids : List ProbeOut) : State :=
  ((homed .running).modSlot 0 0 fun x => { x with wait := some { kind := .recv [(0, 1)], since := 0, probes := ids, probeAt := some 0 } }).modTile 0
    (fun x => { x with ends := [(0, .recv e)] }) |>.modTile 1 fun x => { x with ends := [(0, .send outEnd)] }

theorem witness_ProbesLaunched :
    (∃ (w : Wait) (n : Nat) (x : Edge), let s := waiting inEnd [];
      s.dev.railUp = true ∧ (s.slot 0 0).wait = some w ∧ w.probeAt = some 0 ∧ w.kind.delay = some n ∧ (s.slot 0 0).run = .running ∧
        0 ≤ s.units ∧ s.stillWaits 0 0 = true ∧ s.mgr.assists = [] ∧ s.slotEdges 0 0 = [x]) ∧
    ∀ d, d = none ∨ d = some 1 → ∃ (w : Wait),
      let s := (waiting inEnd []).modSlot 0 0 fun x => { x with wait := some { kind := .recv [(0, 1)], since := 0, probes := [], probeAt := d } };
      (s.slot 0 0).wait = some w ∧ w.probeAt = d ∧ s.units < 1 :=
  ⟨⟨{ kind := .recv [(0, 1)], since := 0, probes := [], probeAt := some 0 }, 4, ⟨0, 0, 5, ⟨.tile, 1⟩, 9⟩, by decide +kernel⟩,
   fun d h => ⟨{ kind := .recv [(0, 1)], since := 0, probes := [], probeAt := d }, by rcases h with rfl | rfl <;> decide +kernel⟩⟩

/-- A probe at tile 0 for PID 9 of network 1. -/
def probeMsg (p : Probe) : Msg :=
  ⟨{ hdrOf ⟨.tile, 1⟩ ⟨.tile, 0⟩ clsCONTROL 5 with stream := .chan 1 5, pid := 9, netid := 1 }, p.bytes⟩

/-- Of 65535 and 65534 edges; seen and not seen; back at its origin with no write edge, and with one. -/
theorem witness_ProbesArrive :
    (∀ n, n = 65535 ∨ n = 65534 → let m := probeMsg ⟨1, 0, false, true, n, 0, 0, 0, []⟩;
      let s := inboxAt ⟨.tile, 0⟩ [m] (waiting inEnd []);
      s.dev.railUp = true ∧ Inbox s ⟨.tile, 0⟩ 0 m ∧ m.hdr.cls = clsCONTROL ∧ bits m.hdr.arg 7 0 = 5 ∧ (Probe.ofBytes m.payload).hops = n) ∧
    (∀ l, l = some (1 : BitVec 32) ∨ l = none → ∃ (x : Edge), let m := probeMsg ⟨1, 1, false, false, 1, 0, 0, 0, [0]⟩;
      let s := (inboxAt ⟨.tile, 0⟩ [m] (waiting inEnd [])).modSlot 0 0 fun y => { y with lastProbe := l };
      let p := Probe.ofBytes m.payload;
      p.hops < 65535 ∧ m.hdr.stream = .chan 1 5 ∧ s.residentIn 0 m.hdr.pid m.hdr.netid = some 0 ∧ ¬(p.id / 65536 = 0 % 65536 ∧ p.slot = 0) ∧
        (s.slot 0 0).lastProbe = l ∧ p.id = 1 ∧ s.slotEdges 0 0 = [x]) ∧
    (∃ (w : Wait), let m := probeMsg ⟨1, 0, false, false, 1, 0, 0, 5, [5]⟩;
      let s := inboxAt ⟨.tile, 0⟩ [m] (waiting inEnd [⟨1, 2, false⟩]);
      let p := Probe.ofBytes m.payload;
      (p.id / 65536 = 0 % 65536 ∧ p.slot = 0) ∧ (s.slot 0 0).wait = some w ∧ (∃ y ∈ w.probes, y.id = BitVec.ofNat 32 p.id ∧ y.acted = false) ∧ s.stillWaits 0 0 = true ∧
        s.net (s.slot 0 0).netid.toNat = some net0 ∧ p.art = false) ∧
    (∀ l, l = [] ∨ l = [⟨1, 1, true⟩] → let m := probeMsg ⟨1, 0, false, false, 1, 0, 0, 5, [5]⟩;
      let s := inboxAt ⟨.tile, 0⟩ [m] (waiting inEnd l);
      let p := Probe.ofBytes m.payload;
      (p.id / 65536 = 0 % 65536 ∧ p.slot = 0) ∧ p.hops < 65535 ∧ s.residentIn 0 m.hdr.pid m.hdr.netid = some 0 ∧
        ∀ w, (s.slot 0 0).wait = some w → w.probes = l ∧ ∀ y ∈ w.probes, y.id = BitVec.ofNat 32 p.id → y.acted = true) ∧
    let m := probeMsg ⟨1, 0, true, false, 1, 5, 2 ^ 23, 5, [5]⟩
    let s := (inboxAt ⟨.tile, 0⟩ [m] (waiting { inEnd with cap := 2 ^ 23 } [⟨1, 2, false⟩])).modMgr fun g =>
      { g with nets := [{ net0 with chans := [⟨5, 0, 0, 0, 0, false, 4⟩] }] }
    let p := Probe.ofBytes m.payload
    p.art = true ∧ bit (s.assistBits 1) 1 = false ∧ s.consumerTile (s.slot 0 0).netid.toNat p.best = some 0 ∧
      s.findRecv 0 (s.slot 0 0).netid.toNat p.best = some (0, { inEnd with cap := 2 ^ 23 }) ∧
      mapFind (s.tile 0).ends 0 = some (.recv { inEnd with cap := 2 ^ 23 }) ∧ 2 ^ 23 = p.bestCap ∧ 2 * 2 ^ 23 ≤ 2 ^ 24 := by
  refine ⟨fun n h => ?_, fun l h => ?_,
    ⟨{ kind := .recv [(0, 1)], since := 0, probes := [⟨1, 2, false⟩], probeAt := some 0 }, by decide +kernel⟩, fun l h => ?_, by decide +kernel⟩
  · rcases h with rfl | rfl <;> exact ⟨by decide +kernel, by unfold Inbox; decide +kernel, rfl, by decide +kernel, by decide +kernel⟩
  · refine ⟨⟨0, 0, 5, ⟨.tile, 1⟩, 9⟩, ?_⟩
    rcases h with rfl | rfl <;>
      decide +kernel
  · have q : ∀ l, (Slot.wait (State.slot (inboxAt ⟨.tile, 0⟩ [probeMsg ⟨1, 0, false, false, 1, 0, 0, 5, [5]⟩] (waiting inEnd l)) 0 0)) =
        some { kind := .recv [(0, 1)], since := 0, probes := l, probeAt := some 0 } := fun l => rfl
    rcases h with rfl | rfl <;> refine ⟨by decide +kernel, by decide +kernel, by decide +kernel, fun w hw => ?_⟩ <;>
      (rw [q] at hw; obtain rfl := Option.some.inj hw; exact ⟨rfl, by decide⟩)

/-- A message of channel 5's growth or spill at the receive end `e` of the last tile. -/
def growing (e : RecvEnd) (cls arg : Nat) (st : Stream) (p : List Byte) : State :=
  inboxAt ep1 [⟨{ hdrTo cls arg p.length with stream := st }, p⟩]
    ((homed .running).modTile 8191 fun x => { x with ends := [(255, .recv e)] })

/-- The boundary of the capacity and of the spill region; a spilled token read back. -/
theorem witness_ChannelsGrow :
    (∀ n, n = 2 ^ 23 ∨ n = 2 ^ 23 + 1 → let e : RecvEnd := { inEnd with cap := n };
      let s := growing e clsCONTROL (6 + 5 * 256) (.chan 1 5) (toBytes 8 n);
      ∃ (m : Msg), s.dev.railUp = true ∧ Inbox s ep1 0 m ∧ s.net 1 = some net0 ∧ s.findRecv 8191 1 5 = some (255, e) ∧
        mapFind (s.tile 8191).ends 255 = some (.recv e) ∧ m.hdr.stream = .chan 1 5 ∧ m.hdr.cls = clsCONTROL ∧ bits m.hdr.arg 7 0 = 6 ∧
        m.payload = toBytes 8 e.cap) ∧
    (∀ n, n = 0 ∨ n = 1 → let s := (growing inEnd clsTOKENS 0 (.spill 1 5) (ofWords [0x10, 0, BitVec.ofNat 64 n])).modMgr fun g =>
        { g with nets := [{ net0 with spillSize := 32 }] };
      ∃ (m : Msg) (nw : Network), Inbox s ep1 0 m ∧ s.net 1 = some nw ∧ m.hdr.stream = .spill 1 5 ∧ m.hdr.cls = clsTOKENS ∧ bits (wordAt (toWords m.payload) 0) 31 0 % 4 = 0 ∧
        bits (wordAt (toWords m.payload) 0) 39 32 = 0 ∧ (wordAt (toWords m.payload) 2).toNat = n ∧
        8 * (bits (wordAt (toWords m.payload) 0) 31 0 / 4) = Min.min nw.spillSize (nw.rcb.spill.getD nw.spillSize) ∧ Unspilled inEnd) ∧
    (∃ (m : Msg), let s := growing inEnd clsCONTROL 2 (.spill 1 5) []; Inbox s ep1 0 m ∧ m.hdr.stream = .spill 1 5 ∧ m.hdr.cls ≠ clsTOKENS) ∧
    ∀ st, st = 0 ∨ st = 1 → let e : RecvEnd := { inEnd with spilled := [(3, 0, true)] };
      let s := growing e clsTOKENS 0 (.spill 1 5) (ofWords [BitVec.ofNat 64 (3 * 4 + 1 + st * 2 ^ 32), 0, 7]);
      ∃ (m : Msg), Inbox s ep1 0 m ∧ s.findRecv 8191 1 5 = some (255, e) ∧ m.hdr.stream = .spill 1 5 ∧ m.hdr.cls = clsTOKENS ∧
        bits (wordAt (toWords m.payload) 0) 31 0 % 4 = 1 ∧ bits (wordAt (toWords m.payload) 0) 39 32 = st ∧ 3 < e.nextSeq + e.decl ∧
        e.early = [] ∧ e.ahead = [] ∧ (s.tile 8191).watch = [] := by
  refine ⟨fun n h => ?_, fun n h => ?_, ⟨_, rfl, rfl, by decide⟩, fun st h => ?_⟩
  · rcases h with rfl | rfl <;>
      exact ⟨_, by decide +kernel, rfl, by decide +kernel, by decide +kernel, by decide +kernel, rfl, rfl, by decide +kernel, by decide +kernel⟩
  · rcases h with rfl | rfl <;>
      exact ⟨_, { net0 with spillSize := 32 }, rfl, by decide +kernel, rfl, rfl, by decide +kernel, by decide +kernel, by decide +kernel,
        by decide +kernel, ⟨rfl, rfl, rfl⟩⟩
  · rcases h with rfl | rfl <;>
      exact ⟨_, rfl, by decide +kernel, rfl, rfl, by decide +kernel, by decide +kernel, by decide, rfl, rfl, by decide +kernel⟩

/-- A state whose agenda gives slot 0 a turn, with `c` at the last halfword of code memory and an update to anywhere sent. -/
def turnOf (c : Nat) : State :=
  { oneOn (fun x => { started x with mem := Mem.store [] 0xDFFFE 2 c }) fun x => { x with pc := 0xDFFFE, rupds := [(5, anyReach)] } with
    agenda := [.issue 1 0 0] }

/-- An instruction that runs beside the update, and one that waits for it. -/
theorem witness_StepRunsDecoded : ∀ c b, (c, b) = (0x6000, false) ∨ (c, b) = (0x2149, true) → ∃ (i : Instr), let s := turnOf c;
    let s0 := s.atTurn 1 0 0 [];
    s.agenda = .issue 1 0 0 :: [] ∧ (s0.slot 0 0).run = .running ∧ (0 = (s0.tile 0).supSlot → (s0.tile 0).takesEvents = false) ∧
      CodeAt s0 0 (s0.slot 0 0).pc i ∧ s0.dev.railUp = true ∧ s0.memoryWaits 0 0 i = b ∧ s0.mayTake 0 0 = true := by
  intro c b h
  have q : ∀ i a, a = 0xDFFFE → i = Instr.cNop ∧ c = 0x6000 ∨ i = Instr.cLd 5 9 ∧ c = 0x2149 → CodeAt ((turnOf c).atTurn 1 0 0 []) 0 a i := by
    rintro i _ rfl (⟨rfl, rfl⟩ | ⟨rfl, rfl⟩) <;>
      exact ⟨by decide +kernel, by decide, by decide, by decide +kernel, by decide +kernel, fun h => absurd h (by decide +kernel), by decide +kernel,
        by decide +kernel, ok_of (by decide +kernel)⟩
  rcases h with h | h <;> obtain ⟨rfl, rfl⟩ := Prod.mk.inj h
  · exact ⟨.cNop, rfl, by decide +kernel, fun h => absurd h (by decide +kernel), q _ _ (by decide +kernel) (.inl ⟨rfl, rfl⟩), rfl, by decide +kernel⟩
  · exact ⟨.cLd 5 9, rfl, by decide +kernel, fun h => absurd h (by decide +kernel), q _ _ (by decide +kernel) (.inr ⟨rfl, rfl⟩), rfl, by decide +kernel⟩

theorem witness_Encoding : (∃ i : Instr, i.wf = true ∧ i.isEvent = false) ∧ ∃ i n, decode (0x6000 :: []) = .ok (i, n) :=
  ⟨⟨.cNop, rfl, rfl⟩, _, _, rfl⟩

theorem witness_MemoryStaysCanonical : ∃ s t : State, MemoryForm s ∧ step s = .next t :=
  ⟨{ State.reset with agenda := [.event 1 .warmReset] }, _, ⟨rfl, rfl, fun _ => rfl⟩, rfl⟩

/-! ### Decoding: words written out from the fields of spec/opcode_table.json and 03_encoding.md, every field with a value -/

theorem test_decode_01_add_to_clz :
    decodeTableWord 32 0x28008132 = some (.add 5 9 18) ∧
    decodeTableWord 32 0x28018132 = some (.sub 5 9 18) ∧
    decodeTableWord 32 0x28028132 = some (.and 5 9 18) ∧
    decodeTableWord 32 0x28038132 = some (.or 5 9 18) ∧
    decodeTableWord 32 0x28048132 = some (.xor 5 9 18) ∧
    decodeTableWord 32 0x28058132 = some (.andn 5 9 18) ∧
    decodeTableWord 32 0x28068132 = some (.sll 5 9 18) ∧
    decodeTableWord 32 0x28078132 = some (.srl 5 9 18) ∧
    decodeTableWord 32 0x28088132 = some (.sra 5 9 18) ∧
    decodeTableWord 32 0x28098132 = some (.slt 5 9 18) ∧
    decodeTableWord 32 0x280A8132 = some (.sltu 5 9 18) ∧
    decodeTableWord 32 0x280B8132 = some (.min 5 9 18) ∧
    decodeTableWord 32 0x280C8132 = some (.max 5 9 18) ∧
    decodeTableWord 32 0x280D8132 = some (.minu 5 9 18) ∧
    decodeTableWord 32 0x280E8132 = some (.maxu 5 9 18) ∧
    decodeTableWord 32 0x000F80A9 = some (.clz 5 9) := by
  decide +kernel

theorem test_decode_02_ctz_to_srli :
    decodeTableWord 32 0x001080A9 = some (.ctz 5 9) ∧
    decodeTableWord 32 0x001180A9 = some (.popc 5 9) ∧
    decodeTableWord 32 0x001280A9 = some (.rev8 5 9) ∧
    decodeTableWord 32 0x28138132 = some (.rol 5 9 18) ∧
    decodeTableWord 32 0x28148132 = some (.rotr 5 9 18) ∧
    decodeTableWord 32 0x001580A9 = some (.sextB 5 9) ∧
    decodeTableWord 32 0x001680A9 = some (.sextH 5 9) ∧
    decodeTableWord 32 0x001780A9 = some (.sextW 5 9) ∧
    decodeTableWord 32 0x1C358532 = some (.addi 7221 9 18) ∧
    decodeTableWord 32 0x3C358532 = some (.andi 7221 9 18) ∧
    decodeTableWord 32 0x5C358532 = some (.ori 7221 9 18) ∧
    decodeTableWord 32 0x7C358532 = some (.xori 7221 9 18) ∧
    decodeTableWord 32 0x9C358532 = some (.slti 7221 9 18) ∧
    decodeTableWord 32 0xBC358532 = some (.sltiu 7221 9 18) ∧
    decodeTableWord 32 0xC0058532 = some (.slli 5 9 18) ∧
    decodeTableWord 32 0xC0458532 = some (.srli 5 9 18) := by
  decide +kernel

theorem test_decode_03_srai_to_bltu :
    decodeTableWord 32 0xC0858532 = some (.srai 5 9 18) ∧
    decodeTableWord 32 0xB86A8934 = some (.ldhi 678965 9) ∧
    decodeTableWord 32 0xB86B8934 = some (.addpc 678965 9) ∧
    decodeTableWord 32 0x28108D32 = some (.mul 5 9 18) ∧
    decodeTableWord 32 0x28178D32 = some (.mulh 5 9 18) ∧
    decodeTableWord 32 0x28148D32 = some (.mulhu 5 9 18) ∧
    decodeTableWord 32 0x28158D32 = some (.mulhsu 5 9 18) ∧
    decodeTableWord 32 0x28208D32 = some (.divu 5 9 18) ∧
    decodeTableWord 32 0x28218D32 = some (.div 5 9 18) ∧
    decodeTableWord 32 0x28228D32 = some (.remu 5 9 18) ∧
    decodeTableWord 32 0x28238D32 = some (.rem 5 9 18) ∧
    decodeTableWord 32 0x1C359132 = some (.beq 7221 9 18) ∧
    decodeTableWord 32 0x3C359132 = some (.bne 7221 9 18) ∧
    decodeTableWord 32 0x9C359132 = some (.blt 7221 9 18) ∧
    decodeTableWord 32 0xBC359132 = some (.bge 7221 9 18) ∧
    decodeTableWord 32 0xDC359132 = some (.bltu 7221 9 18) := by
  decide +kernel

theorem test_decode_04_bgeu_to_stRel :
    decodeTableWord 32 0xFC359132 = some (.bgeu 7221 9 18) ∧
    decodeTableWord 32 0x5C35952A = some (.jal 678965 9) ∧
    decodeTableWord 32 0x1C359932 = some (.jalr 7221 9 18) ∧
    decodeTableWord 32 0x1C359D32 = some (.ldB 7221 9 18) ∧
    decodeTableWord 32 0x3C359D32 = some (.ldH 7221 9 18) ∧
    decodeTableWord 32 0x5C359D32 = some (.ldW 7221 9 18) ∧
    decodeTableWord 32 0x7C359D32 = some (.ldD 7221 9 18) ∧
    decodeTableWord 32 0x9C359D32 = some (.ldBu 7221 9 18) ∧
    decodeTableWord 32 0xBC359D32 = some (.ldHu 7221 9 18) ∧
    decodeTableWord 32 0xDC359D32 = some (.ldWu 7221 9 18) ∧
    decodeTableWord 32 0xFC359D32 = some (.ldAcq 7221 9 18) ∧
    decodeTableWord 32 0x1C35A132 = some (.stB 7221 9 18) ∧
    decodeTableWord 32 0x3C35A132 = some (.stH 7221 9 18) ∧
    decodeTableWord 32 0x5C35A132 = some (.stW 7221 9 18) ∧
    decodeTableWord 32 0x7C35A132 = some (.stD 7221 9 18) ∧
    decodeTableWord 32 0xFC35A132 = some (.stRel 7221 9 18) := by
  decide +kernel

theorem test_decode_05_ldf_to_rupdMax :
    decodeTableWord 32 0x0006A643 = some (.ldf 1 1 18 3) ∧
    decodeTableWord 32 0x2904A412 = some (.stf 5 1 18) ∧
    decodeTableWord 32 0x2A0CA643 = some (.amoAdd 5 1 18 3) ∧
    decodeTableWord 32 0x2A1CA643 = some (.amoSwap 5 1 18 3) ∧
    decodeTableWord 32 0x2A2CA643 = some (.amoCas 5 1 18 3) ∧
    decodeTableWord 32 0x2A3CA643 = some (.amoMin 5 1 18 3) ∧
    decodeTableWord 32 0x2A4CA643 = some (.amoMax 5 1 18 3) ∧
    decodeTableWord 32 0x2A5CA643 = some (.amoMinu 5 1 18 3) ∧
    decodeTableWord 32 0x2A6CA643 = some (.amoMaxu 5 1 18 3) ∧
    decodeTableWord 32 0x2A7CA643 = some (.amoAnd 5 1 18 3) ∧
    decodeTableWord 32 0x2A8CA643 = some (.amoOr 5 1 18 3) ∧
    decodeTableWord 32 0x2A9CA643 = some (.amoXor 5 1 18 3) ∧
    decodeTableWord 32 0x2AA8A532 = some (.amoFadd 5 9 18) ∧
    decodeTableWord 32 0x2B0CA412 = some (.rupdAdd 5 1 18) ∧
    decodeTableWord 32 0x2B3CA412 = some (.rupdMin 5 1 18) ∧
    decodeTableWord 32 0x2B4CA412 = some (.rupdMax 5 1 18) := by
  decide +kernel

theorem test_decode_06_rupdMinu_to_rett :
    decodeTableWord 32 0x2B5CA412 = some (.rupdMinu 5 1 18) ∧
    decodeTableWord 32 0x2B6CA412 = some (.rupdMaxu 5 1 18) ∧
    decodeTableWord 32 0x2B7CA412 = some (.rupdAnd 5 1 18) ∧
    decodeTableWord 32 0x2B8CA412 = some (.rupdOr 5 1 18) ∧
    decodeTableWord 32 0x2B9CA412 = some (.rupdXor 5 1 18) ∧
    decodeTableWord 32 0x2BA8A409 = some (.rupdFadd 5 9) ∧
    decodeTableWord 32 0x0000A8A9 = some (.oxl 5 9) ∧
    decodeTableWord 32 0x0001A8A1 = some (.oxm 5 1) ∧
    decodeTableWord 32 0x0002A8A1 = some (.oxr 5 1) ∧
    decodeTableWord 32 0x0C35AD20 = some (.ctlr 3125 9) ∧
    decodeTableWord 32 0x2C35AC09 = some (.ctlw 3125 9) ∧
    decodeTableWord 32 0x4C35AD32 = some (.ctls 3125 9 18) ∧
    decodeTableWord 32 0x6C35AD32 = some (.ctlc 3125 9 18) ∧
    decodeTableWord 32 0x8124AC00 = some (.fence 4 9) ∧
    decodeTableWord 32 0x8235AC00 = some (.trap 53) ∧
    decodeTableWord 32 0x8400AC00 = some .rett := by
  decide +kernel

theorem test_decode_07_chkerr_to_vmin :
    decodeTableWord 32 0x8600AC00 = some .chkerr ∧
    decodeTableWord 32 0x8800AC00 = some .bkpt ∧
    decodeTableWord 32 0x0000B0A9 = some (.setvl 5 9) ∧
    decodeTableWord 32 0x3C35B120 = some (.setvli 7221 9) ∧
    decodeTableWord 32 0x4000B0A9 = some (.setvt 5 9) ∧
    decodeTableWord 32 0x2EE0B7A1 = some (.vadd 5 1 1 3 1 29 1) ∧
    decodeTableWord 32 0x2EE1B7A1 = some (.vsub 5 1 1 3 1 29 1) ∧
    decodeTableWord 32 0x2EE2B7A1 = some (.vmul 5 1 1 3 1 29 1) ∧
    decodeTableWord 32 0x2EE3B7A1 = some (.vmulh 5 1 1 3 1 29 1) ∧
    decodeTableWord 32 0x2EE4B7A1 = some (.vand 5 1 1 3 1 29 1) ∧
    decodeTableWord 32 0x2EE5B7A1 = some (.vor 5 1 1 3 1 29 1) ∧
    decodeTableWord 32 0x2EE6B7A1 = some (.vxor 5 1 1 3 1 29 1) ∧
    decodeTableWord 32 0x2EE7B7A1 = some (.vsll 5 1 1 3 1 29 1) ∧
    decodeTableWord 32 0x2EE8B7A1 = some (.vsrl 5 1 1 3 1 29 1) ∧
    decodeTableWord 32 0x2EE9B7A1 = some (.vsra 5 1 1 3 1 29 1) ∧
    decodeTableWord 32 0x2EEAB7A1 = some (.vmin 5 1 1 3 1 29 1) := by
  decide +kernel

theorem test_decode_08_vmax_to_vfmax :
    decodeTableWord 32 0x2EEBB7A1 = some (.vmax 5 1 1 3 1 29 1) ∧
    decodeTableWord 32 0x2EECB7A1 = some (.vminu 5 1 1 3 1 29 1) ∧
    decodeTableWord 32 0x2EEDB7A1 = some (.vmaxu 5 1 1 3 1 29 1) ∧
    decodeTableWord 32 0x2EEEB7A1 = some (.vabsd 5 1 1 3 1 29 1) ∧
    decodeTableWord 32 0x2EEFB7A1 = some (.vsadd 5 1 1 3 1 29 1) ∧
    decodeTableWord 32 0x2EF0B7A1 = some (.vssub 5 1 1 3 1 29 1) ∧
    decodeTableWord 32 0x2EE0BBA1 = some (.vfadd 5 1 1 3 1 29 1) ∧
    decodeTableWord 32 0x2EE1BBA1 = some (.vfsub 5 1 1 3 1 29 1) ∧
    decodeTableWord 32 0x2EE2BBA1 = some (.vfmul 5 1 1 3 1 29 1) ∧
    decodeTableWord 32 0x2EE3BBA1 = some (.vfma 5 1 1 3 1 29 1) ∧
    decodeTableWord 32 0x2EE4BBA1 = some (.vfms 5 1 1 3 1 29 1) ∧
    decodeTableWord 32 0x2EE5BBA1 = some (.vfnma 5 1 1 3 1 29 1) ∧
    decodeTableWord 32 0x2EE6BBA1 = some (.vfdiv 5 1 1 3 1 29 1) ∧
    decodeTableWord 32 0x0467B866 = some (.vfsqrt 1 1 1 3 6) ∧
    decodeTableWord 32 0x2EE8BBA1 = some (.vfmin 5 1 1 3 1 29 1) ∧
    decodeTableWord 32 0x2EE9BBA1 = some (.vfmax 5 1 1 3 1 29 1) := by
  decide +kernel

theorem test_decode_09_vfabs_to_vcmpGeu :
    decodeTableWord 32 0x046AB866 = some (.vfabs 1 1 1 3 6) ∧
    decodeTableWord 32 0x046BB866 = some (.vfneg 1 1 1 3 6) ∧
    decodeTableWord 32 0x2EF1B82C = some (.vfaddStatic 5 1 1 3 1 1 1 12) ∧
    decodeTableWord 32 0x2EF5B82C = some (.vfsubStatic 5 1 1 3 1 1 1 12) ∧
    decodeTableWord 32 0x2EF9B82C = some (.vfmulStatic 5 1 1 3 1 1 1 12) ∧
    decodeTableWord 32 0x2EFDB82C = some (.vfmaStatic 5 1 1 3 1 1 1 12) ∧
    decodeTableWord 32 0x2EE0BCA1 = some (.vcmpEq 5 1 1 3 1 5 1) ∧
    decodeTableWord 32 0x2EE1BCA1 = some (.vcmpNe 5 1 1 3 1 5 1) ∧
    decodeTableWord 32 0x2EE2BCA1 = some (.vcmpLt 5 1 1 3 1 5 1) ∧
    decodeTableWord 32 0x2EE3BCA1 = some (.vcmpLe 5 1 1 3 1 5 1) ∧
    decodeTableWord 32 0x2EE4BCA1 = some (.vcmpGt 5 1 1 3 1 5 1) ∧
    decodeTableWord 32 0x2EE5BCA1 = some (.vcmpGe 5 1 1 3 1 5 1) ∧
    decodeTableWord 32 0x2EE6BCA1 = some (.vcmpLtu 5 1 1 3 1 5 1) ∧
    decodeTableWord 32 0x2EE7BCA1 = some (.vcmpLeu 5 1 1 3 1 5 1) ∧
    decodeTableWord 32 0x2EE8BCA1 = some (.vcmpGtu 5 1 1 3 1 5 1) ∧
    decodeTableWord 32 0x2EE9BCA1 = some (.vcmpGeu 5 1 1 3 1 5 1) := by
  decide +kernel

theorem test_decode_10_vfcmpEq_to_mmove :
    decodeTableWord 32 0x2EEABCA1 = some (.vfcmpEq 5 1 1 3 1 5 1) ∧
    decodeTableWord 32 0x2EEBBCA1 = some (.vfcmpNe 5 1 1 3 1 5 1) ∧
    decodeTableWord 32 0x2EECBCA1 = some (.vfcmpLt 5 1 1 3 1 5 1) ∧
    decodeTableWord 32 0x2EEDBCA1 = some (.vfcmpLe 5 1 1 3 1 5 1) ∧
    decodeTableWord 32 0x2EEEBCA1 = some (.vfcmpGt 5 1 1 3 1 5 1) ∧
    decodeTableWord 32 0x2EEFBCA1 = some (.vfcmpGe 5 1 1 3 1 5 1) ∧
    decodeTableWord 32 0x2EF0BCA1 = some (.vfcmpUn 5 1 1 3 1 5 1) ∧
    decodeTableWord 32 0x2811BC22 = some (.mand 5 1 2) ∧
    decodeTableWord 32 0x2812BC22 = some (.mor 5 1 2) ∧
    decodeTableWord 32 0x2813BC22 = some (.mxor 5 1 2) ∧
    decodeTableWord 32 0x2814BC22 = some (.mandn 5 1 2) ∧
    decodeTableWord 32 0x0015BCA1 = some (.mnot 5 1) ∧
    decodeTableWord 32 0x0016BCA9 = some (.msetn 5 9) ∧
    decodeTableWord 32 0x0177BE43 = some (.mpopc 5 1 18 3) ∧
    decodeTableWord 32 0x0178BE43 = some (.mfirst 5 1 18 3) ∧
    decodeTableWord 32 0x0019BD27 = some (.mmove 9 7) := by
  decide +kernel

theorem test_decode_11_vsel_to_vcvtStatic :
    decodeTableWord 32 0x2EE0C0DD = some (.vsel 5 1 1 3 6 29) ∧
    decodeTableWord 32 0x0461C066 = some (.vmv 1 1 1 3 6) ∧
    decodeTableWord 32 0x0162C243 = some (.vmvx 5 1 18 3) ∧
    decodeTableWord 32 0x2C03C243 = some (.vext 5 1 18 3) ∧
    decodeTableWord 32 0x2CA4C0DD = some (.vslideup 5 1 2 1 6 29) ∧
    decodeTableWord 32 0x2CA5C0DD = some (.vslidedn 5 1 2 1 6 29) ∧
    decodeTableWord 32 0x2EE6C3A1 = some (.vgath 5 1 1 3 1 29 1) ∧
    decodeTableWord 32 0x0467C066 = some (.vcomp 1 1 1 3 6) ∧
    decodeTableWord 32 0x0468C066 = some (.vexp 1 1 1 3 6) ∧
    decodeTableWord 32 0x0169C240 = some (.viota 5 1 18) ∧
    decodeTableWord 32 0x046AC066 = some (.vredsum 1 1 1 3 6) ∧
    decodeTableWord 32 0x046BC066 = some (.vredmin 1 1 1 3 6) ∧
    decodeTableWord 32 0x046CC066 = some (.vredmax 1 1 1 3 6) ∧
    decodeTableWord 32 0x046DC066 = some (.vfredsum 1 1 1 3 6) ∧
    decodeTableWord 32 0xC4A0C4DD = some (.vcvt 24 1 2 1 6 29) ∧
    decodeTableWord 32 0xC4A6C7A1 = some (.vcvtStatic 24 1 2 1 2 29 1) := by
  decide +kernel

theorem test_decode_12_vbfpxX_to_mdrainqReg :
    decodeTableWord 32 0x0408C532 = some (.vbfpxX 1 9 18) ∧
    decodeTableWord 32 0x0409C532 = some (.vbfpxI 1 9 18) ∧
    decodeTableWord 32 0x06A0C8DD = some (.vld 1 1 2 1 6 29) ∧
    decodeTableWord 32 0x06B9CBA1 = some (.vlds 1 1 2 1 6 29 1) ∧
    decodeTableWord 32 0x2EE2CBA1 = some (.vldx 5 1 1 3 1 29 1) ∧
    decodeTableWord 32 0x06A0CCDD = some (.vst 1 1 2 1 6 29) ∧
    decodeTableWord 32 0x06B9CFA1 = some (.vsts 1 1 2 1 6 29 1) ∧
    decodeTableWord 32 0x2EE2CFA1 = some (.vstx 5 1 1 3 1 29 1) ∧
    decodeTableWord 32 0x0010D000 = some (.mzero 1) ∧
    decodeTableWord 32 0x2910D012 = some (.minit 5 1 18) ∧
    decodeTableWord 32 0x2A3ED001 = some (.mma 5 1 1 1 1 1 1) ∧
    decodeTableWord 32 0x2B30D003 = some (.mmab 5 1 1 3) ∧
    decodeTableWord 32 0x0410D120 = some (.mrowsum 1 9) ∧
    decodeTableWord 32 0x0510D132 = some (.mdrainReg 1 9 18) ∧
    decodeTableWord 32 0x0511D009 = some (.mdrainSpad 1 9) ∧
    decodeTableWord 32 0x2E30D060 = some (.mdrainqReg 5 1 1 3) := by
  decide +kernel

theorem test_decode_13_mdrainqSpad_to_sende :
    decodeTableWord 32 0x2E31D003 = some (.mdrainqSpad 5 1 1 3) ∧
    decodeTableWord 32 0x00A0D532 = some (.cpy 5 9 18) ∧
    decodeTableWord 32 0x01A0D532 = some (.cpyrAdd 5 9 18) ∧
    decodeTableWord 32 0x01A2D532 = some (.cpyrFadd 5 9 18) ∧
    decodeTableWord 32 0x01A4D532 = some (.cpyrBfadd 5 9 18) ∧
    decodeTableWord 32 0x01A6D532 = some (.cpyrMin 5 9 18) ∧
    decodeTableWord 32 0x01A8D532 = some (.cpyrMax 5 9 18) ∧
    decodeTableWord 32 0x01AAD532 = some (.cpyrFmin 5 9 18) ∧
    decodeTableWord 32 0x01ACD532 = some (.cpyrFmax 5 9 18) ∧
    decodeTableWord 32 0x2A20D640 = some (.cpyf 5 1 18) ∧
    decodeTableWord 32 0x2B20D643 = some (.cpyMc 5 1 18 3) ∧
    decodeTableWord 32 0x2800D809 = some (.send 5 9) ∧
    decodeTableWord 32 0x2801D920 = some (.recv 5 9) ∧
    decodeTableWord 32 0x2802D809 = some (.vsend 5 9) ∧
    decodeTableWord 32 0x2803D920 = some (.vrecv 5 9) ∧
    decodeTableWord 32 0x2804D800 = some (.sende 5) := by
  decide +kernel

theorem test_decode_14_recve_to_gvoteCount :
    decodeTableWord 32 0x2805D932 = some (.recve 5 9 18) ∧
    decodeTableWord 32 0x2806D920 = some (.portq 5 9) ∧
    decodeTableWord 32 0x0000DCA9 = some (.errand 5 9) ∧
    decodeTableWord 32 0x0001DCA9 = some (.errwait 5 9) ∧
    decodeTableWord 32 0x0010DC05 = some (.reply 5) ∧
    decodeTableWord 32 0x2811DD32 = some (.fins 5 9 18) ∧
    decodeTableWord 32 0x2820E243 = some (.gnew 5 2 18 3) ∧
    decodeTableWord 32 0x2880E132 = some (.gjoin 5 9 18) ∧
    decodeTableWord 32 0x2900E120 = some (.gleave 5 9) ∧
    decodeTableWord 32 0x2980E009 = some (.garr 5 9) ∧
    decodeTableWord 32 0x2981E001 = some (.garrMask 5 1) ∧
    decodeTableWord 32 0x2A00E120 = some (.gbar 5 9) ∧
    decodeTableWord 32 0x2A80E132 = some (.gwait 5 9 18) ∧
    decodeTableWord 32 0x2B00E132 = some (.gvoteAll 5 9 18) ∧
    decodeTableWord 32 0x2B10E132 = some (.gvoteAny 5 9 18) ∧
    decodeTableWord 32 0x2B20E132 = some (.gvoteCount 5 9 18) := by
  decide +kernel

theorem test_decode_15_gvoteAllMask_to_slotgo :
    decodeTableWord 32 0x2B01E122 = some (.gvoteAllMask 5 9 2) ∧
    decodeTableWord 32 0x2B11E122 = some (.gvoteAnyMask 5 9 2) ∧
    decodeTableWord 32 0x2B21E122 = some (.gvoteCountMask 5 9 2) ∧
    decodeTableWord 32 0x2B84E243 = some (.gredSum 5 2 18 3) ∧
    decodeTableWord 32 0x2B94E243 = some (.gredMin 5 2 18 3) ∧
    decodeTableWord 32 0x2BA4E243 = some (.gredMax 5 2 18 3) ∧
    decodeTableWord 32 0x2C00E120 = some (.ginfo 5 9) ∧
    decodeTableWord 32 0x2800E532 = some (.swset 5 9 18) ∧
    decodeTableWord 32 0x2801E532 = some (.swwait 5 9 18) ∧
    decodeTableWord 32 0x2802E409 = some (.swadd 5 9) ∧
    decodeTableWord 32 0x0003E4A9 = some (.swread 5 9) ∧
    decodeTableWord 32 0x0000E805 = some (.temit 5) ∧
    decodeTableWord 32 0x3C35E800 = some (.tmark 7221) ∧
    decodeTableWord 32 0x2800ED32 = some (.rqpush 5 9 18) ∧
    decodeTableWord 32 0x0001ECA0 = some (.rqpop 5) ∧
    decodeTableWord 32 0x2802EC09 = some (.slotgo 5 9) := by
  decide +kernel

theorem test_decode_16_slotstop_to_cSend :
    decodeTableWord 32 0x2803EC09 = some (.slotstop 5 9) ∧
    decodeTableWord 32 0x0004ECA9 = some (.migrate 5 9) ∧
    decodeTableWord 32 0x2805ED32 = some (.fwdset 5 9 18) ∧
    decodeTableWord 32 0x2806EC09 = some (.timerset 5 9) ∧
    decodeTableWord 32 0x0007ECA9 = some (.parkwait 5 9) ∧
    decodeTableWord 32 0x5C35FF0D = some (.hint 23605 781) ∧
    decodeTableWord 32 0x0000FC00 = some .nop ∧
    decodeTableWord 16 0x0949 = some (.cMv 5 9) ∧
    decodeTableWord 16 0x1149 = some (.cAdd 5 9) ∧
    decodeTableWord 16 0x1949 = some (.cAddi 5 9) ∧
    decodeTableWord 16 0x2149 = some (.cLd 5 9) ∧
    decodeTableWord 16 0x2949 = some (.cSt 5 9) ∧
    decodeTableWord 16 0x3149 = some (.cBeqz 5 9) ∧
    decodeTableWord 16 0x3949 = some (.cBnez 5 9) ∧
    decodeTableWord 16 0x4435 = some (.cJ 1077) ∧
    decodeTableWord 16 0x4949 = some (.cSend 5 9) := by
  decide +kernel

theorem test_decode_17_cRecv_to_cNop :
    decodeTableWord 16 0x5149 = some (.cRecv 5 9) ∧
    decodeTableWord 16 0x5949 = some (.cLdhi 5 9) ∧
    decodeTableWord 16 0x6000 = some .cNop := by
  decide +kernel

/-! ### Well-formedness: each check with a term it refuses -/

theorem test_wf_refuses_1 :
    Instr.wf (.vadd 1 1 1 1 0 1 1) = false ∧ Instr.wf (.vsub 1 1 1 1 0 1 1) = false ∧ Instr.wf (.vmul 1 1 1 1 0 1 1) = false ∧
    Instr.wf (.vmulh 1 1 1 1 0 1 1) = false ∧ Instr.wf (.vand 1 1 1 1 0 1 1) = false ∧ Instr.wf (.vor 1 1 1 1 0 1 1) = false ∧
    Instr.wf (.vxor 1 1 1 1 0 1 1) = false ∧ Instr.wf (.vsll 1 1 1 1 0 1 1) = false ∧ Instr.wf (.vsrl 1 1 1 1 0 1 1) = false ∧
    Instr.wf (.vsra 1 1 1 1 0 1 1) = false ∧ Instr.wf (.vmin 1 1 1 1 0 1 1) = false ∧ Instr.wf (.vmax 1 1 1 1 0 1 1) = false ∧
    Instr.wf (.vminu 1 1 1 1 0 1 1) = false ∧ Instr.wf (.vmaxu 1 1 1 1 0 1 1) = false ∧ Instr.wf (.vabsd 1 1 1 1 0 1 1) = false ∧
    Instr.wf (.vsadd 1 1 1 1 0 1 1) = false ∧ Instr.wf (.vssub 1 1 1 1 0 1 1) = false ∧ Instr.wf (.vfadd 1 1 1 1 0 1 1) = false ∧
    Instr.wf (.vfsub 1 1 1 1 0 1 1) = false ∧ Instr.wf (.vfmul 1 1 1 1 0 1 1) = false ∧ Instr.wf (.vfma 1 1 1 1 0 1 1) = false ∧
    Instr.wf (.vfms 1 1 1 1 0 1 1) = false ∧ Instr.wf (.vfnma 1 1 1 1 0 1 1) = false ∧ Instr.wf (.vfdiv 1 1 1 1 0 1 1) = false := by
  decide +kernel

theorem test_wf_refuses_2 :
    Instr.wf (.vfsqrt 1 1 0 1 1) = false ∧ Instr.wf (.vfmin 1 1 1 1 0 1 1) = false ∧ Instr.wf (.vfmax 1 1 1 1 0 1 1) = false ∧
    Instr.wf (.vfabs 1 1 0 1 1) = false ∧ Instr.wf (.vfneg 1 1 0 1 1) = false ∧ Instr.wf (.vfaddStatic 1 1 1 1 0 1 1 1) = false ∧
    Instr.wf (.vfsubStatic 1 1 1 1 0 1 1 1) = false ∧ Instr.wf (.vfmulStatic 1 1 1 1 0 1 1 1) = false ∧ Instr.wf (.vfmaStatic 1 1 1 1 0 1 1 1) = false ∧
    Instr.wf (.vcmpEq 1 1 1 1 0 1 1) = false ∧ Instr.wf (.vcmpNe 1 1 1 1 0 1 1) = false ∧ Instr.wf (.vcmpLt 1 1 1 1 0 1 1) = false ∧
    Instr.wf (.vcmpLe 1 1 1 1 0 1 1) = false ∧ Instr.wf (.vcmpGt 1 1 1 1 0 1 1) = false ∧ Instr.wf (.vcmpGe 1 1 1 1 0 1 1) = false ∧
    Instr.wf (.vcmpLtu 1 1 1 1 0 1 1) = false ∧ Instr.wf (.vcmpLeu 1 1 1 1 0 1 1) = false ∧ Instr.wf (.vcmpGtu 1 1 1 1 0 1 1) = false ∧
    Instr.wf (.vcmpGeu 1 1 1 1 0 1 1) = false ∧ Instr.wf (.vfcmpEq 1 1 1 1 0 1 1) = false ∧ Instr.wf (.vfcmpNe 1 1 1 1 0 1 1) = false ∧
    Instr.wf (.vfcmpLt 1 1 1 1 0 1 1) = false ∧ Instr.wf (.vfcmpLe 1 1 1 1 0 1 1) = false ∧ Instr.wf (.vfcmpGt 1 1 1 1 0 1 1) = false := by
  decide +kernel

theorem test_wf_refuses_3 :
    Instr.wf (.vfcmpGe 1 1 1 1 0 1 1) = false ∧ Instr.wf (.vfcmpUn 1 1 1 1 0 1 1) = false ∧ Instr.wf (.mpopc 1 0 1 1) = false ∧
    Instr.wf (.mfirst 1 0 1 1) = false ∧ Instr.wf (.vmv 1 1 0 1 1) = false ∧ Instr.wf (.vmvx 1 0 1 1) = false ∧
    Instr.wf (.vslideup 1 1 1 0 1 1) = false ∧ Instr.wf (.vslidedn 1 1 1 0 1 1) = false ∧ Instr.wf (.vgath 1 1 1 1 0 1 1) = false ∧
    Instr.wf (.vcomp 1 1 0 1 1) = false ∧ Instr.wf (.vexp 1 1 0 1 1) = false ∧ Instr.wf (.viota 1 0 1) = false ∧
    Instr.wf (.vredsum 1 1 0 1 1) = false ∧ Instr.wf (.vredmin 1 1 0 1 1) = false ∧ Instr.wf (.vredmax 1 1 0 1 1) = false ∧
    Instr.wf (.vfredsum 1 1 0 1 1) = false ∧ Instr.wf (.vcvt 1 1 1 0 1 1) = false ∧ Instr.wf (.vcvt 5 1 0 0 1 1) = false ∧
    Instr.wf (.vcvtStatic 1 1 1 0 1 1 1) = false ∧ Instr.wf (.vcvtStatic 5 1 0 0 1 1 1) = false ∧ Instr.wf (.vld 1 1 1 0 1 1) = false ∧
    Instr.wf (.vlds 1 1 1 0 1 1 1) = false ∧ Instr.wf (.vldx 1 1 1 1 0 1 1) = false ∧ Instr.wf (.vst 1 1 1 0 1 1) = false := by
  decide +kernel

theorem test_wf_refuses_4 :
    Instr.wf (.vsts 1 1 1 0 1 1 1) = false ∧ Instr.wf (.vstx 1 1 1 1 0 1 1) = false ∧ Instr.wf (.vtWrite 8192 0 0) = false ∧
    Instr.wf (.vlWrite 8192 0 0) = false ∧ Instr.wf (.xclassWrite 8192 0 0) = false ∧ Instr.wf (.xmWrite 8192 0 0) = false ∧
    Instr.wf (.fmaskWrite 8192 0 0) = false ∧ Instr.wf (.statusWrite 8192 0 0) = false ∧ Instr.wf (.mslotWrite 8192 0 0) = false ∧
    Instr.wf (.bfmtWrite 8192 0 0) = false ∧ Instr.wf (.perfselWrite 8192 0 0) = false ∧ Instr.wf (.probeDelayWrite 8192 0) = false ∧
    Instr.wf (.decodeDeadlineWrite 8192 0) = false ∧ Instr.wf (.crateWrite 8192 0 0) = false ∧ Instr.wf (.injectDropFragment 8192 0) = false ∧
    Instr.wf (.injectHoldFragment 8192 0 0) = false ∧ Instr.wf (.injectCheckerMismatch 8192) = false ∧ Instr.wf (.injectDoubleMismatch 8192) = false ∧
    Instr.wf (.injectPoisonGranule 8192) = false ∧ Instr.wf (.injectHoldRelease 8192 0) = false ∧ Instr.wf (.controlRegisterWrite 8192 0 0 0) = false ∧
    Instr.wf (.slotImageWrite 8192 0 0 0) = false ∧ Instr.wf (.watchdogPass 8192 0) = false ∧ Instr.wf (.timerExpiry 8192 0) = false := by
  decide +kernel

theorem test_wf_refuses_5 :
    Instr.wf (.parkDeadlineExpiry 8192 0) = false ∧ Instr.wf (.watchdogEvent 8192) = false ∧ Instr.wf (.migrateEvent 8192) = false ∧
    Instr.wf (.timerEvent 8192) = false ∧ Instr.wf (.wakeEvent 8192) = false ∧ Instr.wf (.heldFragmentNack ⟨.tile, 8192⟩ 0) = false ∧
    Instr.wf (.decodeDeadlineExpiry ⟨.tile, 8192⟩ 0) = false ∧ Instr.wf (.filterEntryExpiry ⟨.tile, 8192⟩ 0) = false ∧ Instr.wf (.shadowTimerExpiry ⟨.tile, 8192⟩ 0) = false ∧
    Instr.wf (.done ⟨.tile, 8192⟩ 0) = false ∧ Instr.wf (.release ⟨.tile, 8192⟩ 0) = false ∧ Instr.wf (.nack ⟨.tile, 8192⟩ 0) = false ∧
    Instr.wf (.tokens ⟨.tile, 8192⟩ 0) = false ∧ Instr.wf (.credit ⟨.tile, 8192⟩ 0) = false ∧ Instr.wf (.ended ⟨.tile, 8192⟩ 0) = false ∧
    Instr.wf (.copy ⟨.tile, 8192⟩ 0) = false ∧ Instr.wf (.placed ⟨.tile, 8192⟩ 0) = false ∧ Instr.wf (.errandFrameExecution ⟨.tile, 8192⟩) = false ∧
    Instr.wf (.replyMessage ⟨.tile, 8192⟩ 0) = false ∧ Instr.wf (.homeAccess ⟨.tile, 8192⟩ 0) = false ∧ Instr.wf (.rupdApply ⟨.tile, 8192⟩ 0) = false ∧
    Instr.wf (.farReply ⟨.tile, 8192⟩ 0) = false ∧ Instr.wf (.serverRead ⟨.tile, 8192⟩ 0) = false ∧ Instr.wf (.serverWrite ⟨.tile, 8192⟩ 0) = false := by
  decide +kernel

theorem test_wf_refuses_6 :
    Instr.wf (.serverZero ⟨.tile, 8192⟩ 0) = false ∧ Instr.wf (.xlate ⟨.tile, 8192⟩ 0) = false ∧ Instr.wf (.probeLaunch 8192 0) = false ∧
    Instr.wf (.probe ⟨.tile, 8192⟩ 0) = false ∧ Instr.wf (.grow ⟨.tile, 8192⟩ 0) = false ∧ Instr.wf (.spillClaimReply ⟨.tile, 8192⟩ 0) = false ∧
    Instr.wf (.reelCreate ⟨.tile, 8192⟩ 0) = false ∧ Instr.wf (.reelJoin ⟨.tile, 8192⟩ 0) = false ∧ Instr.wf (.reelLeave ⟨.tile, 8192⟩ 0) = false ∧
    Instr.wf (.reelArrive ⟨.tile, 8192⟩ 0) = false ∧ Instr.wf (.reelWait ⟨.tile, 8192⟩ 0) = false ∧ Instr.wf (.reelInfo ⟨.tile, 8192⟩ 0) = false ∧
    Instr.wf (.reelStatus ⟨.tile, 8192⟩ 0) = false ∧ Instr.wf (.reelResult ⟨.tile, 8192⟩ 0) = false ∧ Instr.wf (.reelDepart ⟨.tile, 8192⟩ 0) = false ∧
    Instr.wf (.reelMoved ⟨.tile, 8192⟩ 0) = false ∧ Instr.wf (.reelGang ⟨.tile, 8192⟩ 0) = false ∧ Instr.wf (.reelExpand ⟨.tile, 8192⟩ 0) = false ∧
    Instr.wf (.forwardingExpiry 8192) = false ∧ Instr.wf (.decodeTableUpdate 8192) = false ∧ Instr.wf (.traceDrain 8192) = false ∧
    Instr.wf (.gapRecord 8192) = false ∧ Instr.wf (.spillRead ⟨.tile, 8192⟩ 0) = false ∧ Instr.wf (.tsWrap 8192) = false := by
  decide +kernel

theorem test_wf_refuses_7 :
    Instr.wf (.ldf 3 1 1 2) = false ∧ Instr.wf (.fence 5 1) = false ∧ Instr.wf (.mmove 10 1) = false ∧
    Instr.wf (.mmove 1 10) = false ∧ Instr.wf (.recve 1 4 4) = false ∧ Instr.wf (.gnew 1 3 1 1) = false ∧
    Instr.wf (.hint 0 0) = false ∧ Instr.wf (.gredSum 1 3 4 5) = false ∧ Instr.wf (.gredSum 1 2 4 4) = false ∧
    Instr.wf (.gredMin 1 3 4 5) = false ∧ Instr.wf (.gredMin 1 2 4 4) = false ∧ Instr.wf (.gredMax 1 3 4 5) = false ∧
    Instr.wf (.gredMax 1 2 4 4) = false ∧ Instr.wf (.linkStepDown 324 0 0) = false ∧ Instr.wf (.linkStepUp 324) = false ∧
    Instr.wf (.throttleStepUp 32 0) = false ∧ Instr.wf (.throttleStepDown 32 0) = false ∧ Instr.wf (.thermalTrip 32 0) = false ∧
    Instr.wf (.voltaOrder 8192 0) = false ∧ Instr.wf (.voltaOrder 0 8192) = false ∧ Instr.wf (.routerFragment 0 ⟨.tile, 8192⟩) = false ∧
    Instr.wf (.linkFlitRetry 0 324) = false ∧ Instr.wf (.retrainComplete 324) = false ∧ Instr.wf (.tokens ⟨.edge, 256⟩ 0) = false := by
  decide +kernel

theorem test_wf_refuses_8 :
    Instr.wf (.tokens ⟨.reel, 32⟩ 0) = false ∧ Instr.wf (.tokens ⟨.port, 5⟩ 0) = false := by
  decide +kernel

/-- What stands at the edge of a check is accepted. -/
theorem test_wf_accepts : Instr.wf (.fence 4 0) = true ∧ Instr.wf (.mmove 9 9) = true ∧ Instr.wf (.gnew 1 2 1 1) = true ∧
    Instr.wf (.vadd 1 1 1 7 1 1 1) = true ∧ Instr.wf (.ldf 3 0 1 1) = true ∧ Instr.wf (.recve 1 0 0) = true ∧
    Instr.wf (.vcvt 0x18 0 0 0 0 0) = true ∧ Instr.wf (.tokens ⟨.tile, 8191⟩ 0) = true := by
  decide +kernel

/-- Words that decode to nothing: a reserved operand, a mask without its enable (R115, R122). -/
theorem test_decode_refuses : decodeTableWord 32 0x0140B461 = none ∧ decodeTableWord 32 0x0000A925 = none := by
  decide +kernel

/-! ### One step each, with the results of the manual's worked cases -/

/-- The state one instruction leads to. -/
def after (i : Instr) (s : State) : State :=
  match exec i s with
  | .next t => t
  | _ => State.reset

/-- Slot 0 with g1 and g2. -/
def two (a b : Word) : State := one fun x => (x.setG 1 a).setG 2 b

/-- 04_scalar_registers.md R162. -/
theorem test_division : let s := two (-7) 2;
    (after (.div 2 3 1) s).g 3 = -3 ∧ (after (.rem 2 3 1) s).g 3 = -1 ∧ (after (.divu 2 3 1) s).g 3 = 0x7FFFFFFFFFFFFFFC ∧
      (after (.remu 2 3 1) s).g 3 = 1 := by decide +kernel

theorem test_division_limits :
    (after (.div 2 3 1) (two 0x8000000000000000 (-1))).g 3 = 0x7FFFFFFFFFFFFFFF ∧ (after (.rem 2 3 1) (two 0x8000000000000000 (-1))).g 3 = 0 ∧
      (after (.div 2 3 1) (two (-5) 0)).g 3 = 0x8000000000000000 ∧ (after (.divu 2 3 1) (two (-5) 0)).g 3 = -1 := by decide +kernel

theorem test_high_products : (after (.mulh 2 3 1) (two (-1) (-1))).g 3 = 0 ∧ (after (.mulhu 2 3 1) (two (-1) (-1))).g 3 = 0xFFFFFFFFFFFFFFFE := by
  decide +kernel

/-- R157: counts of 64 and -1, a source that is the destination, a write of g0. -/
theorem test_scalar_edges : (after (.sll 2 3 1) (two 1 64)).g 3 = 1 ∧ (after (.sra 2 3 1) (two 0x8000000000000000 (-1))).g 3 = -1 ∧
    (after (.clz 3 1) (two 0 0)).g 3 = 64 ∧ (after (.add 2 1 1) (two (-1) 1)).g 1 = 0 ∧ (after (.add 2 0 1) (two 5 6)).g 0 = 0 := by
  decide +kernel

/-- 07_control_registers.md R243. -/
theorem test_trap_entry : let s := (one fun x => { x with status := 1, pc := 0xD0120, tvec := 0xD0400 }).modTile 0 started;
    let t := after (.trap 5) s;
    t.me.status = 0x10014 ∧ t.me.cause = 0x18 ∧ t.me.eval = 5 ∧ t.me.epc = 0xD0124 ∧ t.me.pc = 0xD0400 := by decide +kernel

theorem test_trap_return :
    let s := (one fun x => { x with status := 0x10014, pc := 0xD0400, epc := 0xD0124 }).modTile 0 started;
    (after .rett s).me.status = 0x10001 ∧ (after .rett s).me.pc = 0xD0124 := by decide +kernel

/-- 05_vector_registers.md R186: FP32, then BFP-4 with blocks of 16. -/
theorem test_setvli : ((after (.setvli 300 5) (vecOne 10 0 id)).g 5 = 256) ∧ ((after (.setvli 1000 5) (vecOne 0x34 0 id)).g 5 = 992) ∧
    (after (.setvli 10 5) (vecOne 0x34 0 id)).g 5 = 0 := by decide +kernel

/-- Elements 0 of v1 and v2. -/
def lanes (vt : Nat) (a b : Nat) : State :=
  (vecOne vt 1 id).modTile 0 fun x => x.modVec 0 fun c => { c with v := (c.v.set 1 (BitVec.ofNat 8192 a)).set 2 (BitVec.ofNat 8192 b) }

/-- 05_vector_registers.md R188: INT8, then UINT8. -/
theorem test_vector_integer :
    elemAt 8 ((after (.vadd 2 0 0 0 0 3 1) (lanes 0 100 50)).vec.reg 3) 0 = 0x96 ∧
    elemAt 8 ((after (.vsadd 2 0 0 0 0 3 1) (lanes 0 100 50)).vec.reg 3) 0 = 127 ∧
    elemAt 8 ((after (.vabsd 2 0 0 0 0 3 1) (lanes 0 100 50)).vec.reg 3) 0 = 50 ∧
    elemAt 8 ((after (.vmulh 2 0 0 0 0 3 1) (lanes 0 100 50)).vec.reg 3) 0 = 19 ∧
    elemAt 8 ((after (.vsadd 2 0 0 0 0 3 1) (lanes 1 200 100)).vec.reg 3) 0 = 255 ∧
    elemAt 8 ((after (.vmin 2 0 0 0 0 3 1) (lanes 1 200 100)).vec.reg 3) 0 = 100 := by decide +kernel

/-- 02_number_formats.md R99, the worked case: FP32 to BF16 and FP16 in RNE. -/
theorem test_conversions :
    elemAt 16 ((after (.vcvt 10 0 0 0 3 1) (lanes 9 0x4079999A 0)).vec.reg 3) 0 = 0x407A ∧
    elemAt 16 ((after (.vcvt 10 0 0 0 3 1) (lanes 8 0x4079999A 0)).vec.reg 3) 0 = 0x43CD ∧
    elemAt 16 ((after (.vcvt 10 0 0 0 3 1) (lanes 9 0x3F808000 0)).vec.reg 3) 0 = 0x3F80 := by decide +kernel

/-- 02_number_formats.md R107, R108. -/
theorem test_code : gfInv 0x1B = 0x80 ∧ gfMul 0xD8 1 ^^^ gfMul 0x72 2 = 0x3C ∧
    (parityRow 0 [[1], [2]]).headD 0 = 0x3C := by decide +kernel

/-- 12_reels.md R403: the home of reel 0x77 of network 3 in a partition of die 1. -/
theorem test_reel_home : (plain.modMgr fun m => { m with parts := [{ part0 with tnt := 5, rx := 8, ry := 0, rw := 8, rh := 8 }] }).reelHome 5 3 0x77 = 4 := by
  decide +kernel

/-- 01_machine.md, 20_device.md R493: logical numbers on die 1. -/
theorem test_numbering : plain.coord 1024 = some (48, 0) ∧ plain.coord 1039 = some (63, 0) ∧ plain.coord 1040 = some (32, 0) ∧
    plain.coord 1041 = some (33, 0) := by decide +kernel

/-- 08_memories.md R255. -/
theorem test_address_forms : addrForm 0x4000000000518000 = .window 5 0x18000 ∧ addrForm 0x4000010000518000 = .bad ∧
    addrForm 0x8000000000100008 = .far 0x100008 ∧ addrForm 0x100000 = .bad := by decide +kernel

/-- 13_system_tables.md R437, R438: the leaf 0x0000_0050_0003_202F. -/
theorem test_leaf : leafOk 0x000000500003202F 4 = true ∧ Leaf.pa ⟨0x000000500003202F, 4, 0⟩ = 0x5000030000 ∧
    Leaf.station ⟨0x000000500003202F, 4, 0⟩ 0x100008 = 83 := by decide +kernel

end Sys2Proof.Tests
end

section
/-!
PROOFS of 03_encoding.md: decoding and encoding agree (O56). A word is a sum of fields, each at its place and narrower
than the room left for it, and the decoder reads it by quotients and remainders; so the first part says what such a
quotient and remainder of a sum are, and the second computes the decoder row by row with those rules.
-/
namespace Sys2Proof

/-! ### Reading a field of a sum -/

/-- A field above the bits read. -/
theorem add_mul_div_mod_of_above {m p q : Nat} (A x : Nat) (h : m % (p * q) = 0) :
    (A + x * m) / p % q = A / p % q := by
  obtain ⟨k, rfl⟩ := Nat.dvd_of_mod_eq_zero h
  rw [show x * (p * q * k) = p * q * (x * k) by ring, ← Nat.mod_mul_right_div_self, Nat.add_mul_mod_self_left,
    Nat.mod_mul_right_div_self]

theorem add_mul_mod_of_above {m q : Nat} (A x : Nat) (h : m % q = 0) : (A + x * m) % q = A % q := by
  simpa using add_mul_div_mod_of_above (p := 1) A x (by simpa using h)

/-- Where the bits of a field are clear, adding a value that fits carries nowhere: the bits above stay, and the field
reads the value. -/
theorem add_mul_div_of_lt {A m N x : Nat} (hm : 0 < m) (h : A / m % N = 0) (hx : x < N) :
    (A + x * m) / m / N = A / m / N ∧ (A + x * m) / m % N = x := by
  obtain ⟨k, hk⟩ := Nat.dvd_of_mod_eq_zero h
  have hN : 0 < N := by omega
  rw [Nat.add_mul_div_right _ _ hm, hk, Nat.add_comm, Nat.add_mul_div_left _ _ hN, Nat.mul_div_cancel_left _ hN,
    Nat.div_eq_of_lt hx, Nat.add_mul_mod_self_left, Nat.mod_eq_of_lt hx, Nat.zero_add]
  exact ⟨rfl, rfl⟩

/-- A field below the bits read. -/
theorem add_toNat_mul_div_mod_of_below {m p q n : Nat} (A : Nat) (x : BitVec n) (hm : 0 < m)
    (hp : p % (m * 2 ^ n) = 0) (h : A / m % 2 ^ n = 0) : (A + x.toNat * m) / p % q = A / p % q := by
  obtain ⟨k, rfl⟩ := Nat.dvd_of_mod_eq_zero hp
  simp only [← Nat.div_div_eq_div_mul, (add_mul_div_of_lt hm h x.isLt).1]

theorem add_toNat_div_mod_of_below {p q n : Nat} (A : Nat) (x : BitVec n) (hp : p % 2 ^ n = 0) (h : A % 2 ^ n = 0) :
    (A + x.toNat) / p % q = A / p % q := by
  simpa using add_toNat_mul_div_mod_of_below A x Nat.one_pos (by simpa using hp) (by simpa using h)

/-- The bits of the field itself. -/
theorem add_toNat_mul_div_mod_self {m n N : Nat} (A : Nat) (x : BitVec n) (hN : N = 2 ^ n) (hm : 0 < m)
    (h : A / m % N = 0) : (A + x.toNat * m) / m % N = x.toNat := (add_mul_div_of_lt hm h (hN ▸ x.isLt)).2

theorem add_toNat_mod_self {n N : Nat} (A : Nat) (x : BitVec n) (hN : N = 2 ^ n) (h : A % N = 0) :
    (A + x.toNat) % N = x.toNat := by
  simpa using add_toNat_mul_div_mod_self A x hN Nat.one_pos (by simpa using h)

/-- Bits compared with a constant may be compared in two parts, cut at `r`. -/
theorem div_mod_eq_iff {w p r k c : Nat} (hr : 0 < r) :
    w / p % (r * k) = c ↔ w / p % r = c % r ∧ w / (p * r) % k = c / r := by
  rw [← Nat.div_div_eq_div_mul, Nat.mod_mul]
  constructor
  · rintro rfl
    rw [Nat.add_mul_mod_self_left, Nat.mod_mod, Nat.add_mul_div_left _ _ hr, Nat.div_eq_of_lt (Nat.mod_lt _ hr),
      Nat.zero_add]
    exact ⟨rfl, rfl⟩
  · rintro ⟨h, h'⟩
    rw [h, h', Nat.mod_add_div]

/-- Bits that begin below a field: the part below it and the rest. -/
theorem add_mul_div_mod_eq_iff {m p q c : Nat} (A x : Nat) (hpm : p < m) (hm : m % p = 0)
    (hq : q % (m / p) = 0) : (A + x * m) / p % q = c ↔
      A / p % (m / p) = c % (m / p) ∧ (A + x * m) / m % (q / (m / p)) = c / (m / p) := by
  have hd : m / p * p = m := Nat.div_mul_cancel (Nat.dvd_of_mod_eq_zero hm)
  have hr : 0 < m / p := Nat.pos_of_ne_zero fun h => by rw [h] at hd; omega
  have hk : q = m / p * (q / (m / p)) := (Nat.mul_div_cancel' (Nat.dvd_of_mod_eq_zero hq)).symm
  have h1 : (A + x * m) / p % (m / p) = A / p % (m / p) := add_mul_div_mod_of_above A x (by
    rw [Nat.mul_comm, hd, Nat.mod_self])
  conv_lhs => rw [hk, div_mod_eq_iff hr, h1, Nat.mul_comm p, hd]

/-- Bits that begin with a field and go on above it: the field and the rest. -/
theorem add_toNat_mul_div_mod_eq_iff {m q n c : Nat} (A : Nat) (x : BitVec n) (hm : 0 < m)
    (hq : q % 2 ^ n = 0) (h : A / m % 2 ^ n = 0) : (A + x.toNat * m) / m % q = c ↔
      x.toNat = c % 2 ^ n ∧ A / (m * 2 ^ n) % (q / 2 ^ n) = c / 2 ^ n := by
  have hk : q = 2 ^ n * (q / 2 ^ n) := (Nat.mul_div_cancel' (Nat.dvd_of_mod_eq_zero hq)).symm
  conv_lhs => rw [hk, div_mod_eq_iff (by positivity), add_toNat_mul_div_mod_self A x rfl hm h,
    add_toNat_mul_div_mod_of_below A x hm (by simp) h]

/-- The rules above under one name: what bits read of a sum of fields are. -/
theorem field_read :
    (∀ {m p q : Nat} (A x : Nat), m % (p * q) = 0 → (A + x * m) / p % q = A / p % q) ∧
    (∀ {m q : Nat} (A x : Nat), m % q = 0 → (A + x * m) % q = A % q) ∧
    (∀ {m p q n : Nat} (A : Nat) (x : BitVec n), 0 < m → p % (m * 2 ^ n) = 0 → A / m % 2 ^ n = 0 →
      (A + x.toNat * m) / p % q = A / p % q) ∧
    (∀ {p q n : Nat} (A : Nat) (x : BitVec n), p % 2 ^ n = 0 → A % 2 ^ n = 0 →
      (A + x.toNat) / p % q = A / p % q) ∧
    (∀ {m n N : Nat} (A : Nat) (x : BitVec n), N = 2 ^ n → 0 < m → A / m % N = 0 →
      (A + x.toNat * m) / m % N = x.toNat) ∧
    (∀ {n N : Nat} (A : Nat) (x : BitVec n), N = 2 ^ n → A % N = 0 → (A + x.toNat) % N = x.toNat) :=
  ⟨add_mul_div_mod_of_above, add_mul_mod_of_above, add_toNat_mul_div_mod_of_below, add_toNat_div_mod_of_below,
    add_toNat_mul_div_mod_self, add_toNat_mod_self⟩

/-! ### The two immediates cut in two (R113, R114) -/

/-- LDHI (`k = 0`) and ADDPC (`k = 1`): the immediate is [4:0]:[31:17]. -/
theorem fld_of_imm20 {w k : Nat} (i : BitVec 20) (d : BitVec 5) (hk : k < 2)
    (hw : w = 0x8800 + k * 0x10000 + i.toNat / 0x8000 + i.toNat % 0x8000 * 0x20000 + d.toNat * 0x20) :
    fld w 14 10 = 2 ∧ fld w 16 16 = k ∧ fld w 9 5 = d.toNat ∧ fld w 4 0 * 0x8000 + fld w 31 17 = i.toNat ∧
      w / 0x8000 % 2 = 1 := by
  have hd := d.isLt
  obtain ⟨hu, hv⟩ : i.toNat / 0x8000 < 32 ∧ i.toNat % 0x8000 < 0x8000 := by have := i.isLt; omega
  rw [← Nat.div_add_mod i.toNat 0x8000]
  generalize i.toNat / 0x8000 = u at *
  generalize i.toNat % 0x8000 = v at *
  simp only [fld, Nat.reducePow, Nat.reduceAdd, Nat.reduceSub]
  omega

/-- JAL: the immediate is [4:0]:[31:16]. -/
theorem fld_of_imm21 {w : Nat} (i : BitVec 21) (d : BitVec 5)
    (hw : w = 0x9400 + i.toNat / 0x10000 + i.toNat % 0x10000 * 0x10000 + d.toNat * 0x20) :
    fld w 14 10 = 5 ∧ fld w 9 5 = d.toNat ∧ fld w 4 0 * 0x10000 + fld w 31 16 = i.toNat ∧
      w / 0x8000 % 2 = 1 := by
  have hd := d.isLt
  obtain ⟨hu, hv⟩ : i.toNat / 0x10000 < 32 ∧ i.toNat % 0x10000 < 0x10000 := by have := i.isLt; omega
  rw [← Nat.div_add_mod i.toNat 0x10000]
  generalize i.toNat / 0x10000 = u at *
  generalize i.toNat % 0x10000 = v at *
  simp only [fld, Nat.reducePow, Nat.reduceAdd, Nat.reduceSub]
  omega

/-! ### From the encoding back to the instruction -/

theorem checked_of_wf {i : Instr} (h : i.wf = true) : checked i = .ok i := by rw [checked, if_pos h]

/-- Rows `lo` to `hi - 1` of the opcode table, which the constructors follow in order. -/
def Instr.rowIn (i : Instr) (lo hi : Nat) : Bool := decide (lo ≤ i.ctorIdx ∧ i.ctorIdx < hi)

/-- Majors 0x00 to 0x06: integer instructions, branches and jumps. -/
theorem decode32_encodeWord_integer {i : Instr} {w : Nat} (hrow : i.rowIn 0 51 = true) (hwf : i.wf = true)
    (h : encodeWord i = some (32, w)) : decode32 w = .ok i := by
  cases i
  case ldhi i d =>
    obtain ⟨hM, hk, hd, hi, -⟩ := fld_of_imm20 (w := w) (k := 0) i d (by omega) (by cases h; omega)
    simpa only [decode32, hM, decMajor02, hk, hd, hi, BitVec.ofNat_toNat, BitVec.setWidth_eq, ↓reduceIte] using
      checked_of_wf hwf
  case addpc i d =>
    obtain ⟨hM, hk, hd, hi, -⟩ := fld_of_imm20 (w := w) (k := 1) i d (by omega) (by cases h; omega)
    simpa only [decode32, hM, decMajor02, hk, hd, hi, BitVec.ofNat_toNat, BitVec.setWidth_eq, ↓reduceIte,
      Nat.one_ne_zero] using checked_of_wf hwf
  case jal i d =>
    obtain ⟨hM, hd, hi, -⟩ := fld_of_imm21 (w := w) i d (by cases h; rfl)
    simpa only [decode32, hM, decMajor05, hd, hi, BitVec.ofNat_toNat, BitVec.setWidth_eq, ↓reduceIte] using
      checked_of_wf hwf
  all_goals
    cases hrow <;> cases h <;> (
      simp only [decode32, fld, field_read, Nat.reducePow, Nat.reduceMul, Nat.reduceSub, Nat.reduceAdd, Nat.reduceDiv,
        Nat.reduceMod, Nat.reduceLT]
      simp only [decMajor00, decMajor01, decMajor03, decMajor04, decMajor06, fld, field_read, add_mul_div_mod_eq_iff,
        Nat.div_one, Nat.reducePow, Nat.reduceMul, Nat.reduceSub, Nat.reduceAdd, Nat.reduceDiv, Nat.reduceMod,
        Nat.reduceLT, Nat.reduceEqDiff, BitVec.ofNat_toNat, BitVec.setWidth_eq, false_and, ↓reduceIte]
      exact checked_of_wf hwf)

/-- Majors 0x07 to 0x0C: accesses, extension moves, system and vector configuration. -/
theorem decode32_encodeWord_access {i : Instr} {w : Nat} (hrow : i.rowIn 51 101 = true) (hwf : i.wf = true)
    (h : encodeWord i = some (32, w)) : decode32 w = .ok i := by
  cases i
  all_goals
    cases hrow <;> cases h <;> (
      simp only [decode32, fld, field_read, Nat.reducePow, Nat.reduceMul, Nat.reduceSub, Nat.reduceAdd, Nat.reduceDiv,
        Nat.reduceMod, Nat.reduceLT]
      simp only [decMajor07, decMajor08, decMajor09, decMajor0A, decMajor0B, decMajor0C, fld, field_read,
        add_mul_div_mod_eq_iff, add_toNat_mul_div_mod_eq_iff, Nat.div_one, Nat.reducePow, Nat.reduceMul,
        Nat.reduceSub, Nat.reduceAdd, Nat.reduceDiv, Nat.reduceMod, Nat.reduceLT, Nat.reduceEqDiff,
        BitVec.ofNat_toNat, BitVec.setWidth_eq, and_false, false_and, and_true, true_and, and_self, ↓reduceIte]
      exact checked_of_wf hwf)

/-- Majors 0x0D and 0x0E: vector arithmetic. -/
theorem decode32_encodeWord_vectorArithmetic {i : Instr} {w : Nat} (hrow : i.rowIn 101 134 = true) (hwf : i.wf = true)
    (h : encodeWord i = some (32, w)) : decode32 w = .ok i := by
  cases i
  all_goals
    cases hrow <;> cases h <;> (
      simp only [decode32, fld, field_read, Nat.reducePow, Nat.reduceMul, Nat.reduceSub, Nat.reduceAdd, Nat.reduceDiv,
        Nat.reduceMod, Nat.reduceLT]
      simp only [decMajor0D, decMajor0E, fld, field_read, add_toNat_mul_div_mod_eq_iff, Nat.div_one, Nat.reducePow,
        Nat.reduceMul, Nat.reduceSub, Nat.reduceAdd, Nat.reduceDiv, Nat.reduceMod, Nat.reduceLT, Nat.reduceEqDiff,
        BitVec.ofNat_toNat, BitVec.setWidth_eq, and_false, and_self, ↓reduceIte]
      exact checked_of_wf hwf)

/-- Majors 0x0F and 0x10: comparisons, masks, permutations and reductions. -/
theorem decode32_encodeWord_vectorCompare {i : Instr} {w : Nat} (hrow : i.rowIn 134 174 = true) (hwf : i.wf = true)
    (h : encodeWord i = some (32, w)) : decode32 w = .ok i := by
  cases i
  all_goals
    cases hrow <;> cases h <;> (
      simp only [decode32, fld, field_read, Nat.reducePow, Nat.reduceMul, Nat.reduceSub, Nat.reduceAdd, Nat.reduceDiv,
        Nat.reduceMod, Nat.reduceLT]
      simp only [decMajor0F, decMajor10, fld, field_read, add_mul_div_mod_eq_iff, add_toNat_mul_div_mod_eq_iff,
        Nat.div_one, Nat.reducePow, Nat.reduceMul, Nat.reduceSub, Nat.reduceAdd, Nat.reduceDiv, Nat.reduceMod,
        Nat.reduceLT, Nat.reduceEqDiff, BitVec.ofNat_toNat, BitVec.setWidth_eq, and_false, false_and, and_true,
        true_and, and_self, ↓reduceIte]
      exact checked_of_wf hwf)

/-- Majors 0x11 to 0x15: conversions, vector memory, matrix and copies. -/
theorem decode32_encodeWord_vectorMemory {i : Instr} {w : Nat} (hrow : i.rowIn 174 203 = true) (hwf : i.wf = true)
    (h : encodeWord i = some (32, w)) : decode32 w = .ok i := by
  cases i
  all_goals
    cases hrow <;> cases h <;> (
      simp only [decode32, fld, field_read, Nat.reducePow, Nat.reduceMul, Nat.reduceSub, Nat.reduceAdd, Nat.reduceDiv,
        Nat.reduceMod, Nat.reduceLT]
      simp only [decMajor11, decMajor12, decMajor13, decMajor14, decMajor15, fld, field_read, add_mul_div_mod_eq_iff,
        add_toNat_mul_div_mod_eq_iff, Nat.div_one, Nat.reducePow, Nat.reduceMul, Nat.reduceSub, Nat.reduceAdd,
        Nat.reduceDiv, Nat.reduceMod, Nat.reduceLT, Nat.reduceEqDiff, BitVec.ofNat_toNat, BitVec.setWidth_eq,
        and_false, false_and, and_true, true_and, and_self, ↓reduceIte]
      exact checked_of_wf hwf)

/-- Majors 0x16 to 0x1F: channels, errands, reels, sync words, trace, scheduling and hints. -/
theorem decode32_encodeWord_communication {i : Instr} {w : Nat} (hrow : i.rowIn 203 247 = true) (hwf : i.wf = true)
    (h : encodeWord i = some (32, w)) : decode32 w = .ok i := by
  cases i
  case hint i j =>
    have hne : ¬(i.toNat = 0 ∧ j.toNat = 0) := by
      rintro ⟨hi, hj⟩
      rw [BitVec.eq_of_toNat_eq (y := 0#16) hi, BitVec.eq_of_toNat_eq (y := 0#10) hj] at hwf
      cases hwf
    cases h
    simp only [decode32, fld, field_read, Nat.reducePow, Nat.reduceMul, Nat.reduceSub, Nat.reduceAdd, Nat.reduceDiv,
      Nat.reduceMod]
    simp only [decMajor1F, hne, fld, field_read, Nat.div_one, Nat.reducePow, Nat.reduceSub, Nat.reduceAdd,
      Nat.reduceDiv, Nat.reduceMod, Nat.reduceLT, BitVec.ofNat_toNat, BitVec.setWidth_eq, ↓reduceIte]
    exact checked_of_wf hwf
  all_goals
    cases hrow <;> cases h <;> (
      simp only [decode32, fld, field_read, Nat.reducePow, Nat.reduceMul, Nat.reduceSub, Nat.reduceAdd, Nat.reduceDiv,
        Nat.reduceMod, Nat.reduceLT]
      simp only [decMajor16, decMajor17, decMajor18, decMajor19, decMajor1A, decMajor1B, decMajor1F, fld, field_read,
        add_mul_div_mod_eq_iff, add_toNat_mul_div_mod_eq_iff, Nat.div_one, Nat.reducePow, Nat.reduceMul,
        Nat.reduceSub, Nat.reduceAdd, Nat.reduceDiv, Nat.reduceMod, Nat.reduceLT, Nat.reduceEqDiff,
        BitVec.ofNat_toNat, BitVec.setWidth_eq, and_false, false_and, and_true, true_and, and_self, ↓reduceIte]
      exact checked_of_wf hwf)

/-- The rows after the hints: the 16-bit instructions and the events. -/
theorem encodeWord_ne_of_row {i : Instr} {w : Nat} (hrow : decide (247 ≤ i.ctorIdx) = true) :
    encodeWord i ≠ some (32, w) := by
  intro h
  cases i <;> cases hrow <;> cases h

/-- R113, R120: the word of a well-formed 32-bit instruction decodes to it. -/
theorem decode32_encodeWord {i : Instr} {w : Nat} (hwf : i.wf = true) (h : encodeWord i = some (32, w)) :
    decode32 w = .ok i := by
  obtain hr | hr | hr | hr | hr | hr | hr : i.rowIn 0 51 = true ∨ i.rowIn 51 101 = true ∨ i.rowIn 101 134 = true ∨
      i.rowIn 134 174 = true ∨ i.rowIn 174 203 = true ∨ i.rowIn 203 247 = true ∨ decide (247 ≤ i.ctorIdx) = true := by
    simp only [Instr.rowIn, decide_eq_true_eq]
    omega
  · exact decode32_encodeWord_integer hr hwf h
  · exact decode32_encodeWord_access hr hwf h
  · exact decode32_encodeWord_vectorArithmetic hr hwf h
  · exact decode32_encodeWord_vectorCompare hr hwf h
  · exact decode32_encodeWord_vectorMemory hr hwf h
  · exact decode32_encodeWord_communication hr hwf h
  · exact absurd h (encodeWord_ne_of_row hr)

/-- R109: the length bit of a 32-bit instruction's word is 1. -/
theorem bit15_of_encodeWord {i : Instr} {w : Nat} (h : encodeWord i = some (32, w)) : w / 0x8000 % 2 = 1 := by
  cases i
  case ldhi i d =>
    obtain ⟨-, -, -, -, hbit⟩ := fld_of_imm20 (w := w) (k := 0) i d (by omega) (by cases h; omega)
    exact hbit
  case addpc i d =>
    obtain ⟨-, -, -, -, hbit⟩ := fld_of_imm20 (w := w) (k := 1) i d (by omega) (by cases h; omega)
    exact hbit
  case jal i d =>
    obtain ⟨-, -, -, hbit⟩ := fld_of_imm21 (w := w) i d (by cases h; rfl)
    exact hbit
  all_goals
    cases h <;>
    simp only [field_read, Nat.reducePow, Nat.reduceMul, Nat.reduceDiv, Nat.reduceMod, Nat.reduceLT]

/-- R117: the word of a 16-bit instruction decodes to it, and its length bit is 0. -/
theorem decode16_encodeWord {i : Instr} {w : Nat} (hwf : i.wf = true) (h : encodeWord i = some (16, w)) :
    w < 0x8000 ∧ decode16 w = .ok i := by
  cases i <;> cases h
  all_goals
    refine ⟨by omega, ?_⟩
    simp only [decode16, fld, field_read, Nat.div_one, Nat.reducePow, Nat.reduceMul, Nat.reduceSub, Nat.reduceAdd,
      Nat.reduceDiv, Nat.reduceMod, Nat.reduceLT, BitVec.ofNat_toNat, BitVec.setWidth_eq, and_self, ↓reduceIte]
    exact checked_of_wf hwf

theorem length_of_encodeWord {i : Instr} {n w : Nat} (h : encodeWord i = some (n, w)) : n = 16 ∨ n = 32 := by
  cases i <;> cases h <;> decide

/-! ### A word past its 32 bits -/

theorem fld_mod {w hi lo : Nat} (h : hi < 32) : fld (w % 2 ^ 32) hi lo = fld w hi lo := by
  simp only [fld]
  rcases Nat.lt_or_ge hi lo with hl | hl
  · simp [show hi + 1 - lo = 0 by omega, Nat.mod_one]
  · have e : 2 ^ 32 = 2 ^ lo * (2 ^ (hi + 1 - lo) * 2 ^ (31 - hi)) := by
      rw [← Nat.pow_add, ← Nat.pow_add]; congr 1; omega
    rw [e, Nat.mod_mul_right_div_self, Nat.mod_mul_right_mod]

theorem decode32_mod (w : Nat) : decode32 (w % 2 ^ 32) = decode32 w := by
  simp only [decode32, decMajor00, decMajor01, decMajor02, decMajor03, decMajor04, decMajor05, decMajor06, decMajor07,
    decMajor08, decMajor09, decMajor0A, decMajor0B, decMajor0C, decMajor0D, decMajor0E, decMajor0F, decMajor10,
    decMajor11, decMajor12, decMajor13, decMajor14, decMajor15, decMajor16, decMajor17, decMajor18, decMajor19,
    decMajor1A, decMajor1B, decMajor1F, fld_mod, Nat.reduceLT]

/-- The halfwords of a word, put together again. -/
theorem decode_word {w : Nat} {i : Instr} (rest : List (BitVec 16)) (hbit : w / 0x8000 % 2 = 1)
    (h : decode32 w = .ok i) :
    decode (BitVec.ofNat 16 w :: BitVec.ofNat 16 (w / 65536) :: rest) = .ok (i, 4) := by
  have hlow : ¬ w % 2 ^ 16 < 0x8000 := by omega
  have hword : w % 2 ^ 16 + w / 65536 % 2 ^ 16 * 65536 = w % 2 ^ 32 := by omega
  simp only [decode, BitVec.toNat_ofNat, if_neg hlow, hword, decode32_mod, h]

theorem decode_halfword {w : Nat} {i : Instr} (rest : List (BitVec 16)) (hbit : w < 0x8000) (h : decode16 w = .ok i) :
    decode (BitVec.ofNat 16 w :: rest) = .ok (i, 2) := by
  have hw : w % 2 ^ 16 = w := by omega
  simp only [decode, BitVec.toNat_ofNat, hw, if_pos hbit, h]

theorem decode_encode (i : Instr) (rest : List (BitVec 16)) (hwf : i.wf = true) (he : i.isEvent = false) :
    decode (encode i ++ rest) = .ok (i, i.length) := by
  obtain ⟨⟨n, w⟩, h⟩ : ∃ p, encodeWord i = some p := Option.isSome_iff_exists.1 (by simpa [Instr.isEvent] using he)
  obtain rfl | rfl := length_of_encodeWord h
  · obtain ⟨hbit, hd⟩ := decode16_encodeWord hwf h
    simpa [encode, Instr.length, h] using decode_halfword rest hbit hd
  · simpa [encode, Instr.length, h] using decode_word rest (bit15_of_encodeWord h) (decode32_encodeWord hwf h)

/-! ### What the decoder gives -/

/-- What a decoder of a major, or the whole decoder, may give: an instruction that is well formed and of the table. -/
def GivesEncoded (r : Except DecodeError Instr) : Prop := ∀ i, r = .ok i → i.wf = true ∧ i.isEvent = false

theorem givesEncoded_error (e : DecodeError) : GivesEncoded (.error e) := fun _ h => nomatch h

theorem givesEncoded_checked {i : Instr} (hi : i.isEvent = false) : GivesEncoded (checked i) := by
  intro j h
  unfold checked at h
  split at h
  case isTrue hwf => cases h; exact ⟨hwf, hi⟩
  case isFalse => cases h

theorem givesEncoded_ite {c : Prop} [Decidable c] {a b : Except DecodeError Instr} (ha : GivesEncoded a)
    (hb : GivesEncoded b) :
    GivesEncoded (if c then a else b) := by
  split
  · exact ha
  · exact hb

theorem givesEncoded_decode16 (w : Nat) : GivesEncoded (decode16 w) := by
  unfold decode16
  split
  all_goals repeat' with_reducible apply givesEncoded_ite
  -- each leaf is an error or a checked instruction
  all_goals first | exact givesEncoded_error _ | (apply givesEncoded_checked; rfl)

theorem givesEncoded_decode32 (w : Nat) : GivesEncoded (decode32 w) := by
  unfold decode32
  split
  case h_30 => exact givesEncoded_error _
  all_goals
    delta decMajor00 decMajor01 decMajor02 decMajor03 decMajor04 decMajor05 decMajor06 decMajor07 decMajor08
        decMajor09 decMajor0A decMajor0B decMajor0C decMajor0D decMajor0E decMajor0F decMajor10 decMajor11 decMajor12
        decMajor13 decMajor14 decMajor15 decMajor16 decMajor17 decMajor18 decMajor19 decMajor1A decMajor1B decMajor1F
    repeat' with_reducible apply givesEncoded_ite
  -- each leaf is an error or a checked instruction
  all_goals first | exact givesEncoded_error _ | (apply givesEncoded_checked; rfl)

theorem decode_wellFormed (h : BitVec 16) (r : List (BitVec 16)) (i : Instr) (n : Nat)
    (hd : decode (h :: r) = .ok (i, n)) :
    i.wf = true ∧ i.isEvent = false ∧ n = if h.getLsbD 15 then 4 else 2 := by
  have hbit : h.getLsbD 15 = decide (0x8000 ≤ h.toNat) := by
    have := h.isLt
    simp only [BitVec.getLsbD, Nat.testBit_eq_decide_div_mod_eq, decide_eq_decide]
    omega
  rw [decode.eq_def] at hd
  dsimp only at hd
  split at hd
  case isTrue hs =>
    split at hd
    case h_1 j hj =>
      cases hd
      obtain ⟨hwf, he⟩ := givesEncoded_decode16 _ _ hj
      exact ⟨hwf, he, by rw [hbit, if_neg (by simpa using hs)]⟩
    case h_2 => cases hd
  case isFalse hs =>
    split at hd
    case h_1 => cases hd
    case h_2 =>
      split at hd
      case h_1 j hj =>
        cases hd
        obtain ⟨hwf, he⟩ := givesEncoded_decode32 _ _ hj
        exact ⟨hwf, he, by rw [hbit, if_pos (by simpa using hs)]⟩
      case h_2 => cases hd

/-- Settles O56: row by row, the decoder computed on the instruction's word gives the instruction back; and each arm of
the decoder keeps only well-formed instructions of the table. -/
theorem encoding : Obligations.Encoding :=
  ⟨decode_encode, decode_wellFormed⟩

end Sys2Proof
end

section
/-!
The words of the encoding that the manual spells out.
-/
namespace Sys2Proof

/-- Settles O55: the decoder is evaluated at each word. -/
theorem spelledWords : Obligations.SpelledWords := by
  refine ⟨?_, ?_, ?_, ?_, ?_, ?_, ?_, ?_, ?_, ?_, ?_⟩ <;> rfl

end Sys2Proof
end

section
/-!
PROOF RULES. How an instruction of the running slot ends: a body that goes on, and the shapes of the scalar
instructions without a windowed operand.
-/
namespace Sys2Proof.Machine

theorem runBody_next {s t : State} {b : Body} (hs : Ready s) (hb : b s = .ok t) (hrun : t.me.run = .running) :
    runBody s b = .next (t.updMe fun x => { x with wait := none }) :=
  runBody_ok s t b hs.1 hb (by rw [hrun]; decide) (by rw [hrun]; decide)

@[simp] theorem State.me_adv (s : State) (len : Nat) : (s.adv len).me =
    { s.me with pc := s.me.pc + BitVec.ofNat 64 len } := by
  simp [State.adv]

@[simp] theorem Slot.run_setE (x : Slot) (d : BitVec 3) (v : Word) : (x.setE d v).run = x.run := rfl

theorem adv_done (s : State) (len : Nat) : (s.adv len).updMe (fun x => { x with wait := none }) = s.ended len id := by
  simp [State.adv, State.ended]

theorem adv_setG_done (s : State) (len : Nat) (d : BitVec 5) (v : Word) :
    ((s.adv len).setG d v).updMe (fun x => { x with wait := none }) = s.ended len fun x => x.setG d v := by
  simp only [State.adv, State.setG, State.ended, State.updMe_updMe]
  congr 1
  funext x
  unfold Slot.setG
  split <;> rfl

theorem adv_setE_done (s : State) (len : Nat) (d : BitVec 3) (v : Word) :
    ((s.adv len).updMe fun x => x.setE d v).updMe (fun x => { x with wait := none }) =
      s.ended len fun x => x.setE d v := by
  simp only [State.adv, State.ended, State.updMe_updMe]
  rfl

/-- A body that only goes on. -/
theorem runBody_adv {s : State} {b : Body} {len : Nat} (hs : Ready s) (hb : b s = .ok (s.adv len)) :
    runBody s b = .next (s.ended len id) := by
  rw [runBody_next hs hb (by simpa using hs.2), adv_done]

/-- A body that writes an `e` register and goes on. -/
theorem runBody_setE {s : State} {b : Body} {len : Nat} {d : BitVec 3} {v : Word} (hs : Ready s)
    (hb : b s = .ok ((s.adv len).updMe fun x => x.setE d v)) :
    runBody s b = .next (s.ended len fun x => x.setE d v) := by
  rw [runBody_next hs hb (by simpa using hs.2), adv_setE_done]

/-- An operation without a windowed operand that goes on and writes a value to `d`. -/
theorem runBody_scalarOp {s : State} {reads : List (BitVec 5)} {d : BitVec 5} {len : Nat} {v : Word} {p : Bool}
    {f : State → List Word → Except Stop (State × Word × Bool)} (hs : Ready s) (hp : Plain s (reads ++ [d]))
    (hf : f s (reads.map s.g) = .ok (s.adv len, v, p)) :
    runBody s (scalarOp reads (some d) f) = .next (s.ended len fun x => x.setG d v) := by
  have hb : scalarOp reads (some d) f s = .ok ((s.adv len).setG d v) := by
    rw [scalarOp_plain reads (some d) f s (fun n hn => hp n (by simp [hn])) (fun n hn => hp n (by simp_all)), hf]
    rfl
  rw [runBody_next hs hb (by simpa [State.setG] using hs.2), adv_setG_done]

theorem runBody_aluRR {s : State} {len : Nat} {d a t : BitVec 5} {f : Word → Word → Word} {v : Word} (hs : Ready s)
    (hp : Plain s [a, t, d]) (hv : f (s.g a) (s.g t) = v) :
    runBody s (aluRR len d a t f) = .next (s.ended len fun x => x.setG d v) :=
  runBody_scalarOp (reads := [a, t]) hs hp (by rw [← hv]; rfl)

theorem runBody_aluR {s : State} {len : Nat} {d a : BitVec 5} {f : Word → Word} {v : Word} (hs : Ready s)
    (hp : Plain s [a, d]) (hv : f (s.g a) = v) :
    runBody s (aluR len d a f) = .next (s.ended len fun x => x.setG d v) :=
  runBody_scalarOp (reads := [a]) hs hp (by rw [← hv]; rfl)

theorem runBody_upper {s : State} {len : Nat} {d : BitVec 5} {f : Word → Word} {v : Word} (hs : Ready s)
    (hp : Plain s [d]) (hv : f s.me.pc = v) :
    runBody s (upper len d f) = .next (s.ended len fun x => x.setG d v) :=
  runBody_scalarOp (reads := []) hs hp (by rw [← hv])

end Sys2Proof.Machine
end

section
/-!
The values of the scalar operations (04_scalar_registers.md R157-R162), in the numbers their tables speak of.
-/
namespace Sys2Proof.Machine

theorem sub_eq_ofInt (x y : Word) : x - y = BitVec.ofInt 64 (x.toInt - y.toInt) := by
  rw [Int.sub_eq_add_neg, BitVec.ofInt_add, BitVec.ofInt_neg, BitVec.ofInt_toInt, BitVec.ofInt_toInt,
    BitVec.sub_eq_add_neg]

theorem shiftLeft_eq_ofNat (x : Word) (n : Nat) : x <<< n = BitVec.ofNat 64 (x.toNat * 2 ^ n) := by
  apply BitVec.eq_of_toNat_eq
  rw [BitVec.toNat_shiftLeft, Nat.shiftLeft_eq, BitVec.toNat_ofNat]

theorem ushiftRight_eq_ofNat (x : Word) (n : Nat) : x >>> n = BitVec.ofNat 64 (x.toNat / 2 ^ n) := by
  rw [← Nat.shiftRight_eq_div_pow, ← BitVec.toNat_ushiftRight, BitVec.ofNat_toNat, BitVec.setWidth_eq]

theorem sshiftRight_eq_ofInt (x : Word) (n : Nat) : x.sshiftRight n = BitVec.ofInt 64 (x.toInt / 2 ^ n) := by
  rw [← BitVec.ofInt_toInt (x := x.sshiftRight n), BitVec.toInt_sshiftRight, Int.shiftRight_eq_div_pow]
  norm_cast

theorem aluSlt_eq (x y : Word) : aluSlt x y = if x.toInt < y.toInt then 1 else 0 := by
  simp [aluSlt, b2w, BitVec.slt_eq_decide]

theorem aluSltu_eq (x y : Word) : aluSltu x y = if x.toNat < y.toNat then 1 else 0 := by
  simp [aluSltu, b2w, BitVec.ult_eq_decide]

theorem aluMin_eq (x y : Word) : aluMin x y = BitVec.ofInt 64 (Min.min x.toInt y.toInt) := by
  rw [aluMin, BitVec.slt_eq_decide]
  by_cases h : x.toInt < y.toInt
  · rw [min_eq_left h.le, BitVec.ofInt_toInt]; simp [h]
  · rw [min_eq_right (by omega), BitVec.ofInt_toInt]; simp [h]

theorem aluMax_eq (x y : Word) : aluMax x y = BitVec.ofInt 64 (Max.max x.toInt y.toInt) := by
  rw [aluMax, BitVec.slt_eq_decide]
  by_cases h : x.toInt < y.toInt
  · rw [max_eq_right h.le, BitVec.ofInt_toInt]; simp [h]
  · rw [max_eq_left (by omega), BitVec.ofInt_toInt]; simp [h]

theorem aluMinu_eq (x y : Word) : aluMinu x y = BitVec.ofNat 64 (Min.min x.toNat y.toNat) := by
  rw [aluMinu, BitVec.ult_eq_decide]
  by_cases h : x.toNat < y.toNat
  · rw [min_eq_left h.le]; simp [h]
  · rw [min_eq_right (by omega)]; simp [h]

theorem aluMaxu_eq (x y : Word) : aluMaxu x y = BitVec.ofNat 64 (Max.max x.toNat y.toNat) := by
  rw [aluMaxu, BitVec.ult_eq_decide]
  by_cases h : x.toNat < y.toNat
  · rw [max_eq_right h.le]; simp [h]
  · rw [max_eq_left (by omega)]; simp [h]

theorem rotateLeft_eq (x : Word) (n : Nat) (h : n < 64) : x.rotateLeft n = x <<< n ||| x >>> (64 - n) := by
  rw [BitVec.rotateLeft_def, Nat.mod_eq_of_lt h]

theorem rotateRight_eq (x : Word) (n : Nat) (h : n < 64) : x.rotateRight n = x >>> n ||| x <<< (64 - n) := by
  rw [BitVec.rotateRight_def, Nat.mod_eq_of_lt h]

theorem mulHigh_eq_ofNat (a b : Nat) : mulHigh a b = BitVec.ofNat 64 (a * b / 2 ^ 64) := by
  rw [mulHigh, word, ← BitVec.ofInt_natCast]
  congr 1

theorem aluDivu_eq (x y : Word) :
    aluDivu x y = if y = 0 then 0xFFFFFFFFFFFFFFFF else BitVec.ofNat 64 (x.toNat / y.toNat) := by
  rw [aluDivu, ← BitVec.toNat_udiv, BitVec.ofNat_toNat, BitVec.setWidth_eq]
  rfl

theorem aluRemu_eq (x y : Word) : aluRemu x y = if y = 0 then x else BitVec.ofNat 64 (x.toNat % y.toNat) := by
  rw [aluRemu, ← BitVec.toNat_umod, BitVec.ofNat_toNat, BitVec.setWidth_eq]

theorem tdiv_le_of_not_overflow (x y : Word) (h : ¬(x = BitVec.ofNat 64 (2 ^ 63) ∧ y = BitVec.allOnes 64)) :
    Int.tdiv x.toInt y.toInt ≤ 2 ^ 63 - 1 := by
  have hne : x ≠ BitVec.intMin 64 ∨ y ≠ -1#64 := by
    by_contra hc
    push Not at hc
    exact h hc
  rw [← BitVec.toInt_sdiv_of_ne_or_ne x y hne]
  have := BitVec.toInt_lt (x := x.sdiv y)
  omega

theorem aluDiv_eq (x y : Word) : aluDiv x y =
    if y = 0 then (if 0 ≤ x.toInt then 0x7FFFFFFFFFFFFFFF else 0x8000000000000000)
    else BitVec.ofInt 64 (Min.min (Int.tdiv x.toInt y.toInt) (2 ^ 63 - 1)) := by
  unfold aluDiv
  split
  · rcases lt_or_ge x.toInt 0 with h | h
    · rw [if_pos h, if_neg (by omega)]; rfl
    · rw [if_neg (by omega), if_pos h]; rfl
  · split
    case isTrue h =>
      obtain ⟨rfl, rfl⟩ := h
      decide
    case isFalse h => rw [min_eq_left (tdiv_le_of_not_overflow x y h)]; rfl

theorem aluRem_eq (x y : Word) : aluRem x y = if y = 0 then x else BitVec.ofInt 64 (Int.tmod x.toInt y.toInt) := by
  unfold aluRem
  split
  · rfl
  · split
    case isTrue h =>
      obtain ⟨rfl, rfl⟩ := h
      decide
    case isFalse => rfl

theorem clzGo_eq (x : Word) (n : Nat) (h : x.toNat < 2 ^ n) :
    clzGo x n = if x = 0 then n else n - 1 - x.toNat.log2 := by
  induction n with
  | zero =>
    have hx : x = 0 := BitVec.eq_of_toNat_eq (by simpa using h)
    simp [clzGo, hx]
  | succ n ih =>
    rw [clzGo, BitVec.getLsbD]
    by_cases hb : x.toNat.testBit n
    · have hge : 2 ^ n ≤ x.toNat := Nat.ge_two_pow_of_testBit hb
      have hne : x.toNat ≠ 0 := fun e => by rw [e] at hb; simp at hb
      have hlog : x.toNat.log2 = n := (Nat.log2_eq_iff hne).2 ⟨hge, h⟩
      rw [if_pos hb, if_neg fun e => hne (by rw [e]; rfl), hlog]
      omega
    · have hlt : x.toNat < 2 ^ n := Nat.lt_of_not_ge fun hge =>
        hb (Nat.testBit_of_two_pow_le_and_two_pow_add_one_gt hge h)
      rw [if_neg hb, ih hlt]
      split
      case isTrue => rfl
      case isFalse hx =>
        have := (Nat.log2_lt fun e => hx (BitVec.eq_of_toNat_eq e)).2 hlt
        omega

theorem aluClz_eq (x : Word) : aluClz x = BitVec.ofNat 64 (if x = 0 then 64 else 63 - x.toNat.log2) := by
  rw [aluClz, clzGo_eq x 64 x.isLt]

theorem ctzGo_eq (x : Word) (n : Nat) (h : n ≤ 64) :
    ctzGo x n + (64 - n) = ((List.range' (64 - n) n).find? fun i => x.getLsbD i).getD 64 := by
  induction n with
  | zero => simp [ctzGo]
  | succ n ih =>
    have e : 64 - (n + 1) = 63 - n := by omega
    have e' : 63 - n + 1 = 64 - n := by omega
    rw [ctzGo, List.range'_succ, List.find?_cons, e, e']
    cases hb : x.getLsbD (63 - n)
    · simp only [Bool.false_eq_true, ↓reduceIte, ← ih (by omega)]
      omega
    · simp

theorem aluCtz_eq (x : Word) :
    aluCtz x = BitVec.ofNat 64 (((List.range 64).find? fun n => x.getLsbD n).getD 64) := by
  rw [aluCtz, List.range_eq_range', show List.range' 0 64 = List.range' (64 - 64) 64 from rfl, ← ctzGo_eq x 64 le_rfl]
  rfl

theorem countOnes_eq (n m : Nat) : countOnes n m = (List.range n).countP fun i => m.testBit i := by
  induction n generalizing m with
  | zero => rfl
  | succ n ih =>
    have hrest : (fun i => m.testBit i) ∘ Nat.succ = fun i => (m / 2).testBit i :=
      funext fun i => Nat.testBit_succ m i
    rw [countOnes, ih, List.range_succ_eq_map, List.countP_cons, List.countP_map, hrest, Nat.testBit_zero]
    rcases Nat.mod_two_eq_zero_or_one m with h | h <;> simp [h]

theorem aluPopc_eq (x : Word) : aluPopc x = BitVec.ofNat 64 ((List.range 64).countP fun n => x.getLsbD n) := by
  rw [aluPopc, countOnes_eq]; rfl

theorem toNat_append_eq {m n : Nat} (x : BitVec m) (y : BitVec n) : (x ++ y).toNat = x.toNat * 2 ^ n + y.toNat := by
  rw [BitVec.toNat_append, ← Nat.shiftLeft_add_eq_or_of_lt y.isLt, Nat.shiftLeft_eq]

/-- Eight bytes as a number, from either end; it fits 64 bits. -/
theorem horner_mod {a b c d e f g h : Nat} (ha : a < 256) (hb : b < 256) (hc : c < 256) (hd : d < 256) (he : e < 256)
    (hf : f < 256) (hg : g < 256) (hh : h < 256) :
    (h + 256 * (g + 256 * (f + 256 * (e + 256 * (d + 256 * (c + 256 * (b + 256 * (a + 0)))))))) % 18446744073709551616 =
      ((((((a * 256 + b) * 256 + c) * 256 + d) * 256 + e) * 256 + f) * 256 + g) * 256 + h := by
  omega

theorem aluRev8_eq (x : Word) : aluRev8 x =
      x.extractLsb' 0 8 ++ x.extractLsb' 8 8 ++ x.extractLsb' 16 8 ++ x.extractLsb' 24 8 ++ x.extractLsb' 32 8
        ++ x.extractLsb' 40 8 ++ x.extractLsb' 48 8 ++ x.extractLsb' 56 8 := by
  apply BitVec.eq_of_toNat_eq
  simp only [aluRev8, toBytes, ofBytes, List.reverse_cons, List.reverse_nil, List.nil_append, List.cons_append,
    toNat_append_eq, BitVec.extractLsb'_toNat, Nat.shiftRight_eq_div_pow, BitVec.toNat_ofNat, Nat.div_div_eq_div_mul,
    Nat.div_one, Nat.reduceMul, Nat.reducePow]
  have hb (k : Nat) : x.toNat / k % 256 < 256 := Nat.mod_lt _ (by decide)
  exact horner_mod (Nat.mod_lt _ (by decide)) (hb _) (hb _) (hb _) (hb _) (hb _) (hb _) (hb _)

theorem signExtend_toNat {n : Nat} (hn : 0 < n) (x : Word) : signExtend x.toNat n = (x.setWidth n).toInt := by
  rw [signExtend, if_neg hn.ne', BitVec.toInt_eq_toNat_cond, BitVec.toNat_setWidth]
  have h2 : 2 ^ n = 2 * 2 ^ (n - 1) := by rw [← Nat.pow_succ', Nat.succ_eq_add_one, Nat.sub_add_cancel hn]
  split <;> split <;> omega

theorem sext_eq {n : Nat} (hn : 0 < n) (x : Word) : sext n x = (x.setWidth n).signExtend 64 := by
  rw [sext, sextWord, signExtend_toNat hn]; rfl

theorem toInt_simm {w : Nat} (hw : w ≤ 64) (i : BitVec w) : (simm i).toInt = i.toInt :=
  BitVec.toInt_signExtend_of_le hw

theorem aluSlt_simm {w : Nat} (hw : w ≤ 64) (x : Word) (i : BitVec w) :
    aluSlt x (simm i) = if x.toInt < i.toInt then 1 else 0 := by
  rw [aluSlt_eq, toInt_simm hw]

theorem add_simm {w : Nat} (x : Word) (i : BitVec w) : x + simm i = BitVec.ofInt 64 (x.toInt + i.toInt) := by
  rw [BitVec.ofInt_add, BitVec.ofInt_toInt]; rfl

theorem ofInt_shiftLeft (k : Int) (n : Nat) : BitVec.ofInt 64 k <<< n = BitVec.ofInt 64 (k * 2 ^ n) := by
  have h2 : BitVec.ofInt 64 (2 ^ n) = BitVec.twoPow 64 n := by
    rw [show (2 : Int) ^ n = ((2 ^ n : Nat) : Int) by push_cast; rfl, BitVec.ofInt_natCast]
    exact BitVec.eq_of_toNat_eq (by simp)
  rw [BitVec.ofInt_mul, h2, BitVec.shiftLeft_eq_mul_twoPow]

theorem add_simm_shiftLeft {w : Nat} (x : Word) (i : BitVec w) (n : Nat) :
    x + simm i <<< n = BitVec.ofInt 64 (x.toInt + i.toInt * 2 ^ n) := by
  rw [BitVec.ofInt_add, BitVec.ofInt_toInt, ← ofInt_shiftLeft]; rfl

end Sys2Proof.Machine
end

section
/-!
The scalar instructions, the moves to the extension registers, and the instructions that only go on.
-/
namespace Sys2Proof.Machine

theorem shamt_lt (y : Word) : shamt y < 64 := Nat.mod_lt _ (by decide)

theorem twoSourceResult : TwoSourceResult := by
  intro i len d a t f s h hs hp
  cases h with
  | add => exact runBody_aluRR hs hp (BitVec.add_def ..)
  | sub => exact runBody_aluRR hs hp (sub_eq_ofInt ..)
  | and | or | xor | andn => exact runBody_aluRR hs hp rfl
  | sll => exact runBody_aluRR hs hp (shiftLeft_eq_ofNat ..)
  | srl => exact runBody_aluRR hs hp (ushiftRight_eq_ofNat ..)
  | sra => exact runBody_aluRR hs hp (sshiftRight_eq_ofInt ..)
  | slt => exact runBody_aluRR hs hp (aluSlt_eq ..)
  | sltu => exact runBody_aluRR hs hp (aluSltu_eq ..)
  | min => exact runBody_aluRR hs hp (aluMin_eq ..)
  | max => exact runBody_aluRR hs hp (aluMax_eq ..)
  | minu => exact runBody_aluRR hs hp (aluMinu_eq ..)
  | maxu => exact runBody_aluRR hs hp (aluMaxu_eq ..)
  | rol => exact runBody_aluRR hs hp (rotateLeft_eq _ _ (shamt_lt _))
  | rotr => exact runBody_aluRR hs hp (rotateRight_eq _ _ (shamt_lt _))
  | mul => exact runBody_aluRR hs hp (BitVec.mul_def ..)
  | mulh | mulhsu => exact runBody_aluRR hs hp rfl
  | mulhu => exact runBody_aluRR hs hp (mulHigh_eq_ofNat ..)
  | divu => exact runBody_aluRR hs hp (aluDivu_eq ..)
  | div => exact runBody_aluRR hs hp (aluDiv_eq ..)
  | remu => exact runBody_aluRR hs hp (aluRemu_eq ..)
  | rem => exact runBody_aluRR hs hp (aluRem_eq ..)
  | cMv => exact runBody_aluRR hs hp (BitVec.add_zero _)
  | cAdd => exact runBody_aluRR hs hp (BitVec.add_def ..)
  | cNop => exact runBody_aluRR hs hp (BitVec.add_zero _)

theorem oneSourceResult : OneSourceResult := by
  intro i len d a f s h hs hp
  cases h with
  | clz => exact runBody_aluR hs hp (aluClz_eq _)
  | ctz => exact runBody_aluR hs hp (aluCtz_eq _)
  | popc => exact runBody_aluR hs hp (aluPopc_eq _)
  | rev8 => exact runBody_aluR hs hp (aluRev8_eq _)
  | sextB | sextH | sextW => exact runBody_aluR hs hp (sext_eq (by decide) _)
  | addi | cAddi => exact runBody_aluR hs hp (add_simm ..)
  | andi | ori | xori => exact runBody_aluR hs hp rfl
  | slti => exact runBody_aluR hs hp (aluSlt_simm (by decide) ..)
  | sltiu => exact runBody_aluR hs hp (aluSltu_eq ..)
  | slli => exact runBody_aluR hs hp (shiftLeft_eq_ofNat ..)
  | srli => exact runBody_aluR hs hp (ushiftRight_eq_ofNat ..)
  | srai => exact runBody_aluR hs hp (sshiftRight_eq_ofInt ..)

theorem noSourceResult : NoSourceResult := by
  intro i len d f s h hs hp
  cases h with
  | ldhi | cLdhi => exact runBody_upper hs hp (ofInt_shiftLeft _ 12)
  | addpc => exact runBody_upper hs hp (add_simm_shiftLeft ..)
  | oxr d a => exact runBody_scalarOp (reads := []) hs hp rfl

/-- Settles O1: every row of the three tables is an arithmetic fact about the model's operation, under the rule of its
instruction format. -/
theorem scalarResults : Obligations.ScalarResults :=
  ⟨twoSourceResult, oneSourceResult, noSourceResult⟩

/-! ### Moves to the extension registers, and instructions that only go on -/

theorem extensionMoves : ExtensionMoves := by
  intro s hs
  refine ⟨fun d a hp => ?_, fun d a => ?_⟩
  · have hr : ∀ n ∈ [a], s.me.isWin n = false := fun n hn => hp n hn
    exact runBody_setE hs (by rw [scalarOp_plain _ _ _ _ hr (by simp)]; rfl)
  · change execOxm d a s = _
    exact runBody_setE hs rfl

theorem hintsDoNothing : HintsDoNothing := fun s hs =>
  have goesOn : runBody s (fun st => .ok (st.adv 4)) = .next (s.ended 4 id) := runBody_adv hs rfl
  ⟨goesOn, fun _ _ => goesOn⟩

/-- Settles O2: the moves write one `e` register after the PC moved, and a hint's body only moves the PC. -/
theorem movesAndHints : Obligations.MovesAndHints :=
  ⟨extensionMoves, hintsDoNothing⟩

end Sys2Proof.Machine
end

section
/-!
The model's bit fields: what a field of a word reads after a field is replaced.
-/
namespace Sys2Proof.Machine

theorem two_pow_mul_add_lt {a b i j : Nat} (ha : a < 2 ^ j) (hb : b < 2 ^ i) : 2 ^ i * a + b < 2 ^ (i + j) :=
  calc 2 ^ i * a + b < 2 ^ i * (a + 1) := by rw [Nat.mul_succ]; omega
    _ ≤ 2 ^ i * 2 ^ j := Nat.mul_le_mul_left _ ha
    _ = 2 ^ (i + j) := (Nat.pow_add ..).symm

theorem toNat_setBits {w hi lo : Nat} (h : lo ≤ hi) (hw : hi < w) (x : BitVec w) (v : Nat) :
    (setBits x hi lo v).toNat =
      2 ^ lo * (2 ^ (hi + 1 - lo) * (x.toNat / 2 ^ (hi + 1)) + v % 2 ^ (hi + 1 - lo)) + x.toNat % 2 ^ lo := by
  have hsplit : 2 ^ (hi + 1) = 2 ^ lo * 2 ^ (hi + 1 - lo) := by rw [← Nat.pow_add]; congr 1; omega
  have hhigh : x.toNat / 2 ^ (hi + 1) = x.toNat / 2 ^ lo / 2 ^ (hi + 1 - lo) := by rw [hsplit, Nat.div_div_eq_div_mul]
  have hlow := Nat.div_add_mod x.toNat (2 ^ lo)
  have hmid := Nat.div_add_mod (x.toNat / 2 ^ lo) (2 ^ (hi + 1 - lo))
  have hcut : x.toNat - x.toNat / 2 ^ lo % 2 ^ (hi + 1 - lo) * 2 ^ lo =
      2 ^ lo * (2 ^ (hi + 1 - lo) * (x.toNat / 2 ^ (hi + 1))) + x.toNat % 2 ^ lo := by
    rw [hhigh]
    apply Nat.sub_eq_of_eq_add
    conv_lhs => rw [← hlow, ← hmid]
    ring
  have hlt : 2 ^ lo * (2 ^ (hi + 1 - lo) * (x.toNat / 2 ^ (hi + 1)) + v % 2 ^ (hi + 1 - lo)) + x.toNat % 2 ^ lo <
      2 ^ w := by
    have hA : x.toNat / 2 ^ (hi + 1) < 2 ^ (w - (hi + 1)) := by
      rw [Nat.div_lt_iff_lt_mul (Nat.two_pow_pos _), ← Nat.pow_add, Nat.sub_add_cancel hw]
      exact x.isLt
    have hw' : w = lo + (hi + 1 - lo + (w - (hi + 1))) := by omega
    exact lt_of_lt_of_eq (two_pow_mul_add_lt (two_pow_mul_add_lt hA (Nat.mod_lt _ (Nat.two_pow_pos _)))
      (Nat.mod_lt _ (Nat.two_pow_pos _))) (congrArg (2 ^ ·) hw'.symm)
  rw [setBits, BitVec.toNat_ofNat, hcut, Nat.mod_eq_of_lt]
  · ring
  · refine lt_of_eq_of_lt ?_ hlt
    ring

theorem getLsbD_setBits {w hi lo : Nat} (h : lo ≤ hi) (hw : hi < w) (x : BitVec w) (v i : Nat) :
    (setBits x hi lo v).getLsbD i = if lo ≤ i ∧ i ≤ hi then v.testBit (i - lo) else x.getLsbD i := by
  have hv : v % 2 ^ (hi + 1 - lo) < 2 ^ (hi + 1 - lo) := Nat.mod_lt _ (Nat.two_pow_pos _)
  have hB : x.toNat % 2 ^ lo < 2 ^ lo := Nat.mod_lt _ (Nat.two_pow_pos _)
  rw [BitVec.getLsbD, toNat_setBits h hw, Nat.testBit_two_pow_mul_add _ hB, Nat.testBit_two_pow_mul_add _ hv,
    Nat.testBit_mod_two_pow, Nat.testBit_mod_two_pow, Nat.testBit_div_two_pow, BitVec.getLsbD]
  by_cases hlo : i < lo
  · simp [hlo]
  · by_cases hhi : i ≤ hi
    · simp [hlo, hhi, show i - lo < hi + 1 - lo by omega, show lo ≤ i by omega]
    · simp [hlo, hhi, show ¬ i - lo < hi + 1 - lo by omega,
        show i - lo - (hi + 1 - lo) + (hi + 1) = i by omega]

theorem testBit_bits {w : Nat} (x : BitVec w) (hi lo j : Nat) :
    (bits x hi lo).testBit j = (decide (j < hi + 1 - lo) && x.getLsbD (lo + j)) := by
  rw [bits, Nat.testBit_mod_two_pow, Nat.testBit_div_two_pow, BitVec.getLsbD, Nat.add_comm j lo]

theorem bits_lt {w : Nat} (x : BitVec w) (hi lo : Nat) : bits x hi lo < 2 ^ (hi + 1 - lo) :=
  Nat.mod_lt _ (Nat.two_pow_pos _)

theorem bits_setBits_self {w hi lo v : Nat} (h : lo ≤ hi) (hw : hi < w) (x : BitVec w) (hv : v < 2 ^ (hi + 1 - lo)) :
    bits (setBits x hi lo v) hi lo = v := by
  refine Nat.eq_of_testBit_eq fun j => ?_
  rw [testBit_bits, getLsbD_setBits h hw]
  by_cases hj : j < hi + 1 - lo
  · simp [hj, show lo + j ≤ hi by omega]
  · have := Nat.testBit_lt_two_pow (lt_of_lt_of_le hv (Nat.pow_le_pow_right (by decide) (Nat.le_of_not_lt hj)))
    simp [hj, this]

theorem bits_setBits_of_disjoint {w hi lo hi' lo' : Nat} (h : lo ≤ hi) (hw : hi < w) (x : BitVec w) (v : Nat)
    (hd : hi < lo' ∨ hi' < lo) : bits (setBits x hi lo v) hi' lo' = bits x hi' lo' := by
  refine Nat.eq_of_testBit_eq fun j => ?_
  rw [testBit_bits, testBit_bits, getLsbD_setBits h hw]
  by_cases hj : j < hi' + 1 - lo'
  · rw [if_neg (by omega)]
  · simp [hj]

theorem bit_setBits {w hi lo : Nat} (h : lo ≤ hi) (hw : hi < w) (x : BitVec w) (v i : Nat) :
    bit (setBits x hi lo v) i = if lo ≤ i ∧ i ≤ hi then v.testBit (i - lo) else bit x i :=
  getLsbD_setBits h hw x v i

end Sys2Proof.Machine
end

section
/-!
Traps, TRAP, BKPT, CHKERR, unassigned encodings and FENCE (07_control_registers.md R238, R243, R244;
03_encoding.md R123; 09_memory_ordering.md R314, R315).
-/
namespace Sys2Proof.Machine

/-! ### STATUS at trap entry (07_control_registers.md R238) -/

theorem bit_trapStatus (st : Word) (i : Nat) (hi : ¬(16 ≤ i ∧ i ≤ 24)) (hp : ¬(4 ≤ i ∧ i ≤ 5)) :
    bit (trapStatus st) i = if i ≤ 2 then Nat.testBit 4 i else bit st i := by
  simp [trapStatus, bit_setBits, hi, hp]

theorem saved_trapStatus (st : Word) : bits (trapStatus st) 24 16 = bits st 8 0 := by
  rw [trapStatus, bits_setBits_of_disjoint (by decide) (by decide) _ _ (by decide),
    bits_setBits_of_disjoint (by decide) (by decide) _ _ (by decide),
    bits_setBits_self (by decide) (by decide) _ (lt_of_lt_of_le (bits_lt st 8 0) (by decide))]

theorem prv_trapStatus (st : Word) : bits (trapStatus st) 5 4 = max (bits st 5 4) 1 :=
  bits_setBits_self (by decide) (by decide) _ (max_lt (bits_lt st 5 4) (by decide))

theorem pending_trapStatus (st : Word) : bits (trapStatus st) 63 25 = bits st 63 25 := by
  rw [trapStatus, bits_setBits_of_disjoint (by decide) (by decide) _ _ (by decide),
    bits_setBits_of_disjoint (by decide) (by decide) _ _ (by decide),
    bits_setBits_of_disjoint (by decide) (by decide) _ _ (by decide)]

/-! ### A trap whose handler runs -/

/-- A slot at its handler's first instruction after a trap. -/
def Slot.trapped (x : Slot) (c : BitVec 8) (v a : Word) : Slot :=
  { x with status := trapStatus x.status, cause := c.setWidth 64, eval := v, epc := a, wait := none, pend := .none,
           pc := x.tvec }

theorem State.defaultSupervisor_off {s : State} {t : Nat} (h : (s.tile t).defSup = false) (k : Fin 8) (c : BitVec 8)
    (v : Word) : s.defaultSupervisor t k c v = s := by
  simp [State.defaultSupervisor, h]

theorem trapAt_of_handlerRuns {s : State} (h : HandlerRuns s) (c : BitVec 8) (v a : Word) :
    s.trapAt c v a = s.updMe fun x => x.trapped c v a := by
  obtain ⟨htd, htarget, hsup⟩ := h
  have htake : s.takeTrap s.cur.tile s.cur.slot c v a = s.updMe fun x => x.trapped c v a := by
    have htd' : (s.slot s.cur.tile s.cur.slot).td = false := htd
    have htarget' : (s.tile s.cur.tile).checkTarget (s.slot s.cur.tile s.cur.slot).tvec = none := htarget
    simp only [State.takeTrap, htd', htarget', Option.isSome_none, Bool.false_and, Bool.false_eq_true, if_false,
      State.modSlot_modSlot]
    rfl
  rw [State.trapAt, htake]
  have hoff : (s.updMe fun x => x.trapped c v a).myTile.defSup = false := by
    rw [State.myTile_updMe, Tile.modSlot_defSup, hsup]
  exact State.defaultSupervisor_off hoff ..

/-- An update of the current slot's own context leaves every other slot and every memory. -/
theorem onlyMe_updMe (s : State) (f : Slot → Slot) : OnlyMe s (s.updMe f) := by
  refine ⟨fun n k h => ?_, fun n a => by rw [State.mem_updMe], fun _ => rfl, fun _ => rfl, State.vec_updMe s f⟩
  rw [State.updMe, State.slot_modSlot, if_neg]
  rintro ⟨rfl, rfl⟩
  exact h.elim (· rfl) (· rfl)

theorem trapEntered_trapped (s : State) (c : BitVec 8) (v a : Word) :
    TrapEntered s (s.updMe fun x => x.trapped c v a) c v a where
  saved := by rw [State.me_updMe]; exact saved_trapStatus _
  pw := by rw [State.me_updMe]; exact bit_trapStatus _ 0 (by decide) (by decide)
  ie := by rw [State.me_updMe]; exact bit_trapStatus _ 1 (by decide) (by decide)
  td := by rw [State.me_updMe]; exact bit_trapStatus _ 2 (by decide) (by decide)
  prv := by rw [State.me_updMe]; exact prv_trapStatus _
  eos := by rw [State.me_updMe]; exact bit_trapStatus _ 8 (by decide) (by decide)
  pending := by rw [State.me_updMe]; exact pending_trapStatus _
  cause := by rw [State.me_updMe]; rfl
  eval := by rw [State.me_updMe]; rfl
  epc := by rw [State.me_updMe]; rfl
  pc := by rw [State.me_updMe]; rfl
  run := by rw [State.me_updMe]; rfl
  g _ := by rw [State.me_updMe]; rfl
  e _ := by rw [State.me_updMe]; rfl
  tvec := by rw [State.me_updMe]; rfl
  scratch := by rw [State.me_updMe]; rfl
  cir := by rw [State.me_updMe]; rfl
  wdog := by rw [State.me_updMe]; exact ⟨rfl, rfl⟩
  ident := by rw [State.me_updMe]; exact ⟨rfl, rfl, rfl, rfl⟩
  rest := onlyMe_updMe s _

/-- A body that enters its handler. -/
theorem runBody_trapped {s : State} {b : Body} (hs : Ready s) (hh : HandlerRuns s) {c : BitVec 8} {v a : Word}
    (hb : b s = .ok (s.trapAt c v a)) : ∃ t, runBody s b = .next t ∧ TrapEntered s t c v a := by
  have hrun : (s.trapAt c v a).me.run = .running := by
    rw [trapAt_of_handlerRuns hh, State.me_updMe]; exact hs.2
  refine ⟨_, runBody_next hs hb hrun, ?_⟩
  rw [trapAt_of_handlerRuns hh, State.updMe_updMe]
  exact trapEntered_trapped s c v a

/-! ### The slot whose instruction trapped -/

/-- A slot that runs or has stopped, with nothing begun: there is nothing left of it to tidy. -/
def Slot.Settled (x : Slot) : Prop := x.pend = .none ∧ (x.run = .running ∨ x.run = .stopped)

theorem Slot.Settled.tidyStop_eq {x : Slot} (h : x.Settled) : x.tidyStop = x := by
  obtain ⟨-, hrun | hrun⟩ := h <;> exact x.tidyStop_of_ne (by simp [hrun]) (by simp [hrun])

theorem Slot.Settled.cease {x : Slot} (h : x.Settled) : x.cease.Settled := by
  rw [Slot.cease, h.1]
  exact ⟨rfl, .inr rfl⟩

@[simp] theorem State.cur_pushEnd (s : State) (t : Nat) (k : Fin 8) (c : BitVec 8) (v : Word) (b : Bool) :
    (s.pushEnd t k c v b).cur = s.cur := by
  unfold State.pushEnd; split <;> rfl

@[simp] theorem State.slot_pushEnd (s : State) (t n : Nat) (k j : Fin 8) (c : BitVec 8) (v : Word) (b : Bool) :
    (s.pushEnd t k c v b).slot n j = s.slot n j := by
  unfold State.pushEnd; split <;> rfl

@[simp] theorem State.slot_blackBox (s : State) (e : Ep) (i tnt n : Nat) (a b : Word) (j : Fin 8) :
    (s.blackBox e i tnt a b).slot n j = s.slot n j := rfl

@[simp] theorem State.cur_terminal (s : State) (t : Nat) (k : Fin 8) (c : BitVec 8) (v : Word) :
    (s.terminal t k c v).cur = s.cur := by
  simp [State.terminal]

theorem State.slot_terminal (s : State) (t n : Nat) (k j : Fin 8) (c : BitVec 8) (v : Word) :
    (s.terminal t k c v).slot n j = if t = n ∧ k = j then (s.slot t k).cease else s.slot n j := by
  simp [State.terminal, State.slot_modSlot]

theorem settled_terminal {s : State} {n : Nat} {j : Fin 8} (h : (s.slot n j).Settled) (t : Nat) (k : Fin 8)
    (c : BitVec 8) (v : Word) : ((s.terminal t k c v).slot n j).Settled := by
  rw [State.slot_terminal]
  split
  case isTrue e =>
    obtain ⟨rfl, rfl⟩ := e
    exact h.cease
  case isFalse => exact h

/-- Terminal faults of several slots of a tile, as a double fault in the supervisor slot raises them. -/
theorem terminals_keep (l : List (Fin 8)) (s : State) (t : Nat) (c : BitVec 8) (v : Word) {n : Nat} {j : Fin 8}
    (h : (s.slot n j).Settled) :
    (l.foldl (fun s' i => s'.terminal t i c v) s).cur = s.cur ∧
    ((l.foldl (fun s' i => s'.terminal t i c v) s).slot n j).Settled := by
  induction l generalizing s with
  | nil => exact ⟨rfl, h⟩
  | cons i l ih =>
    obtain ⟨hcur, hset⟩ := ih (s.terminal t i c v) (settled_terminal h ..)
    exact ⟨hcur.trans (State.cur_terminal ..), hset⟩

/-- What a trap leaves of the slot it is raised in: it is settled, and the slot was the last thing written. -/
structure TrapDone (s u : State) (t : Nat) (k : Fin 8) : Prop where
  cur : u.cur = s.cur
  settled : (u.slot t k).Settled
  written : ∃ (w : State) (f : Slot → Slot), u = w.modSlot t k f

theorem trapDone_terminal {s s' : State} {t : Nat} {k : Fin 8} (hcur : s'.cur = s.cur) (h : (s'.slot t k).Settled)
    (c : BitVec 8) (v : Word) : TrapDone s (s'.terminal t k c v) t k :=
  ⟨(State.cur_terminal ..).trans hcur, settled_terminal h .., ⟨_, _, rfl⟩⟩

theorem trapDone_doubleFault {s s' : State} {t : Nat} {k : Fin 8} (hcur : s'.cur = s.cur) (h : (s'.slot t k).Settled)
    (c : BitVec 8) (v : Word) : TrapDone s (s'.doubleFault t k c v) t k := by
  unfold State.doubleFault
  split
  · obtain ⟨hothers, hset⟩ := terminals_keep
      ((s'.mgr.procs.filter fun p => p.tile == t && p.slot != k.val).map fun p => Fin.ofNat 8 p.slot) s' t c v h
    exact trapDone_terminal (hothers.trans hcur) hset ..
  · exact trapDone_terminal hcur h ..

theorem trapDone_takeTrap {s : State} {t : Nat} {k : Fin 8} (hrun : (s.slot t k).run = .running) (c : BitVec 8)
    (v a : Word) : TrapDone s (s.takeTrap t k c v a) t k := by
  have settled_modSlot (f : Slot → Slot) (hp : (f (s.slot t k)).pend = .none) (hr : (f (s.slot t k)).run = .running) :
      ((s.modSlot t k f).slot t k).Settled := by
    rw [State.slot_modSlot_self]; exact ⟨hp, .inl hr⟩
  unfold State.takeTrap
  dsimp only
  split
  · refine trapDone_doubleFault (State.modSlot_cur ..) ?_ ..
    exact settled_modSlot _ rfl hrun
  · split
    · refine trapDone_doubleFault (State.modSlot_cur ..) ?_ ..
      exact settled_modSlot _ rfl hrun
    · refine ⟨rfl, ?_, ⟨_, _, rfl⟩⟩
      rw [State.modSlot_modSlot]
      exact settled_modSlot _ rfl hrun

theorem TrapDone.defaultSupervisor {s u : State} {t : Nat} {k : Fin 8} (h : TrapDone s u t k) (c : BitVec 8)
    (v : Word) : TrapDone s (u.defaultSupervisor t k c v) t k := by
  unfold State.defaultSupervisor
  split
  · split
    · refine ⟨(State.cur_pushEnd ..).trans h.cur, ?_, ⟨_, _, rfl⟩⟩
      rw [State.slot_modSlot_self, State.slot_pushEnd]
      exact ⟨h.settled.1, .inr rfl⟩
    · exact trapDone_terminal h.cur h.settled ..
  · exact h

theorem trapDone_trapAt {s : State} (hrun : s.me.run = .running) (c : BitVec 8) (v a : Word) :
    TrapDone s (s.trapAt c v a) s.cur.tile s.cur.slot :=
  (trapDone_takeTrap hrun c v a).defaultSupervisor c v

/-! ### A change that finds the slot as it would leave it -/

theorem State.modSlot_congr {s : State} {t : Nat} {k : Fin 8} {f g : Slot → Slot}
    (h : f (s.slot t k) = g (s.slot t k)) : s.modSlot t k f = s.modSlot t k g := by
  unfold State.slot at h
  simp only [State.modSlot, State.modTile, Tile.modSlot, h]

theorem State.modSlot_of_fixed {s : State} {t : Nat} {k : Fin 8} {g : Slot → Slot}
    (hw : ∃ (w : State) (f : Slot → Slot), s = w.modSlot t k f) (h : g (s.slot t k) = s.slot t k) :
    s.modSlot t k g = s := by
  obtain ⟨w, f, rfl⟩ := hw
  rw [State.slot_modSlot_self] at h
  rw [State.modSlot_modSlot]
  exact State.modSlot_congr h

/-- A body that traps, in a slot that runs: the trap is the whole of its end. -/
theorem runBody_error_trap {s : State} {b : Body} {c : BitVec 8} {v : Word} (hs : Ready s)
    (hb : b s = .error (.trap c v)) : runBody s b = .next (s.trapAt c v s.me.pc) := by
  obtain ⟨hcur, hset, hwritten⟩ := trapDone_trapAt hs.2 c v s.me.pc
  rw [runBody_trap s b c v hs.1 hb, State.updMe, hcur, State.modSlot_of_fixed hwritten hset.tidyStop_eq]

/-- A body that waits, in a slot that runs. -/
theorem runBody_wait {s : State} {b : Body} {k : WaitKind} (hs : Ready s) (hb : b s = .error (.wait k)) :
    runBody s b = .next (s.block k) := by
  have hrun : (s.block k).me.run = .running := by rw [State.block, State.me_updMe]; exact hs.2
  have htidy : (s.block k).me.tidyStop = (s.block k).me :=
    Slot.tidyStop_of_ne _ (by rw [hrun]; decide) (by rw [hrun]; decide)
  rw [runBody_up s b hs.1, hb]
  exact congrArg _ (State.modSlot_of_fixed ⟨_, _, rfl⟩ htidy)

/-! ### TRAP, BKPT, CHKERR and unassigned encodings (R123, R243, R244) -/

theorem runBody_error_trapped {s : State} {b : Body} (hs : Ready s) (hh : HandlerRuns s) {c : BitVec 8} {v : Word}
    (hb : b s = .error (.trap c v)) : ∃ t, runBody s b = .next t ∧ TrapEntered s t c v s.me.pc :=
  ⟨_, runBody_error_trap hs hb, by rw [trapAt_of_handlerRuns hh]; exact trapEntered_trapped s c v s.me.pc⟩

theorem trapInstructions : TrapInstructions := by
  intro s hs hh
  refine ⟨fun n => ?_, ?_, fun w => ?_, fun hpsn => ?_, fun hpsn => ?_⟩
  · change ∃ t, execTrap n s = _ ∧ _
    exact runBody_trapped hs hh rfl
  · change ∃ t, execBkpt s = _ ∧ _
    exact runBody_error_trapped hs hh rfl
  · change ∃ t, execIllegal w s = _ ∧ _
    exact runBody_error_trapped hs hh rfl
  · change ∃ t, execChkerr s = _ ∧ _
    exact runBody_trapped hs hh (if_pos hpsn)
  · change execChkerr s = _
    exact runBody_adv hs (if_neg (by simp [hpsn]))

/-! ### FENCE (09_memory_ordering.md R314, R315) -/

theorem fenceWrites_iff : ∀ k : BitVec 4, fenceWrites k = true ↔ bits k 1 0 ≠ 0 := by decide

theorem released_iff (s : State) : s.released = true ↔ s.me.rupds = [] ∧ s.me.errOut = [] := by
  simp [State.released]

theorem fenceResult : FenceResult := by
  intro s p k hs
  have hwaits : (fenceWrites k && !s.released) = true ↔
      bits k 1 0 ≠ 0 ∧ ¬(s.me.rupds = [] ∧ s.me.errOut = []) := by
    rw [Bool.and_eq_true, Bool.not_eq_true', ← Bool.not_eq_true, fenceWrites_iff, released_iff]
  refine ⟨fun hp hgo => ?_, fun hp hk hout => ?_, fun hp => ?_⟩
  · change execFence p k s = _
    exact runBody_adv hs ((if_neg hp.not_gt).trans (if_neg fun h => by have := hwaits.1 h; tauto))
  · change execFence p k s = _
    exact runBody_wait hs ((if_neg hp.not_gt).trans (if_pos (hwaits.2 ⟨hk, by tauto⟩)))
  · exact ⟨_, show execFence p k s = _ from runBody_error_trap hs (if_pos hp)⟩

/-- Settles O6: where the handler runs, a trap is one update of the slot, of which TrapEntered is read off field by
field; a FENCE takes the branch of its scope, its kinds and what is outstanding, and a body that traps or waits in a
running slot leaves nothing to tidy. -/
theorem systemInstructions : Obligations.SystemInstructions :=
  ⟨trapInstructions, fenceResult⟩

end Sys2Proof.Machine
end

section
/-!
Branches and jumps (04_scalar_registers.md R163-R166): each instruction as an operation on operand values, and how it ends
where no operand is windowed.
-/
namespace Sys2Proof.Machine

/-! ### How an operation without a windowed operand ends -/

@[simp] theorem State.done_updMe (s : State) (f : Slot → Slot) :
    (s.updMe f).done = s.updMe fun x => { f x with wait := none } := by
  simp [State.done]

/-- An operation none of whose operands is windowed, in a slot that its effect leaves running. -/
theorem runBody_plain {s s' : State} {reads : List (BitVec 5)} {dst : Option (BitVec 5)} {v : Word} {p : Bool}
    {f : State → List Word → Except Stop (State × Word × Bool)} (hs : Ready s) (hr : Plain s reads)
    (hd : ∀ n ∈ dst, s.me.isWin n = false) (hf : f s (reads.map s.g) = .ok (s', v, p))
    (hrun : s'.me.run = .running) :
    runBody s (scalarOp reads dst f) = .next (dst.elim s' fun d => s'.setG d v).done := by
  refine runBody_next hs (by rw [scalarOp_plain reads dst f s hr hd, hf]) ?_
  cases dst with
  | none => exact hrun
  | some d => simpa [State.setG] using hrun

/-- The same where the effect traps. -/
theorem runBody_plain_trap {s : State} {reads : List (BitVec 5)} {dst : Option (BitVec 5)} {c : BitVec 8} {v : Word}
    {f : State → List Word → Except Stop (State × Word × Bool)} (hs : Ready s) (hr : Plain s reads)
    (hd : ∀ n ∈ dst, s.me.isWin n = false) (hf : f s (reads.map s.g) = .error (.trap c v)) :
    runBody s (scalarOp reads dst f) = .next (s.trapAt c v s.me.pc) :=
  runBody_error_trap hs (by rw [scalarOp_plain reads dst f s hr hd, hf])

/-! ### CheckTarget and the effects of branches and jumps -/

theorem State.jump_of_pass {s : State} {target : Word} (h : s.myTile.checkTarget target = none) :
    s.jump target = .ok (s.updMe fun x => { x with pc := target }) := by
  simp [State.jump, h]

theorem State.jump_of_refused {s : State} {target : Word} {c : BitVec 8} {v : Word}
    (h : s.myTile.checkTarget target = some (c, v)) : s.jump target = .error (.trap c v) := by
  simp [State.jump, h]

/-- The effect of a branch of `len` bytes, from the values of s and t. -/
def branchEffect (len : Nat) (off : Word) (c : Word → Word → Bool) (st : State) (vs : List Word) :
    Except Stop (State × Word × Bool) :=
  if c (vs.getD 0 0) (vs.getD 1 0) then
    match st.jump (st.me.pc + off) with
    | .ok st' => .ok (st', 0, false)
    | .error e => .error e
  else .ok (st.adv len, 0, false)

section
variable {st : State} {x y off : Word} {c : Word → Word → Bool} {len : Nat}

theorem branchEffect_notTaken (h : c x y = false) :
    branchEffect len off c st [x, y] = .ok (st.adv len, 0, false) := by
  simp [branchEffect, h]

theorem branchEffect_taken (h : c x y = true) (hc : st.myTile.checkTarget (st.me.pc + off) = none) :
    branchEffect len off c st [x, y] = .ok (st.updMe fun z => { z with pc := st.me.pc + off }, 0, false) := by
  simp [branchEffect, h, State.jump_of_pass hc]

theorem branchEffect_refused {k : BitVec 8} {v : Word} (h : c x y = true)
    (hc : st.myTile.checkTarget (st.me.pc + off) = some (k, v)) :
    branchEffect len off c st [x, y] = .error (.trap k v) := by
  simp [branchEffect, h, State.jump_of_refused hc]

end

/-- The effect of a jump of `len` bytes, from its target: the link is the address after it. -/
def jumpEffect (len : Nat) (target : State → List Word → Word) (st : State) (vs : List Word) :
    Except Stop (State × Word × Bool) :=
  match st.jump (target st vs) with
  | .ok st' => .ok (st', st.me.pc + BitVec.ofNat 64 len, false)
  | .error e => .error e

theorem jumpEffect_pass {len : Nat} {target : State → List Word → Word} {st : State} {vs : List Word}
    (h : st.myTile.checkTarget (target st vs) = none) :
    jumpEffect len target st vs =
      .ok (st.updMe fun x => { x with pc := target st vs }, st.me.pc + BitVec.ofNat 64 len, false) := by
  simp [jumpEffect, State.jump_of_pass h]

theorem jumpEffect_refused {len : Nat} {target : State → List Word → Word} {st : State} {vs : List Word}
    {k : BitVec 8} {v : Word} (h : st.myTile.checkTarget (target st vs) = some (k, v)) :
    jumpEffect len target st vs = .error (.trap k v) := by
  simp [jumpEffect, State.jump_of_refused h]

/-! ### The rows of the two tables -/

theorem add_simm_halfwords {w : Nat} (x : Word) (i : BitVec w) :
    x + simm i <<< 1 = BitVec.ofInt 64 (x.toInt + 2 * i.toInt) := by
  rw [add_simm_shiftLeft, Int.mul_comm]; rfl

/-- A branch is the model's branch on the values of s and t, of which a field that is g0 is 0. -/
theorem exec_branch {i : Instr} {len : Nat} {a t : BitVec 5} {o : Int} {c : Word → Word → Bool}
    (h : Branch i len a t o c) : ∃ off c',
      (∀ s, exec i s = runBody s (scalarOp [a, t] none (branchEffect len off c'))) ∧
      (∀ pc : Word, pc + off = BitVec.ofInt 64 (pc.toInt + 2 * o)) ∧
      ∀ x y, (t = 0 → y = 0) → c' x y = c x y := by
  cases h with
  | beq o | bne o =>
    exact ⟨_, _, fun _ => rfl, fun pc => add_simm_halfwords pc o, fun x y _ => Bool.eq_iff_iff.2 (by simp)⟩
  | blt o => exact ⟨_, _, fun _ => rfl, fun pc => add_simm_halfwords pc o, fun x y _ => BitVec.slt_eq_decide⟩
  | bltu o => exact ⟨_, _, fun _ => rfl, fun pc => add_simm_halfwords pc o, fun x y _ => BitVec.ult_eq_decide⟩
  | bge o =>
    exact ⟨_, fun x y => !x.slt y, fun _ => rfl, fun pc => add_simm_halfwords pc o, fun x y _ =>
      Bool.eq_iff_iff.2 (by simp [BitVec.slt_eq_decide])⟩
  | bgeu o =>
    exact ⟨_, fun x y => !x.ult y, fun _ => rfl, fun pc => add_simm_halfwords pc o, fun x y _ =>
      Bool.eq_iff_iff.2 (by simp [BitVec.ult_eq_decide])⟩
  | cBeqz d o | cBnez d o =>
    exact ⟨_, _, fun _ => rfl, fun pc => add_simm_halfwords pc o, fun x y h => Bool.eq_iff_iff.2 (by simp [h rfl])⟩

/-- A jump is the jump effect on its source, where it has one. -/
theorem exec_jump {i : Instr} {len : Nat} {d a : BitVec 5} {f : Word → Word → Word} (h : Jump i len d a f) :
    ∃ reads target, reads ⊆ [a] ∧
      (∀ s, exec i s = runBody s (scalarOp reads (some d) (jumpEffect len target))) ∧
      ∀ s : State, target s (reads.map s.g) = f s.me.pc (s.g a) := by
  cases h with
  | jal m => exact ⟨[], fun st _ => st.me.pc + simm m <<< 1, by simp, fun _ => rfl, fun s => add_simm_halfwords _ m⟩
  | cJ m => exact ⟨[], fun st _ => st.me.pc + simm m <<< 1, by simp, fun _ => rfl, fun s => add_simm_halfwords _ m⟩
  | jalr m => exact ⟨[a], fun _ vs => vs.getD 0 0 + simm m, by simp, fun _ => rfl, fun s => add_simm _ m⟩

theorem branchResult : BranchResult := by
  intro i len a t o c s h hs hp
  obtain ⟨off, c', hexec, hoff, hc⟩ := exec_branch h
  have hcond : c' (s.g a) (s.g t) = c (s.g a) (s.g t) := hc _ _ fun ht => by rw [ht]; rfl
  rw [hexec, ← hoff, ← hcond]
  refine ⟨fun hn => ?_, fun ht hpass => ?_, fun k v ht hk => ?_⟩
  · rw [runBody_plain hs hp (by simp) (branchEffect_notTaken hn) (by simpa using hs.2)]
    simp [State.adv, State.ended]
  · rw [runBody_plain hs hp (by simp) (branchEffect_taken ht hpass) (by simpa using hs.2)]
    simp [State.endedAt]
  · exact runBody_plain_trap hs hp (by simp) (branchEffect_refused ht hk)

theorem setG_at_target (s : State) (target v : Word) (d : BitVec 5) :
    ((s.updMe fun x => { x with pc := target }).setG d v).done = s.endedAt target fun x => x.setG d v := by
  simp only [State.setG, State.updMe_updMe, State.done_updMe, State.endedAt]
  congr 1
  funext x
  unfold Slot.setG
  split <;> rfl

theorem jumpResult : JumpResult := by
  intro i len d a f s h hs hp
  obtain ⟨reads, target, hreads, hexec, htarget⟩ := exec_jump h
  have hr : Plain s reads := fun n hn => hp n (List.mem_append_left [d] (hreads hn))
  have hd : ∀ n ∈ some d, s.me.isWin n = false := fun n hn => hp n (by simp_all)
  rw [hexec, ← htarget]
  refine ⟨fun hpass => ?_, fun k v hk => ?_⟩
  · rw [runBody_plain hs hr hd (jumpEffect_pass hpass) (by simpa using hs.2)]
    exact congrArg _ (setG_at_target ..)
  · exact runBody_plain_trap hs hr hd (jumpEffect_refused hk)

/-- Settles O3: a branch and a jump are operations on operand values, whose effect is read off CheckTarget's answer. -/
theorem controlTransfers : Obligations.ControlTransfers :=
  ⟨branchResult, jumpResult⟩

end Sys2Proof.Machine
end

section
/-!
Traps and the scalar registers (04_scalar_registers.md R143; 07_control_registers.md R238).
-/
namespace Sys2Proof.Machine

/-- Every slot of every tile has the g and e registers it had. -/
structure SameRegs (s t : State) : Prop where
  g : ∀ u k, (t.slot u k).g = (s.slot u k).g
  e : ∀ u k, (t.slot u k).e = (s.slot u k).e

theorem SameRegs.refl (s : State) : SameRegs s s := ⟨fun _ _ => rfl, fun _ _ => rfl⟩

theorem SameRegs.trans {s t u : State} (h : SameRegs s t) (h' : SameRegs t u) : SameRegs s u :=
  ⟨fun n k => (h'.g n k).trans (h.g n k), fun n k => (h'.e n k).trans (h.e n k)⟩

/-- What an update of a slot leaves alone, it leaves alone in every slot. -/
theorem State.slot_modSlot_congr {α : Type} (φ : Slot → α) {f : Slot → Slot} (hf : ∀ x, φ (f x) = φ x) (s : State)
    (t n : Nat) (k j : Fin 8) : φ ((s.modSlot t k f).slot n j) = φ (s.slot n j) := by
  rw [State.slot_modSlot]
  split
  case isTrue h =>
    obtain ⟨rfl, rfl⟩ := h
    exact hf _
  case isFalse => rfl

theorem sameRegs_modSlot {s : State} {t : Nat} {k : Fin 8} {f : Slot → Slot} (hg : ∀ x, (f x).g = x.g)
    (he : ∀ x, (f x).e = x.e) : SameRegs s (s.modSlot t k f) :=
  ⟨fun n j => State.slot_modSlot_congr Slot.g hg s t n k j, fun n j => State.slot_modSlot_congr Slot.e he s t n k j⟩

@[simp] theorem Slot.cease_g (x : Slot) : x.cease.g = x.g := by
  unfold Slot.cease
  repeat' split
  all_goals rfl

@[simp] theorem Slot.cease_e (x : Slot) : x.cease.e = x.e := by
  unfold Slot.cease
  repeat' split
  all_goals rfl

theorem sameRegs_pushEnd (s : State) (t : Nat) (k : Fin 8) (c : BitVec 8) (v : Word) (b : Bool) :
    SameRegs s (s.pushEnd t k c v b) := ⟨fun _ _ => by simp, fun _ _ => by simp⟩

theorem sameRegs_terminal (s : State) (t : Nat) (k : Fin 8) (c : BitVec 8) (v : Word) :
    SameRegs s (s.terminal t k c v) := by
  have hbox : SameRegs s (s.blackBox ⟨.tile, t⟩ 0x01 (s.slot t k).tenant.toNat (c.setWidth 64) v) :=
    ⟨fun _ _ => by simp, fun _ _ => by simp⟩
  exact (hbox.trans (sameRegs_pushEnd _ t k c v true)).trans (sameRegs_modSlot Slot.cease_g Slot.cease_e)

theorem sameRegs_terminals (l : List (Fin 8)) (s : State) (t : Nat) (c : BitVec 8) (v : Word) :
    SameRegs s (l.foldl (fun s' j => s'.terminal t j c v) s) := by
  induction l generalizing s with
  | nil => exact .refl s
  | cons j l ih => exact (sameRegs_terminal s t j c v).trans (ih _)

theorem sameRegs_doubleFault (s : State) (t : Nat) (k : Fin 8) (c : BitVec 8) (v : Word) :
    SameRegs s (s.doubleFault t k c v) := by
  unfold State.doubleFault
  split
  · exact (sameRegs_terminals _ s t c v).trans (sameRegs_terminal ..)
  · exact sameRegs_terminal ..

theorem sameRegs_takeTrap (s : State) (t : Nat) (k : Fin 8) (c : BitVec 8) (v a : Word) :
    SameRegs s (s.takeTrap t k c v a) := by
  unfold State.takeTrap
  dsimp only
  split
  · refine .trans (sameRegs_modSlot ?_ ?_) (sameRegs_doubleFault ..) <;> exact fun _ => rfl
  · split
    · refine .trans (sameRegs_modSlot ?_ ?_) (sameRegs_doubleFault ..) <;> exact fun _ => rfl
    · rw [State.modSlot_modSlot]
      exact sameRegs_modSlot (fun _ => rfl) fun _ => rfl

theorem sameRegs_defaultSupervisor (s : State) (t : Nat) (k : Fin 8) (c : BitVec 8) (v : Word) :
    SameRegs s (s.defaultSupervisor t k c v) := by
  unfold State.defaultSupervisor
  split
  · split
    · exact (sameRegs_pushEnd ..).trans (sameRegs_modSlot (fun _ => rfl) fun _ => rfl)
    · exact sameRegs_terminal ..
  · exact .refl s

theorem sameRegs_trapAt (s : State) (c : BitVec 8) (v a : Word) : SameRegs s (s.trapAt c v a) :=
  (sameRegs_takeTrap ..).trans (sameRegs_defaultSupervisor ..)

/-- Settles O58: each of the trap's paths is made of updates of a slot that leave its registers. -/
theorem trapsWriteNoRegister : Obligations.TrapsWriteNoRegister := by
  intro s c v a u k n m
  have h := sameRegs_trapAt s c v a
  exact ⟨by rw [Slot.getG, Slot.getG, h.g], by rw [Slot.getE, Slot.getE, h.e]⟩

end Sys2Proof.Machine
end

section
/-!
The machine right after reset (04_scalar_registers.md R141; 07_control_registers.md R233, R234).
-/
namespace Sys2Proof.Machine

@[simp] theorem State.tile_reset (u : Nat) : State.reset.tile u = Tile.reset := rfl

@[simp] theorem State.slot_reset (u : Nat) (k : Fin 8) : State.reset.slot u k = Slot.reset := by
  simp [State.slot, Tile.reset]

theorem Slot.getG_reset (n : BitVec 5) : Slot.reset.getG n = 0 := by simp [Slot.getG, Slot.reset]

theorem Slot.getE_reset (n : BitVec 3) : Slot.reset.getE n = 0 := by simp [Slot.getE, Slot.reset]

@[simp] theorem State.cycle_reset (u : Nat) : State.reset.cycle u = 0 := by
  simp [State.cycle, State.clusterCycles, Cluster.reset, State.reset]

@[simp] theorem State.time_reset : State.reset.time = 0 := Nat.zero_div _

/-- The registers that are 0 at reset. -/
theorem creg_reset_zero (u : Nat) (k : Fin 8) : ∀ c ∈ [0x000, 0x001, 0x002, 0x003, 0x004, 0x005, 0x006, 0x010, 0x011,
    0x013, 0x020, 0x021, 0x022, 0x030, 0x031, 0x032, 0x034, 0x035, 0x080, 0x0A0], State.reset.creg u k c = 0 := by
  simp [State.creg, Slot.reset, Tile.reset, VecCtx.reset]

theorem creg_reset_bank (u : Nat) (k : Fin 8) {n : Nat} (hn : n < 16) :
    State.reset.creg u k (0x050 + n) = 0 ∧ State.reset.creg u k (0x060 + n) = BitVec.ofNat 64 (n % 2) ∧
      State.reset.creg u k (0x070 + n) = 0 := by
  simp only [State.creg, State.slot_reset, State.tile_reset, State.cycle_reset, State.time_reset]
  interval_cases n <;> exact ⟨rfl, rfl, rfl⟩

theorem State.portEnd_reset (u t : Nat) (k j : Fin 8) (p : BitVec 4) :
    ({ State.reset with cur := { tile := u, slot := k } } : State).portEnd t j p = none := by
  have hp : (({ State.reset with cur := { tile := u, slot := k } } : State).slot t j).ports[p.toFin] = 0 := by
    rw [show ({ State.reset with cur := { tile := u, slot := k } } : State).slot t j = Slot.reset from
      State.slot_reset t j]
    simp [Slot.reset]
  simp [State.portEnd, hp, descValid, bit]

/-- Settles O53: the registers are read off the reset contexts, and an empty descriptor binds no port. -/
theorem resetValues : Obligations.ResetValues := by
  refine ⟨fun u k => ?_, fun x v => ⟨Slot.getG_zero x, Slot.setG_zero x v⟩, rfl, rfl, fun _ => rfl⟩
  have hports : ∀ p, let s : State := { State.reset with cur := { tile := u, slot := k } }
      s.recvAtPort p = none ∧ s.sendAtPort p = none := fun p => by
    simp [State.recvAtPort, State.sendAtPort, State.portEnd_reset]
  rw [State.slot_reset]
  refine ⟨Slot.getG_reset, Slot.getE_reset, creg_reset_zero u k, ?_, ?_, ?_, ?_, ?_, ?_, ?_, ?_, ?_, ?_, ?_,
    fun _ => creg_reset_bank u k, hports, rfl, rfl⟩ <;>
    simp [State.creg, Slot.reset, Tile.reset, VecCtx.reset]

end Sys2Proof.Machine
end

section
/-!
What sending a message leaves alone (11_fragments_and_errands.md R366, R374), and what taking and sending tokens leaves
alone (10_channels.md R329-R331, R352): every slot, and where nothing is spilled every memory and every other end.
-/
namespace Sys2Proof.Machine

/-! ### Steps that keep a part of every tile -/

/-- The current slot is the same, and so is the part `φ` of every tile. -/
def Keeps {α : Type} (φ : Tile → α) (s t : State) : Prop := t.cur = s.cur ∧ ∀ n, φ (t.tile n) = φ (s.tile n)

section
variable {α β : Type} {φ : Tile → α} {s t u : State}

theorem Keeps.refl (s : State) : Keeps φ s s := ⟨rfl, fun _ => rfl⟩

theorem Keeps.trans (h : Keeps φ s t) (h' : Keeps φ t u) : Keeps φ s u :=
  ⟨h'.1.trans h.1, fun n => (h'.2 n).trans (h.2 n)⟩

theorem Keeps.comp (h : Keeps φ s t) (ψ : α → β) : Keeps (fun x => ψ (φ x)) s t := ⟨h.1, fun n => congrArg ψ (h.2 n)⟩

theorem keeps_modTile (s : State) (n : Nat) {f : Tile → Tile} (hf : ∀ x, φ (f x) = φ x := by exact fun _ => rfl) :
    Keeps φ s (s.modTile n f) := by
  refine ⟨rfl, fun m => ?_⟩
  rw [State.tile_modTile]
  split
  case isTrue h => rw [hf, h]
  case isFalse => rfl

theorem keeps_foldl {γ : Type} {f : State → γ → State} (hf : ∀ s x, Keeps φ s (f s x)) (l : List γ) (s : State) :
    Keeps φ s (l.foldl f s) := by
  induction l generalizing s with
  | nil => exact .refl s
  | cons x l ih => exact (hf s x).trans (ih _)

end

/-! ### Messages -/

/-- A tile without its fragment layer, its counters and an injection that is armed. -/
def Tile.core (x : Tile) : Tile := { x with fab := Fabric.reset, perfcnt := Vector.replicate 8 0, inject := 0 }

theorem keeps_modFab (s : State) (e : Ep) (f : Fabric → Fabric) : Keeps Tile.core s (s.modFab e f) := by
  unfold State.modFab
  split
  · exact keeps_modTile s _
  all_goals exact .refl s

theorem keeps_count (s : State) (e : Ep) (c : Fin 10) (n : Nat) : Keeps Tile.core s (s.count e c n) := keeps_modFab ..

theorem keeps_takeSeq (s : State) (e : Ep) (k c : Nat) : Keeps Tile.core s (s.takeSeq e k c).2 := keeps_modFab ..

/-- Fragments put on the wire. -/
theorem keeps_wire (s : State) (w : List Frag) : Keeps Tile.core s { s with wire := w } := ⟨rfl, fun _ => rfl⟩

theorem keeps_launchFrags (s : State) (h : MsgHdr) (own : Bool) (fs : List Frag) :
    Keeps Tile.core s (s.launchFrags h own fs) := by
  unfold State.launchFrags
  dsimp only
  split
  · split
    · have hput (w : List Frag) :
          Keeps Tile.core s { s.modTile h.src.num fun x => { x with inject := 0 } with wire := w } :=
        (keeps_modTile s _).trans (keeps_wire _ w)
      split
      · exact (hput _).trans (keeps_count ..)
      · exact (hput _).trans (keeps_modFab ..)
    · exact keeps_wire ..
  · exact keeps_wire ..

theorem keeps_sendMsg (s : State) (h : MsgHdr) (payload : List Byte) (own : Bool) :
    Keeps Tile.core s (s.sendMsg h payload own) := by
  have hcount : Keeps Tile.core s { s with sentMsgs := s.sentMsgs + 1 } := ⟨rfl, fun _ => rfl⟩
  refine hcount.trans ?_
  unfold State.sendMsg State.firstSend
  dsimp only
  split
  · exact keeps_launchFrags ..
  · split
    · exact keeps_modFab ..
    · exact (keeps_launchFrags ..).trans (keeps_modFab ..)

theorem keeps_sendTok (s : State) (src dst : Ep) (slot tnt : Nat) (stream : Stream) (chan n e : Nat) (psn : Bool)
    (payload : List Byte) (own : Bool) (pid netid : Nat) :
    Keeps Tile.core s (s.sendTok src dst slot tnt stream chan n e psn payload own pid netid) := keeps_sendMsg ..

theorem keeps_sendSpill (s : State) (t : Nat) (e : RecvEnd) (ws : List Word) (psn : Bool) :
    Keeps Tile.core s (s.sendSpill t e ws psn) := (keeps_modFab ..).trans (keeps_sendTok ..)

theorem keeps_sendCredit (s : State) (t : Nat) (e : RecvEnd) : Keeps Tile.core s (s.sendCredit t e) :=
  (keeps_takeSeq ..).trans (keeps_sendMsg ..)

theorem keeps_sendRuns (t : Nat) (e : SendEnd) (l : List (List Word × Bool)) (s : State) (n : Nat) :
    Keeps Tile.core s (s.sendRuns t e n l) := by
  induction l generalizing s n with
  | nil => exact .refl s
  | cons x l ih => exact (keeps_sendTok ..).trans (ih ..)

/-! ### Tokens taken and sent: no slot changes -/

theorem Keeps.slots {s t : State} (h : Keeps Tile.core s t) : Keeps Tile.slots s t := h.comp Tile.slots

theorem Keeps.slot_eq {s t : State} (h : Keeps Tile.slots s t) (n : Nat) (k : Fin 8) : t.slot n k = s.slot n k := by
  rw [State.slot, State.slot, h.2]

theorem Keeps.me_eq {s t : State} (h : Keeps Tile.slots s t) : t.me = s.me := by
  rw [State.me, State.me, h.1, h.slot_eq]

theorem keeps_setEnd (s : State) (t i : Nat) (e : EndPt) : Keeps Tile.slots s (s.setEnd t i e) :=
  keeps_modTile s t

@[simp] theorem State.mapFind_setEnd (s : State) (t i : Nat) (e : EndPt) :
    mapFind ((s.setEnd t i e).tile t).ends i = some e := by simp [State.setEnd]

theorem keeps_perf (s : State) (t ev : Nat) (k : Option (Fin 8)) (n : Nat) :
    Keeps Tile.core s (s.modTile t fun x => x.perf ev k n) := keeps_modTile s t

theorem keeps_placeEarly (s : State) (t i : Nat) : Keeps Tile.slots s (s.placeEarly t i) := by
  unfold State.placeEarly
  split
  · refine .trans (keeps_setEnd ..) (keeps_foldl (fun s' x => ?_) _ _)
    split
    · exact keeps_modTile s' t
    · exact .refl s'
  · exact .refl s

theorem keeps_spillRefill (s : State) (t i need : Nat) : Keeps Tile.slots s (s.spillRefill t i need) := by
  unfold State.spillRefill
  split
  · split
    · split
      · exact (keeps_setEnd ..).trans (keeps_sendSpill ..).slots
      · exact .refl s
    · exact .refl s
  · exact .refl s

theorem keeps_spillOut (n : Nat) (s : State) (t i : Nat) : Keeps Tile.slots s (s.spillOut t i n) := by
  induction n generalizing s with
  | zero => exact .refl s
  | succ n ih =>
    unfold State.spillOut
    split
    · extract_lets q
      split
      · dsimp only
        split
        · exact .refl s
        · exact ((keeps_setEnd ..).trans (keeps_sendSpill ..).slots).trans (ih _)
      · exact .refl s
    · exact .refl s

theorem keeps_spillTidy (s : State) (t i : Nat) : Keeps Tile.slots s (s.spillTidy t i) := by
  unfold State.spillTidy
  split
  · split
    · exact .refl s
    · exact ((keeps_placeEarly ..).trans (keeps_spillRefill ..)).trans (keeps_spillOut ..)
  · exact .refl s

theorem keeps_takeTokens (s : State) (t i : Nat) (e : RecvEnd) (n : Nat) :
    Keeps Tile.slots s (s.takeTokens t i e n) := by
  unfold State.takeTokens
  split
  · exact .refl s
  · exact (((keeps_setEnd ..).trans (keeps_perf ..).slots).trans (keeps_sendCredit ..).slots).trans (keeps_spillTidy ..)

theorem keeps_putTokens (s : State) (t i : Nat) (e : SendEnd) (l : List (Word × Bool)) :
    Keeps Tile.slots s (s.putTokens t i e l) :=
  ((keeps_setEnd ..).trans (keeps_perf ..).slots).trans (keeps_sendRuns ..).slots

@[simp] theorem State.me_takeTokens (s : State) (t i : Nat) (e : RecvEnd) (n : Nat) :
    (s.takeTokens t i e n).me = s.me := (keeps_takeTokens ..).me_eq

@[simp] theorem State.me_putTokens (s : State) (t i : Nat) (e : SendEnd) (l : List (Word × Bool)) :
    (s.putTokens t i e l).me = s.me := (keeps_putTokens ..).me_eq

@[simp] theorem State.me_setEnd (s : State) (t i : Nat) (e : EndPt) : (s.setEnd t i e).me = s.me :=
  (keeps_setEnd ..).me_eq

/-! ### Tokens taken from an end that has spilled nothing (10_channels.md R329-R331) -/

theorem State.spillTidy_of_unspilled {s : State} {t i : Nat} {e : RecvEnd}
    (h : mapFind (s.tile t).ends i = some (.recv e)) (hearly : e.early = []) (hspilled : e.spilled = [])
    (hahead : e.ahead = []) : s.spillTidy t i = s := by
  simp [State.spillTidy, h, hearly, hspilled, hahead]

/-- Where nothing is spilled, taking tokens replaces the end and sends a credit. -/
theorem takeTokens_unspilled {s : State} {t i n : Nat} {e : RecvEnd} (hn : 0 < n) (hearly : e.early = [])
    (hspilled : e.spilled = []) (hahead : e.ahead = []) :
    Keeps Tile.core (s.setEnd t i (.recv (e.taken n))) (s.takeTokens t i e n) := by
  have hcredit := ((keeps_perf (s.setEnd t i (.recv (e.taken n))) t 0x0012 (some s.cur.slot) n).trans
    (keeps_sendCredit _ t (e.taken n)))
  have hend := (hcredit.comp fun x => mapFind x.ends i).2 t
  rw [State.takeTokens, if_neg hn.ne']
  dsimp only
  rw [State.spillTidy_of_unspilled (e := e.taken n) (hend.trans (State.mapFind_setEnd ..)) hearly hspilled
    (by simp [RecvEnd.taken, hahead])]
  exact hcredit

theorem tokensTaken : TokensTaken := by
  intro s j e n hn hfind hearly hspilled hahead
  have h := takeTokens_unspilled (s := s) (t := s.cur.tile) (i := j) hn hearly hspilled hahead
  refine ⟨?_, fun u k => (keeps_takeTokens ..).slot_eq u k, fun u => ?_⟩
  · rw [State.myTile, h.1]
    exact ((h.comp fun x => mapFind x.ends j).2 s.cur.tile).trans (State.mapFind_setEnd ..)
  · have hmem : Keeps Tile.mem s (s.setEnd s.cur.tile j (.recv (e.taken n))) := keeps_modTile s s.cur.tile
    exact ((h.comp Tile.mem).2 u).trans (hmem.2 u)

end Sys2Proof.Machine
end

section
/-!
The port window (04_scalar_registers.md R144-R153): the three stages of an instruction with one windowed field, or with two
windowed sources of one port, and how its body ends.
-/
namespace Sys2Proof.Machine

/-! ### The stages of R147 one after another -/

section
variable {s : State} {reads : List (BitVec 5)} {dst : Option (BitVec 5)}
  {f : State → List Word → Except Stop (State × Word × Bool)}

theorem scalarOp_windowed (h : reads.any s.me.isWin = true ∨ dst.any s.me.isWin = true) :
    scalarOp reads dst f s = windowOp reads dst f s :=
  if_pos (by simpa using h)

theorem windowOp_check_error {x : Stop} (h : winCheck s reads dst = .error x) : windowOp reads dst f s = .error x := by
  simp [windowOp, h]

theorem windowOp_wait_error {x : Stop} (hc : winCheck s reads dst = .ok ()) (h : winWait s reads dst = .error x) :
    windowOp reads dst f s = .error x := by
  simp [windowOp, hc, h]

theorem windowOp_reads_error {x : Stop} (hc : winCheck s reads dst = .ok ()) (hw : winWait s reads dst = .ok ())
    (h : winReads s [] reads = .error x) : windowOp reads dst f s = .error x := by
  simp [windowOp, hc, hw, h]

theorem windowOp_ok {rs : List ReadRes} {s' : State} {v : Word} {p : Bool} (hc : winCheck s reads dst = .ok ())
    (hw : winWait s reads dst = .ok ()) (hr : winReads s [] reads = .ok rs)
    (hf : f s (rs.map ReadRes.val) = .ok (s', v, p)) :
    windowOp reads dst f s = .ok (winCommitWrite s (winCommitReads s s' (reads.zip rs)) dst v p) := by
  simp [windowOp, hc, hw, hr, hf]

end

/-! ### Stage 1: every port bound -/

section
variable {s : State} {reads : List (BitVec 5)} {dst : Option (BitVec 5)}

/-- Reads whose ports are bound leave the destination to be checked. -/
theorem winCheck_bound (h : ∀ m ∈ reads, s.me.isWin m = true → (s.recvAtPort (portOf m)).isSome = true) :
    winCheck s reads dst = winCheck s [] dst := by
  induction reads with
  | nil => rfl
  | cons m r ih =>
    have hrest := ih fun x hx => h x (List.mem_cons_of_mem _ hx)
    rw [winCheck, hrest]
    split
    case isTrue hm =>
      obtain ⟨x, hx⟩ := Option.isSome_iff_exists.1 (h m (by simp) hm)
      simp [needRecv, hx]
    case isFalse => rfl

theorem winCheck_plainReads (hr : Plain s reads) : winCheck s reads dst = winCheck s [] dst :=
  winCheck_bound fun m hm hw => by simp [hr m hm] at hw

theorem winCheck_plainDst (h : ∀ d ∈ dst, s.me.isWin d = false) : winCheck s [] dst = .ok () := by
  cases dst with
  | none => rfl
  | some d => simp [winCheck, h d rfl]

theorem winCheck_send {d : BitVec 5} {j : Nat} {e : SendEnd} (h : WinSend s d j e) : winCheck s [] (some d) = .ok () := by
  obtain ⟨hwin, hport, hopen, -⟩ := h
  simp [winCheck, needSend, hwin, hport, hopen]

theorem winCheck_unboundSource {n : BitVec 5} (h : reads.find? s.me.isWin = some n)
    (hp : s.recvAtPort (portOf n) = none) :
    winCheck s reads dst = .error (.trap cCHANNEL_BROKEN (brokenVal (portOf n))) := by
  induction reads with
  | nil => cases h
  | cons m r ih =>
    rw [List.find?_cons] at h
    rw [winCheck]
    split at h
    case h_1 hm =>
      cases h
      simp [hm, needRecv, hp]
    case h_2 hm => simp [hm, ih h]

theorem winCheck_unboundDst {d : BitVec 5} (h : s.me.isWin d = true) (hp : s.sendAtPort (portOf d) = none) :
    winCheck s [] (some d) = .error (.trap cCHANNEL_BROKEN (brokenVal (portOf d))) := by
  simp [winCheck, needSend, h, hp]

end

/-! ### Stage 2: every token and the credit there -/

section
variable {s : State} {reads : List (BitVec 5)} {dst : Option (BitVec 5)}

theorem winLacking_plain (h : Plain s reads) : winLacking s reads = [] := by
  have hf : reads.filter s.me.isWin = [] := List.filter_eq_nil_iff.2 fun n hn => by simp [h n hn]
  simp [winLacking, hf]

theorem winLacking_alone {n : BitVec 5} {j : Nat} {e : RecvEnd} (h : reads.filter s.me.isWin = [n])
    (hp : s.recvAtPort (portOf n) = some (j, e)) :
    winLacking s reads = if e.avail 1 = 0 ∧ e.endAfter 0 = false then [(j, 1)] else [] := by
  by_cases ha : e.avail 1 = 0 <;> simp [winLacking, h, hp, ha]

theorem winWait_plainDst (h : ∀ d ∈ dst, s.me.isWin d = false) :
    winWait s reads dst =
      if winLacking s reads = [] then .ok () else .error (waitRecv s (winLacking s reads)) := by
  cases dst with
  | none => rfl
  | some d => simp [winWait, h d rfl]

theorem winWait_send {d : BitVec 5} {j : Nat} {e : SendEnd} (hr : Plain s reads) (h : WinSend s d j e) :
    winWait s reads (some d) =
      if e.credits = 0 then .error (.waitIn s (.send j 1 []))
      else if s.released = false then .error (.wait .issue) else .ok () := by
  obtain ⟨hwin, hport, -, hnotice⟩ := h
  simp [winWait, winLacking_plain hr, hwin, hport, hnotice, State.readAhead]

end

/-! ### Stage 3: the reads -/

/-- What a field reads where a windowed one reads `r`. -/
def State.readOf (s : State) (r : ReadRes) (m : BitVec 5) : ReadRes :=
  if s.me.isWin m then r else { val := s.g m, psn := false, took := false, atEnd := false }

/-- The value a field reads where a windowed one reads `v`. -/
def State.valueOf (s : State) (v : Word) (m : BitVec 5) : Word := if s.me.isWin m then v else s.g m

theorem State.val_readOf (s : State) (r : ReadRes) (m : BitVec 5) : (s.readOf r m).val = s.valueOf r.val m := by
  unfold State.readOf State.valueOf; split <;> rfl

theorem State.psn_readOf (s : State) (r : ReadRes) (m : BitVec 5) : (s.readOf r m).psn = (s.me.isWin m && r.psn) := by
  unfold State.readOf; split <;> simp_all

theorem State.atEnd_readOf (s : State) (r : ReadRes) (m : BitVec 5) :
    (s.readOf r m).atEnd = (s.me.isWin m && r.atEnd) := by
  unfold State.readOf; split <;> simp_all

theorem State.valueOf_win {s : State} {m : BitVec 5} (h : s.me.isWin m = true) (v : Word) : s.valueOf v m = v := by
  simp [State.valueOf, h]

theorem State.valueOf_plain {s : State} {m : BitVec 5} (h : s.me.isWin m = false) (v : Word) :
    s.valueOf v m = s.g m := by
  simp [State.valueOf, h]

section
variable {s : State} {seen : List (BitVec 4)} {r : List (BitVec 5)} {n : BitVec 5} {j : Nat} {e : RecvEnd}

theorem winReads_cons_plain (h : s.me.isWin n = false) (x : ReadRes) :
    winReads s seen (n :: r) = (winReads s seen r).map (s.readOf x n :: ·) := by
  rw [winReads]
  simp only [h, Bool.false_eq_true, if_false, State.readOf]
  cases winReads s seen r <;> rfl

theorem winReads_plain (h : Plain s r) (x : ReadRes) : winReads s seen r = .ok (r.map (s.readOf x)) := by
  induction r with
  | nil => rfl
  | cons m r ih =>
    rw [winReads_cons_plain (h m (by simp)) x, ih fun y hy => h y (List.mem_cons_of_mem _ hy)]
    rfl

theorem winReads_cons_token {k : Nat} {v : Word} {p : Bool} (h : WinRecv s n j e)
    (hk : (seen.filter (· == portOf n)).length = k) (hav : k < e.avail (k + 1))
    (ht : e.tokenAt s.myTile.mem k = (v, p)) :
    winReads s seen (n :: r) = (winReads s (seen ++ [portOf n]) r).map
      ({ val := v, psn := p, took := true, atEnd := false } :: ·) := by
  obtain ⟨hwin, hport⟩ := h
  rw [winReads]
  simp only [hwin, if_true, hport, hk, hav, ht]
  cases winReads s (seen ++ [portOf n]) r <;> rfl

theorem winReads_cons_end (h : WinRecv s n j e) (hav : e.avail 1 = 0) (htoe : e.toe = false) :
    winReads s [] (n :: r) = (winReads s [portOf n] r).map
      ({ val := 0, psn := false, took := false, atEnd := true } :: ·) := by
  obtain ⟨hwin, hport⟩ := h
  rw [winReads]
  simp only [hwin, if_true, hport, List.filter_nil, List.length_nil, Nat.zero_add, hav, Nat.lt_irrefl, if_false, htoe,
    Bool.false_eq_true, List.nil_append]
  cases winReads s [portOf n] r <;> rfl

theorem winReads_cons_trap (h : WinRecv s n j e) (hav : e.avail 1 = 0) (hend : e.endAfter 0 = true) (htoe : e.toe = true) :
    winReads s [] (n :: r) = .error (.trapIn (s.setEnd s.cur.tile j (.recv e.metEnd)) cCHANNEL_BROKEN
      (brokenVal (portOf n))) := by
  obtain ⟨hwin, hport⟩ := h
  rw [winReads]
  simp [hwin, hport, hav, htoe, hend, State.markEnds]

/-- The reads of an instruction one of whose sources is windowed. -/
theorem winReads_alone {x : ReadRes} (h : r.filter s.me.isWin = [n])
    (hx : ∀ r', winReads s [] (n :: r') = (winReads s [portOf n] r').map (x :: ·)) :
    winReads s [] r = .ok (r.map (s.readOf x)) := by
  induction r with
  | nil => simp at h
  | cons m r ih =>
    by_cases hm : s.me.isWin m = true
    · rw [List.filter_cons_of_pos hm, List.cons.injEq] at h
      obtain ⟨rfl, hrest⟩ := h
      have hp : Plain s r := fun y hy => by simpa using List.filter_eq_nil_iff.1 hrest y hy
      rw [hx, winReads_plain hp x]
      simp [Except.map, State.readOf, hm]
    · rw [List.filter_cons_of_neg hm] at h
      rw [winReads_cons_plain (by simpa using hm) x, ih h]
      rfl

theorem winReads_alone_error {x : Stop} (h : r.filter s.me.isWin = [n]) (hx : ∀ r', winReads s [] (n :: r') = .error x) :
    winReads s [] r = .error x := by
  induction r with
  | nil => simp at h
  | cons m r ih =>
    by_cases hm : s.me.isWin m = true
    · rw [List.filter_cons_of_pos hm, List.cons.injEq] at h
      rw [h.1, hx]
    · rw [List.filter_cons_of_neg hm] at h
      rw [winReads_cons_plain (by simpa using hm) { val := 0, psn := false, took := false, atEnd := false }, ih h]
      rfl

end

/-! ### Stage 3: the receives committed -/

section
variable {s0 s : State} {reads : List (BitVec 5)} {n : BitVec 5} {j : Nat} {e : RecvEnd}

theorem zip_readOf (s0 : State) (reads : List (BitVec 5)) (x : ReadRes) :
    reads.zip (reads.map (s0.readOf x)) = reads.map fun m => (m, s0.readOf x m) := by
  simpa using List.zip_map' (f := id) (g := s0.readOf x) (l := reads)

/-- The windowed reads, of which there is one. -/
theorem filter_zip_readOf (h : reads.filter s0.me.isWin = [n]) (x : ReadRes) :
    ((reads.zip (reads.map (s0.readOf x))).filter fun y => s0.me.isWin y.1) = [(n, x)] := by
  have hn : s0.me.isWin n = true := List.of_mem_filter (h ▸ List.mem_singleton_self n)
  rw [zip_readOf, List.filter_map]
  change List.map _ (reads.filter s0.me.isWin) = _
  rw [h]
  simp [State.readOf, hn]

theorem filter_zip_readOf_port (h : reads.filter s0.me.isWin = [n]) (x : ReadRes) :
    ((reads.zip (reads.map (s0.readOf x))).filter fun y => s0.me.isWin y.1 && portOf y.1 == portOf n) = [(n, x)] := by
  simp only [Bool.and_comm (s0.me.isWin _)]
  rw [← List.filter_filter, filter_zip_readOf h]
  simp

theorem any_psn_readOf (s0 : State) (reads : List (BitVec 5)) (x : ReadRes) :
    ((reads.zip (reads.map (s0.readOf x))).any fun y => y.2.psn) = (reads.filter s0.me.isWin).any fun _ => x.psn := by
  rw [zip_readOf, List.any_map, List.any_filter]
  exact congrArg (reads.any ·) (funext fun m => State.psn_readOf s0 x m)

theorem any_atEnd_readOf (s0 : State) (reads : List (BitVec 5)) (x : ReadRes) :
    ((reads.zip (reads.map (s0.readOf x))).any fun y => y.2.atEnd) =
      (reads.filter s0.me.isWin).any fun _ => x.atEnd := by
  rw [zip_readOf, List.any_map, List.any_filter]
  exact congrArg (reads.any ·) (funext fun m => State.atEnd_readOf s0 x m)

/-- One token received. -/
theorem winCommitReads_token (h : reads.filter s0.me.isWin = [n]) (hp : s0.recvAtPort (portOf n) = some (j, e))
    (v : Word) (p : Bool) :
    winCommitReads s0 s (reads.zip (reads.map (s0.readOf { val := v, psn := p, took := true, atEnd := false }))) =
      (s.takeTokens s0.cur.tile j e 1).noted s0.pcOff p := by
  simp [-List.filter_filter, winCommitReads, filter_zip_readOf h, filter_zip_readOf_port h, any_psn_readOf,
    any_atEnd_readOf, h, hp, State.noted]

/-- The end token met. -/
theorem winCommitReads_end (h : reads.filter s0.me.isWin = [n]) (hp : s0.recvAtPort (portOf n) = some (j, e))
    (hfind : mapFind (s.tile s0.cur.tile).ends j = some (.recv e)) (v : Word) :
    winCommitReads s0 s (reads.zip (reads.map (s0.readOf { val := v, psn := false, took := false, atEnd := true }))) =
      (s.setEnd s0.cur.tile j (.recv e.metEnd)).setEos := by
  simp [-List.filter_filter, winCommitReads, filter_zip_readOf h, filter_zip_readOf_port h, any_psn_readOf,
    any_atEnd_readOf, h, hp, State.takeTokens, hfind]

theorem winCommitReads_two (hn : s0.me.isWin n = true) (hp : s0.recvAtPort (portOf n) = some (j, e)) (v w : Word)
    (p q : Bool) :
    winCommitReads s0 s [(n, { val := v, psn := p, took := true, atEnd := false }),
      (n, { val := w, psn := q, took := true, atEnd := false })] =
      (s.takeTokens s0.cur.tile j e 2).noted s0.pcOff (p || q) := by
  simp [winCommitReads, hn, hp, State.noted]

theorem winCommitWrite_plainDst {dst : Option (BitVec 5)} (h : ∀ d ∈ dst, s0.me.isWin d = false) (v : Word) (p : Bool) :
    winCommitWrite s0 s dst v p = dst.elim s fun d => s.setG d v := by
  cases dst with
  | none => rfl
  | some d => simp [winCommitWrite, h d rfl]

theorem winCommitReads_plain (h : Plain s0 reads) (x : ReadRes) :
    winCommitReads s0 s (reads.zip (reads.map (s0.readOf x))) = s := by
  have hw : reads.filter s0.me.isWin = [] := List.filter_eq_nil_iff.2 fun m hm => by simp [h m hm]
  have hz : ((reads.zip (reads.map (s0.readOf x))).filter fun y => s0.me.isWin y.1) = [] := by
    rw [zip_readOf, List.filter_map]
    exact congrArg (List.map _) hw
  simp [winCommitReads, hz, any_psn_readOf, any_atEnd_readOf, hw]

end

end Sys2Proof.Machine
end

section
/-!
The port window: what each way of meeting a port makes of an instruction (04_scalar_registers.md R147-R151).
-/
namespace Sys2Proof.Machine

/-! ### What an effect leaves of the ports -/

/-- A change that leaves the current slot, its run state, its port bindings and its tile's channel ends. -/
structure KeepsPorts (s t : State) : Prop where
  cur : t.cur = s.cur
  run : t.me.run = s.me.run
  ports : t.me.ports = s.me.ports
  ends : t.myTile.ends = s.myTile.ends

theorem KeepsPorts.refl (s : State) : KeepsPorts s s := ⟨rfl, rfl, rfl, rfl⟩

theorem KeepsPorts.trans {s t u : State} (h : KeepsPorts s t) (h' : KeepsPorts t u) : KeepsPorts s u :=
  ⟨h'.cur.trans h.cur, h'.run.trans h.run, h'.ports.trans h.ports, h'.ends.trans h.ends⟩

theorem keepsPorts_updMe (s : State) {f : Slot → Slot} (hrun : ∀ x, (f x).run = x.run := by exact fun _ => rfl)
    (hports : ∀ x, (f x).ports = x.ports := by exact fun _ => rfl) : KeepsPorts s (s.updMe f) :=
  ⟨rfl, by rw [State.me_updMe, hrun], by rw [State.me_updMe, hports], by rw [State.myTile_updMe]; rfl⟩

theorem Keeps.keepsPorts {s t : State} (h : Keeps Tile.core s t) : KeepsPorts s t where
  cur := h.1
  run := by rw [h.slots.me_eq]
  ports := by rw [h.slots.me_eq]
  ends := by
    rw [State.myTile, State.myTile, h.1]
    exact (h.comp Tile.ends).2 s.cur.tile

theorem keepsPorts_noted (s : State) (off : Nat) (p : Bool) : KeepsPorts s (s.noted off p) := by
  unfold State.noted
  split
  · refine keepsPorts_updMe s (fun x => ?_) (fun x => ?_) <;> unfold Slot.consumePoison <;> split <;> rfl
  · exact .refl s

theorem keepsPorts_adv (s : State) (len : Nat) : KeepsPorts s (s.adv len) := keepsPorts_updMe s

theorem KeepsPorts.sendAtPort {s t : State} (h : KeepsPorts s t) (p : BitVec 4) : t.sendAtPort p = s.sendAtPort p := by
  have hports : (t.slot t.cur.tile t.cur.slot).ports = (s.slot s.cur.tile s.cur.slot).ports := h.ports
  have hends : (t.tile t.cur.tile).ends = (s.tile s.cur.tile).ends := h.ends
  unfold State.sendAtPort State.portEnd
  rw [hports, hends]

@[simp] theorem State.run_noted (s : State) (off : Nat) (p : Bool) : (s.noted off p).me.run = s.me.run :=
  (keepsPorts_noted s off p).run

@[simp] theorem State.run_setG (s : State) (d : BitVec 5) (v : Word) : (s.setG d v).me.run = s.me.run := by
  simp [State.setG]

theorem mapFind_of_portEnd {s : State} {t : Nat} {k : Fin 8} {p : BitVec 4} {j : Nat} {x : EndPt}
    (h : s.portEnd t k p = some (j, x)) : mapFind (s.tile t).ends j = some x := by
  unfold State.portEnd at h
  dsimp only at h
  split at h
  · split at h
    · split at h
      · cases h
        assumption
      · cases h
    · cases h
  · cases h

theorem mapFind_of_recvAtPort {s : State} {p : BitVec 4} {j : Nat} {e : RecvEnd} (h : s.recvAtPort p = some (j, e)) :
    mapFind s.myTile.ends j = some (.recv e) := by
  unfold State.recvAtPort at h
  split at h
  · rename_i hport
    cases h
    exact mapFind_of_portEnd hport
  · cases h

/-! ### A token received -/

/-- A field that is windowed, bound to a receive end whose first token is there. -/
structure TokenThere (s : State) (n : BitVec 5) (j : Nat) (e : RecvEnd) (v : Word) (p : Bool) : Prop where
  port : WinRecv s n j e
  there : 0 < e.avail 1
  token : e.tokenAt s.myTile.mem 0 = (v, p)

/-- An instruction's effect `t`, with one token taken from end `j` and its poison consumed. -/
def State.took (s : State) (j : Nat) (e : RecvEnd) (p : Bool) (t : State) : State :=
  (t.takeTokens s.cur.tile j e 1).noted s.pcOff p

@[simp] theorem State.run_took (s : State) (j : Nat) (e : RecvEnd) (p : Bool) (t : State) :
    (s.took j e p t).me.run = t.me.run := by
  simp [State.took]

section
variable {s s' : State} {reads : List (BitVec 5)} {dst : Option (BitVec 5)} {n : BitVec 5} {j : Nat} {e : RecvEnd}
  {f : State → List Word → Except Stop (State × Word × Bool)} {v w : Word} {vs : List Word} {p q : Bool}

theorem any_isWin_of_alone (h : reads.filter s.me.isWin = [n]) : reads.any s.me.isWin = true := by
  have hn : n ∈ reads.filter s.me.isWin := by simp [h]
  exact List.any_eq_true.2 ⟨n, List.mem_of_mem_filter hn, List.of_mem_filter hn⟩

/-- Where the one windowed source is bound, stage 1 passes. -/
theorem winCheck_alone (h : reads.filter s.me.isWin = [n]) (hd : ∀ x ∈ dst, s.me.isWin x = false)
    (hn : WinRecv s n j e) : winCheck s reads dst = .ok () := by
  rw [winCheck_bound fun m hm hw => ?_, winCheck_plainDst hd]
  have hmn : m = n := List.mem_singleton.1 (h ▸ List.mem_filter.2 ⟨hm, hw⟩)
  rw [hmn, hn.2, Option.isSome_some]

theorem winWait_alone (h : reads.filter s.me.isWin = [n]) (hd : ∀ x ∈ dst, s.me.isWin x = false)
    (hn : WinRecv s n j e) (hav : 0 < e.avail 1 ∨ e.endAfter 0 = true) : winWait s reads dst = .ok () := by
  have hlack : winLacking s reads = [] := by
    rw [winLacking_alone h hn.2, if_neg]
    rintro ⟨h0, hend⟩
    rcases hav with hav | hav
    · omega
    · simp [hav] at hend
  rw [winWait_plainDst hd, if_pos hlack]

/-- An operation whose one windowed source receives a token. -/
theorem runBody_receive (hs : Ready s) (h : reads.filter s.me.isWin = [n]) (hd : ∀ x ∈ dst, s.me.isWin x = false)
    (ht : TokenThere s n j e v p) (hvs : reads.map (s.valueOf v) = vs) (hf : f s vs = .ok (s', w, q))
    (hrun : s'.me.run = .running) :
    runBody s (scalarOp reads dst f) = .next (dst.elim (s.took j e p s') fun d => (s.took j e p s').setG d w).done := by
  obtain ⟨hn, hav, htok⟩ := ht
  have hreads := winReads_alone h fun r => winReads_cons_token (r := r) hn rfl hav htok
  have hf' : f s ((reads.map (s.readOf ⟨v, p, true, false⟩)).map ReadRes.val) = .ok (s', w, q) := by
    rw [List.map_map, ← hf, ← hvs]
    exact congrArg (fun g => f s (reads.map g)) (funext fun m => State.val_readOf ..)
  refine runBody_next hs ?_ ?_
  · rw [scalarOp_windowed (.inl (any_isWin_of_alone h)),
      windowOp_ok (winCheck_alone h hd hn) (winWait_alone h hd hn (.inl hav)) hreads hf', winCommitReads_token h hn.2,
      winCommitWrite_plainDst hd]
    rfl
  · cases dst <;> simpa using hrun

/-- An operation whose one windowed source meets the end token of a channel without its trap-on-end bit. -/
theorem runBody_meetEnd (hs : Ready s) (h : reads.filter s.me.isWin = [n]) (hd : ∀ x ∈ dst, s.me.isWin x = false)
    (hn : WinRecv s n j e) (hav : e.avail 1 = 0) (hend : e.endAfter 0 = true) (htoe : e.toe = false)
    (hvs : reads.map (s.valueOf 0) = vs) (hf : f s vs = .ok (s', w, q)) (hk : KeepsPorts s s') :
    runBody s (scalarOp reads dst f) =
      .next (dst.elim (s'.setEnd s.cur.tile j (.recv e.metEnd)).setEos
        fun d => ((s'.setEnd s.cur.tile j (.recv e.metEnd)).setEos).setG d w).done := by
  have hreads := winReads_alone h fun r => winReads_cons_end (r := r) hn hav htoe
  have hf' : f s ((reads.map (s.readOf ⟨0, false, false, true⟩)).map ReadRes.val) = .ok (s', w, q) := by
    rw [List.map_map, ← hf, ← hvs]
    exact congrArg (fun g => f s (reads.map g)) (funext fun m => State.val_readOf ..)
  have hfind : mapFind (s'.tile s.cur.tile).ends j = some (.recv e) := by
    have hends := hk.ends
    rw [State.myTile, hk.cur] at hends
    rw [hends]
    exact mapFind_of_recvAtPort hn.2
  refine runBody_next hs ?_ ?_
  · rw [scalarOp_windowed (.inl (any_isWin_of_alone h)),
      windowOp_ok (winCheck_alone h hd hn) (winWait_alone h hd hn (.inr hend)) hreads hf', winCommitReads_end h hn.2 hfind,
      winCommitWrite_plainDst hd]
  · have hrun := hk.run.trans hs.2
    cases dst <;> simpa [State.setEos] using hrun

/-! ### Two tokens of one port -/

theorem RecvEnd.avail_one_of_two (h : 1 < e.avail 2) : 0 < e.avail 1 := by
  unfold RecvEnd.avail availFrom at h ⊢
  split at h
  · simp_all
  · omega

theorem winLacking_two (hn : WinRecv s n j e) (hav : 1 < e.avail 2) : winLacking s [n, n] = [] := by
  obtain ⟨hwin, hport⟩ := hn
  simp [winLacking, hwin, hport, Nat.not_lt.2 hav]

/-- An operation both of whose sources are windowed and name one port. -/
theorem runBody_receive_two {v' : Word} {p' : Bool} (hs : Ready s) (hd : ∀ x ∈ dst, s.me.isWin x = false)
    (hn : WinRecv s n j e) (hav : 1 < e.avail 2) (ht0 : e.tokenAt s.myTile.mem 0 = (v, p))
    (ht1 : e.tokenAt s.myTile.mem 1 = (v', p')) (hf : f s [v, v'] = .ok (s', w, q)) (hrun : s'.me.run = .running) :
    let t := (s'.takeTokens s.cur.tile j e 2).noted s.pcOff (p || p')
    runBody s (scalarOp [n, n] dst f) = .next (dst.elim t fun d => t.setG d w).done := by
  have hcheck : winCheck s [n, n] dst = .ok () := by
    rw [winCheck_bound fun m hm _ => ?_, winCheck_plainDst hd]
    have hmn : m = n := by simpa using hm
    rw [hmn, hn.2, Option.isSome_some]
  have hwait : winWait s [n, n] dst = .ok () := by rw [winWait_plainDst hd, if_pos (winLacking_two hn hav)]
  have hreads : winReads s [] [n, n] = .ok [⟨v, p, true, false⟩, ⟨v', p', true, false⟩] := by
    rw [winReads_cons_token (k := 0) hn rfl (RecvEnd.avail_one_of_two hav) ht0,
      winReads_cons_token (k := 1) hn (by simp) hav ht1]
    rfl
  refine runBody_next hs ?_ ?_
  · rw [scalarOp_windowed (.inl (by simp [hn.1])), windowOp_ok hcheck hwait hreads hf, winCommitWrite_plainDst hd]
    exact congrArg (fun t => Except.ok (dst.elim t fun d => t.setG d w)) (winCommitReads_two hn.1 hn.2 v v' p p')
  · cases dst <;> simpa using hrun

/-! ### A result sent -/

/-- An operation whose destination is windowed and whose sources are not. -/
theorem runBody_send {d : BitVec 5} {e : SendEnd} (hs : Ready s) (hr : Plain s reads) (hd : WinSend s d j e)
    (hc : 0 < e.credits) (hrel : s.released = true) (hf : f s (reads.map s.g) = .ok (s', w, q))
    (hk : KeepsPorts s s') :
    runBody s (scalarOp reads (some d) f) = .next (s'.putTokens s.cur.tile j e [(w, q)]).done := by
  have hcheck : winCheck s reads (some d) = .ok () := (winCheck_plainReads hr).trans (winCheck_send hd)
  have hwait : winWait s reads (some d) = .ok () := by
    rw [winWait_send hr hd, if_neg hc.ne', if_neg (by simp [hrel])]
  have hreads := winReads_plain (seen := []) hr ⟨0, false, false, false⟩
  have hvals : (reads.map (s.readOf ⟨0, false, false, false⟩)).map ReadRes.val = reads.map s.g := by
    rw [List.map_map]
    exact List.map_congr_left fun m hm => (State.val_readOf ..).trans (State.valueOf_plain (hr m hm) _)
  obtain ⟨hwin, hport, -⟩ := hd
  refine runBody_next hs ?_ (by simpa using hk.run.trans hs.2)
  rw [scalarOp_windowed (.inr (by simp [hwin])), windowOp_ok hcheck hwait hreads (by rw [hvals, hf]),
    winCommitReads_plain hr]
  simp [winCommitWrite, hwin, hk.sendAtPort, hport, hk.cur]

end

/-! ### Waits and traps -/

section
variable {s : State} {reads : List (BitVec 5)} {dst : Option (BitVec 5)} {n : BitVec 5} {j : Nat}
  {f : State → List Word → Except Stop (State × Word × Bool)}

/-- A body that waits, having asked for nothing that changed the state. -/
theorem runBody_waitIn {b : Body} {k : WaitKind} (hs : Ready s) (hb : b s = .error (.waitIn s k)) :
    runBody s b = .next (s.block k) := by
  have hsame : s.settle (.error (.waitIn s k)) = s.settle (.error (.wait k)) := rfl
  rw [← runBody_wait (b := fun _ => .error (.wait k)) hs rfl, runBody_up s b hs.1, runBody_up s _ hs.1, hb, hsame]

/-- A body that traps in a state it has changed, the slot still running. -/
theorem runBody_error_trapIn {s' : State} {b : Body} {c : BitVec 8} {v : Word} (hs : Ready s)
    (hrun : s'.me.run = .running) (hb : b s = .error (.trapIn s' c v)) : runBody s b = .next (s'.trapAt c v s.me.pc) := by
  obtain ⟨hcur, hset, hwritten⟩ := trapDone_trapAt hrun c v s.me.pc
  have htidy : (s'.trapAt c v s.me.pc).updMe Slot.tidyStop = s'.trapAt c v s.me.pc := by
    rw [State.updMe, hcur, State.modSlot_of_fixed hwritten hset.tidyStop_eq]
  rw [runBody_up s b hs.1, hb]
  exact congrArg _ htidy

theorem readAhead_unspilled {e : RecvEnd} {k : Nat} (h : mapFind s.myTile.ends j = some (.recv e))
    (hsp : e.spilled = []) : s.readAhead [(j, k)] = s := by
  have hfind : mapFind (s.tile s.cur.tile).ends j = some (.recv e) := h
  simp [State.readAhead, State.spillRefill, hfind, hsp]

theorem runBody_await_token {e : RecvEnd} (hs : Ready s) (h : reads.filter s.me.isWin = [n])
    (hd : ∀ x ∈ dst, s.me.isWin x = false) (hn : WinRecv s n j e) (hav : e.avail 1 = 0) (hend : e.endAfter 0 = false)
    (hsp : e.spilled = []) : runBody s (scalarOp reads dst f) = .next (s.block (.recv [(j, 1)])) := by
  have hlack : winLacking s reads = [(j, 1)] := by rw [winLacking_alone h hn.2, if_pos ⟨hav, hend⟩]
  have hwait : winWait s reads dst = .error (.waitIn s (.recv [(j, 1)])) := by
    rw [winWait_plainDst hd, hlack, if_neg (by simp), waitRecv, readAhead_unspilled (mapFind_of_recvAtPort hn.2) hsp]
  refine runBody_waitIn hs ?_
  rw [scalarOp_windowed (.inl (any_isWin_of_alone h)), windowOp_wait_error (winCheck_alone h hd hn) hwait]

theorem runBody_trap_on_end {e : RecvEnd} (hs : Ready s) (h : reads.filter s.me.isWin = [n])
    (hd : ∀ x ∈ dst, s.me.isWin x = false) (hn : WinRecv s n j e) (hav : e.avail 1 = 0) (hend : e.endAfter 0 = true)
    (htoe : e.toe = true) : runBody s (scalarOp reads dst f) =
      .next ((s.setEnd s.cur.tile j (.recv e.metEnd)).trapAt cCHANNEL_BROKEN (brokenVal (portOf n)) s.me.pc) := by
  have hreads := winReads_alone_error h fun r => winReads_cons_trap (r := r) hn hav hend htoe
  refine runBody_error_trapIn hs (by simpa using hs.2) ?_
  rw [scalarOp_windowed (.inl (any_isWin_of_alone h)),
    windowOp_reads_error (winCheck_alone h hd hn) (winWait_alone h hd hn (.inr hend)) hreads]

theorem runBody_await_credit {d : BitVec 5} {e : SendEnd} (hs : Ready s) (hr : Plain s reads) (hd : WinSend s d j e)
    (hc : e.credits = 0) : runBody s (scalarOp reads (some d) f) = .next (s.block (.send j 1 [])) := by
  refine runBody_waitIn hs ?_
  rw [scalarOp_windowed (.inr (by simp [hd.1])), windowOp_wait_error ((winCheck_plainReads hr).trans (winCheck_send hd))]
  rw [winWait_send hr hd, if_pos hc]

theorem runBody_await_release {d : BitVec 5} {e : SendEnd} (hs : Ready s) (hr : Plain s reads) (hd : WinSend s d j e)
    (hc : 0 < e.credits) (hrel : s.released = false) :
    runBody s (scalarOp reads (some d) f) = .next (s.block .issue) := by
  refine runBody_wait hs ?_
  rw [scalarOp_windowed (.inr (by simp [hd.1])), windowOp_wait_error ((winCheck_plainReads hr).trans (winCheck_send hd))]
  rw [winWait_send hr hd, if_neg hc.ne', if_pos hrel]

theorem runBody_unbound_source (hs : Ready s) (h : reads.find? s.me.isWin = some n)
    (hp : s.recvAtPort (portOf n) = none) : runBody s (scalarOp reads dst f) =
      .next (s.trapAt cCHANNEL_BROKEN (brokenVal (portOf n)) s.me.pc) := by
  have hany : reads.any s.me.isWin = true := List.any_eq_true.2 ⟨n, List.mem_of_find?_eq_some h, List.find?_some h⟩
  refine runBody_error_trap hs ?_
  rw [scalarOp_windowed (.inl hany), windowOp_check_error (winCheck_unboundSource h hp)]

theorem runBody_unbound_dst {d : BitVec 5} (hs : Ready s) (hr : Plain s reads) (hd : s.me.isWin d = true)
    (hp : s.sendAtPort (portOf d) = none) : runBody s (scalarOp reads (some d) f) =
      .next (s.trapAt cCHANNEL_BROKEN (brokenVal (portOf d)) s.me.pc) := by
  refine runBody_error_trap hs ?_
  rw [scalarOp_windowed (.inr (by simp [hd])),
    windowOp_check_error ((winCheck_plainReads hr).trans (winCheck_unboundDst hd hp))]

end

end Sys2Proof.Machine
end

section
/-!
The instructions of the windowed groups (04_scalar_registers.md R144) as operations on operand values, and the loads and
stores among them (08_memories.md R273, R274).
-/
namespace Sys2Proof.Machine

/-! ### Integer operations -/

/-- An operation of two sources, on the values a field that is g0 can have. -/
theorem exec_twoSource {i : Instr} {len : Nat} {d a t : BitVec 5} {f : Word → Word → Word}
    (h : TwoSource i len d a t f) :
    ∃ f', (∀ s, exec i s = runBody s (aluRR len d a t f')) ∧
      ∀ x y, (a = 0 → x = 0) → (t = 0 → y = 0) → f' x y = f x y := by
  cases h with
  | add => exact ⟨_, fun _ => rfl, fun x y _ _ => BitVec.add_def x y⟩
  | sub => exact ⟨_, fun _ => rfl, fun x y _ _ => sub_eq_ofInt x y⟩
  | and | or | xor | andn => exact ⟨_, fun _ => rfl, fun _ _ _ _ => rfl⟩
  | sll => exact ⟨_, fun _ => rfl, fun x y _ _ => shiftLeft_eq_ofNat x _⟩
  | srl => exact ⟨_, fun _ => rfl, fun x y _ _ => ushiftRight_eq_ofNat x _⟩
  | sra => exact ⟨_, fun _ => rfl, fun x y _ _ => sshiftRight_eq_ofInt x _⟩
  | slt => exact ⟨_, fun _ => rfl, fun x y _ _ => aluSlt_eq x y⟩
  | sltu => exact ⟨_, fun _ => rfl, fun x y _ _ => aluSltu_eq x y⟩
  | min => exact ⟨_, fun _ => rfl, fun x y _ _ => aluMin_eq x y⟩
  | max => exact ⟨_, fun _ => rfl, fun x y _ _ => aluMax_eq x y⟩
  | minu => exact ⟨_, fun _ => rfl, fun x y _ _ => aluMinu_eq x y⟩
  | maxu => exact ⟨_, fun _ => rfl, fun x y _ _ => aluMaxu_eq x y⟩
  | rol => exact ⟨_, fun _ => rfl, fun x y _ _ => rotateLeft_eq x _ (shamt_lt y)⟩
  | rotr => exact ⟨_, fun _ => rfl, fun x y _ _ => rotateRight_eq x _ (shamt_lt y)⟩
  | mul => exact ⟨_, fun _ => rfl, fun x y _ _ => BitVec.mul_def⟩
  | mulh | mulhsu => exact ⟨_, fun _ => rfl, fun _ _ _ _ => rfl⟩
  | mulhu => exact ⟨_, fun _ => rfl, fun x y _ _ => mulHigh_eq_ofNat x.toNat y.toNat⟩
  | divu => exact ⟨_, fun _ => rfl, fun x y _ _ => aluDivu_eq x y⟩
  | div => exact ⟨_, fun _ => rfl, fun x y _ _ => aluDiv_eq x y⟩
  | remu => exact ⟨_, fun _ => rfl, fun x y _ _ => aluRemu_eq x y⟩
  | rem => exact ⟨_, fun _ => rfl, fun x y _ _ => aluRem_eq x y⟩
  | cMv => exact ⟨_, fun _ => rfl, fun x y _ hy => by rw [hy rfl]; exact BitVec.add_zero x⟩
  | cAdd => exact ⟨_, fun _ => rfl, fun x y _ _ => BitVec.add_def x y⟩
  | cNop => exact ⟨_, fun _ => rfl, fun x y hx hy => by rw [hx rfl, hy rfl]; rfl⟩

theorem exec_oneSource {i : Instr} {len : Nat} {d a : BitVec 5} {f : Word → Word} (h : OneSource i len d a f) :
    ∃ f', (∀ s, exec i s = runBody s (aluR len d a f')) ∧ ∀ x, f' x = f x := by
  cases h with
  | clz => exact ⟨_, fun _ => rfl, aluClz_eq⟩
  | ctz => exact ⟨_, fun _ => rfl, aluCtz_eq⟩
  | popc => exact ⟨_, fun _ => rfl, aluPopc_eq⟩
  | rev8 => exact ⟨_, fun _ => rfl, aluRev8_eq⟩
  | sextB | sextH | sextW => exact ⟨_, fun _ => rfl, fun x => sext_eq (by decide) x⟩
  | addi i | cAddi _ i => exact ⟨_, fun _ => rfl, fun x => add_simm x i⟩
  | andi | ori | xori => exact ⟨_, fun _ => rfl, fun _ => rfl⟩
  | slti i => exact ⟨_, fun _ => rfl, fun x => aluSlt_simm (by decide) x i⟩
  | sltiu i => exact ⟨_, fun _ => rfl, fun x => aluSltu_eq x _⟩
  | slli h => exact ⟨_, fun _ => rfl, fun x => shiftLeft_eq_ofNat x _⟩
  | srli h => exact ⟨_, fun _ => rfl, fun x => ushiftRight_eq_ofNat x _⟩
  | srai h => exact ⟨_, fun _ => rfl, fun x => sshiftRight_eq_ofInt x _⟩

/-- The effect of an operation without a source that gives `v`. -/
def putEffect (len : Nat) (v : State → Word) (st : State) (_ : List Word) : Except Stop (State × Word × Bool) :=
  .ok (st.adv len, v st, false)

theorem exec_noSource {i : Instr} {len : Nat} {d : BitVec 5} {f : State → Word} (h : NoSource i len d f) :
    ∃ f', (∀ s, exec i s = runBody s (scalarOp [] (some d) (putEffect len f'))) ∧ ∀ s, f' s = f s := by
  cases h with
  | ldhi i | cLdhi _ i => exact ⟨fun _ => simm i <<< 12, fun _ => rfl, fun _ => ofInt_shiftLeft _ 12⟩
  | addpc i => exact ⟨fun st => st.me.pc + simm i <<< 12, fun _ => rfl, fun _ => add_simm_shiftLeft ..⟩
  | oxr d a => exact ⟨fun st => st.e a, fun _ => rfl, fun _ => rfl⟩

/-! ### Loads and stores -/

theorem sextWord_eq (v : Nat) {n : Nat} (hn : 0 < n) : sextWord v n = (BitVec.ofNat n v).signExtend 64 := by
  have h : signExtend v n = (BitVec.ofNat n v).toInt := by
    rw [signExtend, if_neg hn.ne', BitVec.toInt_eq_toNat_cond, BitVec.toNat_ofNat]
    have h2 : 2 ^ n = 2 * 2 ^ (n - 1) := by rw [← Nat.pow_succ', Nat.succ_eq_add_one, Nat.sub_add_cancel hn]
    split <;> split <;> omega
  rw [sextWord, h]
  rfl

theorem add_ofNat_eq (x : Word) (n : Nat) : x + BitVec.ofNat 64 n = BitVec.ofInt 64 (x.toInt + (n : Int)) := by
  rw [BitVec.ofInt_add, BitVec.ofInt_toInt, BitVec.ofInt_natCast]

/-- The effect of a load, from the value of its base. -/
def loadEffect (len n : Nat) (ext : Nat → Word) (imm : Word) (st : State) (vs : List Word) :
    Except Stop (State × Word × Bool) :=
  match st.scalarRead (vs.getD 0 0 + imm) n with
  | .ok (st', v, psn) => .ok (st'.adv len, ext v, psn)
  | .error e => .error e

theorem exec_load {i : Instr} {len n : Nat} {ext : Nat → Word} {off : Int} {d a : BitVec 5}
    (h : LoadForm i len n ext off d a) : ∃ ext' imm,
      (∀ s, exec i s = runBody s (scalarOp [a] (some d) (loadEffect len n ext' imm))) ∧ (∀ v, ext' v = ext v) ∧
      ∀ x : Word, x + imm = BitVec.ofInt 64 (x.toInt + off) := by
  cases h with
  | ldB i | ldH i | ldW i =>
    exact ⟨_, simm i, fun _ => rfl, fun v => sextWord_eq v (by decide), fun x => add_simm x i⟩
  | ldD i | ldBu i | ldHu i | ldWu i | ldAcq i => exact ⟨_, simm i, fun _ => rfl, fun _ => rfl, fun x => add_simm x i⟩
  | cLd d i =>
    refine ⟨_, BitVec.ofNat 64 (8 * i.toNat), fun _ => rfl, fun _ => rfl, fun x => ?_⟩
    rw [add_ofNat_eq]
    push_cast
    rfl

/-- A store is its effect, except that ST.REL begins once the slot's earlier writes are performed. -/
theorem exec_store {i : Instr} {len n : Nat} {off : Int} {d a : BitVec 5} (h : StoreForm i len n off d a) :
    ∃ f imm, (∀ s, exec i s = runBody s (scalarOp [a, d] none f)) ∧
      (∀ x : Word, x + imm = BitVec.ofInt 64 (x.toInt + off)) ∧
      ∀ st vs, ((∃ x y z, i = .stRel x y z) → st.released = true) → f st vs = storeEffect len n imm st vs := by
  cases h with
  | stB i | stH i | stW i | stD i => exact ⟨_, simm i, fun _ => rfl, fun x => add_simm x i, fun _ _ _ => rfl⟩
  | stRel i => exact ⟨_, simm i, fun _ => rfl, fun x => add_simm x i, fun _ _ h => if_pos (h ⟨_, _, _, rfl⟩)⟩
  | cSt d i =>
    refine ⟨_, BitVec.ofNat 64 (8 * i.toNat), fun _ => rfl, fun x => ?_, fun _ _ _ => rfl⟩
    rw [add_ofNat_eq]
    push_cast
    rfl

/-- Following forwarding entries counts them, and changes nothing else of a tile. -/
theorem keeps_countHops (n : Nat) (s : State) (t : Nat) : Keeps Tile.core s (s.countHops n t) := by
  induction n generalizing s t with
  | zero => exact .refl s
  | succ n ih =>
    unfold State.countHops
    split
    · split
      · exact .refl s
      · exact (keeps_modTile s t).trans (ih ..)
    · exact .refl s

theorem keeps_crossed (s : State) (a : Word) : Keeps Tile.core s (s.crossed a) := by
  unfold State.crossed
  split
  · split
    · split
      · exact .refl s
      · exact keeps_countHops ..
    · exact .refl s
  · exact .refl s

theorem keeps_slotWrite (s : State) (t u off : Nat) (bs : List Byte) (p : Bool) :
    Keeps Tile.slots s (s.slotWrite t u off bs p) := by
  have hwrite : Keeps Tile.slots s (s.modTile u fun x => x.writeBytes off bs p) := keeps_modTile s u
  refine hwrite.trans ?_
  unfold State.slotWrite State.injectPoison
  split
  · exact (keeps_modTile _ u).trans (keeps_modTile _ t)
  · exact .refl _

section
variable {s : State} {x : Word} {n u o : Nat}

/-- A read of tile memory that finds no error. -/
theorem readTile_noErrors {t : State} (h : Keeps Tile.core s t) (herr : (s.tile u).errs = 0) :
    t.readTile u o n = .ok (t, Mem.readBytes (s.tile u).mem o n, (s.tile u).poisonAt o n) := by
  have herr' : (t.tile u).errs = 0 := ((h.comp Tile.errs).2 u).trans herr
  have hmem : (t.tile u).mem = (s.tile u).mem := (h.comp Tile.mem).2 u
  have hpois : (t.tile u).poisonAt o n = (s.tile u).poisonAt o n := (h.comp (Tile.poisonAt · o n)).2 u
  simp [State.readTile, Tile.findErrors, herr', hmem, hpois]

theorem scalarRead_tile (hc : s.scalarCheck false x n = .ok (.tile u o)) (ho : o < 0xE0000)
    (herr : (s.tile u).errs = 0) : s.scalarRead x n =
      .ok ((s.crossed x).noted s.pcOff ((s.tile u).poisonAt o n), Mem.load (s.tile u).mem o n,
        (s.tile u).poisonAt o n) := by
  rw [State.scalarRead, hc]
  simp only [Nat.not_le.2 ho, if_false, readTile_noErrors (keeps_crossed s x) herr]
  rfl

theorem scalarWrite_tile {v : Word} (hc : s.scalarCheck true x n = .ok (.tile u o)) (ho : o < 0xE0000) :
    s.scalarWrite x n v = .ok ((s.crossed x).slotWrite s.cur.tile u o (toBytes n v.toNat) false) := by
  rw [State.scalarWrite, hc]
  simp only [Nat.not_le.2 ho, if_false]

theorem loadEffect_tile {len : Nat} {ext : Nat → Word} {v imm : Word} (hx : v + imm = x)
    (hc : s.scalarCheck false x n = .ok (.tile u o)) (ho : o < 0xE0000) (herr : (s.tile u).errs = 0) :
    loadEffect len n ext imm s [v] =
      .ok (((s.crossed x).noted s.pcOff ((s.tile u).poisonAt o n)).adv len, ext (Mem.load (s.tile u).mem o n),
        (s.tile u).poisonAt o n) := by
  have hread : s.scalarRead ([v].getD 0 0 + imm) n = _ := (congrArg (s.scalarRead · n) hx).trans (scalarRead_tile hc ho herr)
  rw [loadEffect, hread]

theorem storeEffect_tile {len : Nat} {v w imm : Word} (hx : v + imm = x)
    (hc : s.scalarCheck true x n = .ok (.tile u o)) (ho : o < 0xE0000) :
    storeEffect len n imm s [v, w] =
      .ok (((s.crossed x).slotWrite s.cur.tile u o (toBytes n w.toNat) false).adv len, 0, false) := by
  have hwrite : s.scalarWrite ([v, w].getD 0 0 + imm) n ([v, w].getD 1 0) = _ :=
    (congrArg (s.scalarWrite · n w) hx).trans (scalarWrite_tile hc ho)
  rw [storeEffect, hwrite]

theorem keepsPorts_load (s : State) (x : Word) (off len : Nat) (p : Bool) :
    KeepsPorts s (((s.crossed x).noted off p).adv len) :=
  ((keeps_crossed s x).keepsPorts.trans (keepsPorts_noted ..)).trans (keepsPorts_adv ..)

theorem me_slotWrite_crossed (s : State) (x : Word) (t u off : Nat) (bs : List Byte) (p : Bool) :
    ((s.crossed x).slotWrite t u off bs p).me = s.me :=
  ((keeps_crossed s x).slots.trans (keeps_slotWrite ..)).me_eq

end

/-- Every instruction of the windowed groups is an operation on its reads and its destination. -/
theorem exec_windowed {i : Instr} {rs : List (BitVec 5)} {d : Option (BitVec 5)} (h : Windowed i rs d) :
    ∃ f, ∀ s, exec i s = runBody s (scalarOp rs d f) := by
  cases h with
  | two _ _ _ _ _ _ h => obtain ⟨_, hexec, -⟩ := exec_twoSource h; exact ⟨_, hexec⟩
  | one _ _ _ _ _ h => obtain ⟨_, hexec, -⟩ := exec_oneSource h; exact ⟨_, hexec⟩
  | none _ _ _ _ h => obtain ⟨_, hexec, -⟩ := exec_noSource h; exact ⟨_, hexec⟩
  | branch _ _ _ _ _ _ h => obtain ⟨_, _, hexec, -⟩ := exec_branch h; exact ⟨_, hexec⟩
  | jal m d => exact ⟨_, fun _ => rfl⟩
  | jalr m d a => exact ⟨_, fun _ => rfl⟩
  | oxl d a => exact ⟨_, fun _ => rfl⟩
  | load _ _ _ _ _ _ _ h => obtain ⟨_, _, hexec, -⟩ := exec_load h; exact ⟨_, hexec⟩
  | store _ _ _ _ _ _ h => obtain ⟨_, _, hexec, -⟩ := exec_store h; exact ⟨_, hexec⟩

end Sys2Proof.Machine
end

section
/-!
The port window: the statements of R146-R151 over the instructions of the windowed groups.
-/
namespace Sys2Proof.Machine

theorem Plain.of_singleton {s : State} {n : BitVec 5} (h : Plain s [n]) : s.me.isWin n = false := h n (by simp)

theorem Plain.dst {s : State} {d : BitVec 5} (h : Plain s [d]) : ∀ x ∈ some d, s.me.isWin x = false := by
  intro x hx
  obtain rfl := Option.mem_some.1 hx
  exact h.of_singleton

theorem State.g_of_zero {s : State} {n : BitVec 5} (h : n = 0) : s.g n = 0 := by rw [h]; rfl

theorem ne_zero_of_isWin {s : State} {n : BitVec 5} (h : s.me.isWin n = true) : n ≠ 0 := by
  rintro rfl
  simp [Slot.isWin] at h

theorem windowStops : WindowStops := by
  intro i rs d s h hs
  obtain ⟨f, hexec⟩ := exec_windowed h
  rw [hexec]
  refine ⟨fun n j e hn ha hav hend hsp => ?_, fun n j e hd hr hn hc => ?_, fun n j e hd hr hn hc hrel => ?_,
    fun n hn hp => ?_, fun n hd hr hn hp => ?_, fun n j e hn ha hav hend htoe => ?_⟩
  · exact runBody_await_token hs ha.1 ha.2 hn hav hend hsp
  · subst hd
    exact runBody_await_credit hs hr hn hc
  · subst hd
    exact runBody_await_release hs hr hn hc hrel
  · exact runBody_unbound_source hs hn hp
  · subst hd
    exact runBody_unbound_dst hs hr hn hp
  · exact runBody_trap_on_end hs ha.1 ha.2 hn hav hend htoe

theorem windowReceive : WindowReceive := by
  intro i len d a t f s j e h hs hn hd
  obtain ⟨f', hexec, hf⟩ := exec_twoSource h
  have ha : a = 0 → ∀ v : Word, v = 0 := fun h0 => absurd h0 (ne_zero_of_isWin hn.1)
  have halone (ht : Plain s [t]) : [a, t].filter s.me.isWin = [a] := by simp [hn.1, ht.of_singleton]
  have hvals (ht : Plain s [t]) (v : Word) : [a, t].map (s.valueOf v) = [v, s.g t] := by
    simp [State.valueOf_win hn.1, State.valueOf_plain ht.of_singleton]
  rw [hexec, aluRR]
  refine ⟨fun v p ht hav htok => ?_, fun v w p q hta hav ht0 ht1 => ?_, fun ht hav hend htoe => ?_⟩
  · rw [runBody_receive hs (halone ht) hd.dst ⟨hn, hav, htok⟩ (hvals ht v) rfl (by simpa using hs.2)]
    rw [← hf v (s.g t) (fun h0 => ha h0 v) State.g_of_zero]
    rfl
  · subst hta
    rw [runBody_receive_two hs hd.dst hn hav ht0 ht1 rfl (by simpa using hs.2)]
    rw [← hf v w (fun h0 => ha h0 v) (fun h0 => ha h0 w)]
    rfl
  · rw [runBody_meetEnd hs (halone ht) hd.dst hn hav hend htoe (hvals ht 0) rfl (keepsPorts_adv s len)]
    rw [← hf 0 (s.g t) (fun h0 => ha h0 0) State.g_of_zero]
    rfl

theorem windowSend : WindowSend := by
  intro i len d a t f s j e h hs hr hd hc hrel
  obtain ⟨f', hexec, hf⟩ := exec_twoSource h
  rw [hexec, aluRR, runBody_send hs hr hd hc hrel rfl (keepsPorts_adv s len), ← hf _ _ State.g_of_zero State.g_of_zero]
  rfl

/-! ### The other windowed groups (R144), a token received -/

section
variable {s : State} {n : BitVec 5} {j : Nat} {e : RecvEnd} {v : Word} {p : Bool}

theorem TokenThere.alone (ht : TokenThere s n j e v p) : [n].filter s.me.isWin = [n] := by simp [ht.port.1]

theorem TokenThere.value (ht : TokenThere s n j e v p) : [n].map (s.valueOf v) = [v] := by
  simp [State.valueOf_win ht.port.1]

theorem oneSource_receive (hs : Ready s) (ht : TokenThere s n j e v p) {i : Instr} {len : Nat} {d : BitVec 5}
    {f : Word → Word} (h : OneSource i len d n f) (hd : Plain s [d]) :
    exec i s = .next (((s.took j e p (s.adv len)).setG d (f v)).done) := by
  obtain ⟨f', hexec, hf⟩ := exec_oneSource h
  rw [hexec, aluR, runBody_receive hs ht.alone hd.dst ht ht.value rfl (by simpa using hs.2), ← hf]
  rfl

theorem oxl_receive (hs : Ready s) (ht : TokenThere s n j e v p) (d : BitVec 3) :
    exec (.oxl d n) s = .next (s.took j e p ((s.adv 4).updMe fun x => x.setE d v)).done := by
  change execOxl d n s = _
  rw [execOxl, runBody_receive hs ht.alone (by simp) ht ht.value rfl (by simpa using hs.2)]
  rfl

theorem branch_receive (hs : Ready s) (ht : TokenThere s n j e v p) {i : Instr} {len : Nat} {t : BitVec 5} {o : Int}
    {c : Word → Word → Bool} (h : Branch i len n t o c) (hp : Plain s [t]) :
    let target := BitVec.ofInt 64 (s.me.pc.toInt + 2 * o)
    (c v (s.g t) = false → exec i s = .next (s.took j e p (s.adv len)).done) ∧
    (c v (s.g t) = true → s.myTile.checkTarget target = none →
      exec i s = .next (s.took j e p (s.updMe fun x => { x with pc := target })).done) := by
  obtain ⟨off, c', hexec, hoff, hc⟩ := exec_branch h
  have halone : [n, t].filter s.me.isWin = [n] := by simp [ht.port.1, hp.of_singleton]
  have hvals : [n, t].map (s.valueOf v) = [v, s.g t] := by
    simp [State.valueOf_win ht.port.1, State.valueOf_plain hp.of_singleton]
  rw [hexec, ← hoff, ← hc v (s.g t) State.g_of_zero]
  refine ⟨fun hn => ?_, fun hy hpass => ?_⟩
  · exact runBody_receive hs halone (by simp) ht hvals (branchEffect_notTaken hn) (by simpa using hs.2)
  · exact runBody_receive hs halone (by simp) ht hvals (branchEffect_taken hy hpass) (by simpa using hs.2)

theorem jalr_receive (hs : Ready s) (ht : TokenThere s n j e v p) (m : BitVec 13) {d : BitVec 5} (hd : Plain s [d]) :
    let target := BitVec.ofInt 64 (v.toInt + m.toInt)
    s.myTile.checkTarget target = none →
      exec (.jalr m d n) s =
        .next (((s.took j e p (s.updMe fun x => { x with pc := target })).setG d (s.me.pc + 4)).done) := by
  intro target hpass
  have htarget : v + simm m = target := add_simm v m
  have hexec : exec (.jalr m d n) s =
      runBody s (scalarOp [n] (some d) (jumpEffect 4 fun _ vs => vs.getD 0 0 + simm m)) := rfl
  rw [← htarget] at hpass ⊢
  rw [hexec]
  exact runBody_receive hs ht.alone hd.dst ht ht.value (jumpEffect_pass hpass) (by simpa using hs.2)

theorem load_receive (hs : Ready s) (ht : TokenThere s n j e v p) {i : Instr} {len b u o : Nat} {ext : Nat → Word}
    {off : Int} {d : BitVec 5} (h : LoadForm i len b ext off d n) (hd : Plain s [d]) :
    let x := BitVec.ofInt 64 (v.toInt + off)
    s.scalarCheck false x b = .ok (.tile u o) → o < 0xE0000 → (s.tile u).errs = 0 →
      exec i s = .next (((s.took j e p (((s.crossed x).noted s.pcOff ((s.tile u).poisonAt o b)).adv len)).setG d
        (ext (Mem.load (s.tile u).mem o b))).done) := by
  intro x hcheck ho herr
  obtain ⟨ext', imm, hexec, hext, himm⟩ := exec_load h
  rw [hexec, ← hext]
  exact runBody_receive hs ht.alone hd.dst ht ht.value (loadEffect_tile (himm v) hcheck ho herr)
    ((keepsPorts_load ..).run.trans hs.2)

theorem store_receive (hs : Ready s) (ht : TokenThere s n j e v p) {i : Instr} {len b u o : Nat} {off : Int}
    {d a : BitVec 5} {base data : Word} (h : StoreForm i len b off d a)
    (hrel : (∃ x y z, i = .stRel x y z) → s.released = true)
    (hops : (a = n ∧ Plain s [d] ∧ base = v ∧ data = s.g d) ∨ (d = n ∧ Plain s [a] ∧ base = s.g a ∧ data = v)) :
    let x := BitVec.ofInt 64 (base.toInt + off)
    s.scalarCheck true x b = .ok (.tile u o) → o < 0xE0000 →
      exec i s =
        .next (s.took j e p (((s.crossed x).slotWrite s.cur.tile u o (toBytes b data.toNat) false).adv len)).done := by
  intro x hcheck ho
  obtain ⟨f, imm, hexec, himm, hf⟩ := exec_store h
  have halone : [a, d].filter s.me.isWin = [n] := by
    obtain ⟨rfl, hp, -⟩ | ⟨rfl, hp, -⟩ := hops <;> simp [ht.port.1, hp.of_singleton]
  have hvals : [a, d].map (s.valueOf v) = [base, data] := by
    obtain ⟨rfl, hp, rfl, rfl⟩ | ⟨rfl, hp, rfl, rfl⟩ := hops <;>
      simp [State.valueOf_win ht.port.1, State.valueOf_plain hp.of_singleton]
  rw [hexec]
  refine runBody_receive (dst := none) hs halone (by simp) ht hvals
    ((hf s _ hrel).trans (storeEffect_tile (himm base) hcheck ho)) ?_
  rw [State.me_adv, me_slotWrite_crossed]
  exact hs.2

end

/-! ### The other windowed groups, a result sent -/

section
variable {s : State} {n : BitVec 5} {j : Nat} {e : SendEnd}

theorem oneSource_send (hs : Ready s) (hd : WinSend s n j e) (hc : 0 < e.credits) (hrel : s.released = true) {i : Instr}
    {len : Nat} {a : BitVec 5} {f : Word → Word} (h : OneSource i len n a f) (hp : Plain s [a]) :
    exec i s = .next ((s.adv len).putTokens s.cur.tile j e [(f (s.g a), false)]).done := by
  obtain ⟨f', hexec, hf⟩ := exec_oneSource h
  rw [hexec, aluR, runBody_send hs hp hd hc hrel rfl (keepsPorts_adv s len), ← hf]
  rfl

theorem noSource_send (hs : Ready s) (hd : WinSend s n j e) (hc : 0 < e.credits) (hrel : s.released = true) {i : Instr}
    {len : Nat} {f : State → Word} (h : NoSource i len n f) :
    exec i s = .next ((s.adv len).putTokens s.cur.tile j e [(f s, false)]).done := by
  obtain ⟨f', hexec, hf⟩ := exec_noSource h
  rw [hexec, runBody_send hs (reads := []) (by simp [Plain]) hd hc hrel rfl (keepsPorts_adv s len), ← hf]

theorem jump_send (hs : Ready s) (hd : WinSend s n j e) (hc : 0 < e.credits) (hrel : s.released = true) {i : Instr}
    {len : Nat} {a : BitVec 5} {f : Word → Word → Word} (h : Jump i len n a f) (hp : Plain s [a]) :
    let target := f s.me.pc (s.g a)
    s.myTile.checkTarget target = none →
      exec i s = .next ((s.updMe fun x => { x with pc := target }).putTokens s.cur.tile j e
        [(s.me.pc + BitVec.ofNat 64 len, false)]).done := by
  obtain ⟨reads, target, hreads, hexec, htarget⟩ := exec_jump h
  have hr : Plain s reads := fun m hm => hp m (hreads hm)
  rw [hexec, ← htarget]
  exact fun hpass => runBody_send hs hr hd hc hrel (jumpEffect_pass hpass) (keepsPorts_updMe s)

theorem load_send (hs : Ready s) (hd : WinSend s n j e) (hc : 0 < e.credits) (hrel : s.released = true) {i : Instr}
    {len b u o : Nat} {ext : Nat → Word} {off : Int} {a : BitVec 5} (h : LoadForm i len b ext off n a)
    (hp : Plain s [a]) :
    let x := effAddr s a off
    s.scalarCheck false x b = .ok (.tile u o) → o < 0xE0000 → (s.tile u).errs = 0 →
      exec i s = .next ((((s.crossed x).noted s.pcOff ((s.tile u).poisonAt o b)).adv len).putTokens s.cur.tile j e
        [(ext (Mem.load (s.tile u).mem o b), (s.tile u).poisonAt o b)]).done := by
  intro x hcheck ho herr
  obtain ⟨ext', imm, hexec, hext, himm⟩ := exec_load h
  rw [hexec, ← hext]
  exact runBody_send hs hp hd hc hrel (loadEffect_tile (himm (s.g a)) hcheck ho herr) (keepsPorts_load ..)

end

theorem windowForms : WindowForms := by
  intro s n j hs
  refine ⟨fun e v p hn hav htok => ?_, fun e hd hc hrel => ?_⟩
  · have ht : TokenThere s n j e v p := ⟨hn, hav, htok⟩
    exact ⟨fun _ _ _ _ h hd => oneSource_receive hs ht h hd, fun d => oxl_receive hs ht d,
      fun _ _ _ _ _ h hp => branch_receive hs ht h hp, fun m _ hd => jalr_receive hs ht m hd,
      fun _ _ _ _ _ _ _ _ h hd => load_receive hs ht h hd,
      fun _ _ _ _ _ _ _ _ _ _ h hrel hops => store_receive hs ht h hrel hops⟩
  · exact ⟨fun _ _ _ _ h hp => oneSource_send hs hd hc hrel h hp, fun _ _ _ h => noSource_send hs hd hc hrel h,
      fun _ _ _ _ h hp => jump_send hs hd hc hrel h hp, fun _ _ _ _ _ _ _ _ h hp => load_send hs hd hc hrel h hp⟩

/-- Settles O4: every instruction of the windowed groups is one operation on operand values, and each way of meeting a port
is a rule of that operation. -/
theorem portWindow : Obligations.PortWindow :=
  ⟨windowReceive, windowSend, windowForms, windowStops, tokensTaken⟩

end Sys2Proof.Machine
end

section
/-!
PROOF RULES. Lists of elements written over a register, a mask or XM: what each element and each bit reads afterwards
(05_vector_registers.md R172, R181; 02_number_formats.md R89, R90).
-/
namespace Sys2Proof.Machine

/-! ### Elements of a number -/

theorem elemAt_lt (w x k : Nat) : elemAt w x k < 2 ^ w := Nat.mod_lt _ (Nat.two_pow_pos w)

theorem elemAt_mod (w x k : Nat) : elemAt w x k % 2 ^ w = elemAt w x k := Nat.mod_eq_of_lt (elemAt_lt w x k)

/-- An element that lies in the low `n` bits. -/
theorem elemAt_mod_two_pow {w k n : Nat} (h : w * (k + 1) ≤ n) (x : Nat) : elemAt w (x % 2 ^ n) k = elemAt w x k := by
  obtain ⟨m, rfl⟩ := Nat.exists_eq_add_of_le h
  have hn : 2 ^ (w * (k + 1) + m) = 2 ^ (w * k) * (2 ^ w * 2 ^ m) := by
    rw [← Nat.pow_add, ← Nat.pow_add]; congr 1; ring
  rw [elemAt, elemAt, hn, Nat.mod_mul_right_div_self, Nat.mod_mul_right_mod]

theorem elemAt_cons_zero {w a : Nat} (ha : a < 2 ^ w) (r : Nat) : elemAt w (a + 2 ^ w * r) 0 = a := by
  rw [elemAt, Nat.mul_zero, Nat.pow_zero, Nat.div_one, Nat.add_mul_mod_self_left, Nat.mod_eq_of_lt ha]

theorem elemAt_succ (w x k : Nat) : elemAt w x (k + 1) = elemAt w (x / 2 ^ w) k := by
  rw [elemAt, elemAt, Nat.div_div_eq_div_mul, ← Nat.pow_add]
  congr 3
  ring

theorem elemAt_cons_succ {w a : Nat} (ha : a < 2 ^ w) (r k : Nat) :
    elemAt w (a + 2 ^ w * r) (k + 1) = elemAt w r k := by
  rw [elemAt_succ, Nat.add_mul_div_left _ _ (Nat.two_pow_pos w), Nat.div_eq_of_lt ha, Nat.zero_add]

/-! ### Elements written -/

/-- What a list of elements gives element `k`; none where it keeps it. -/
def outAt (out : List (Option ElemOut)) (k : Nat) : Option ElemOut := out[k]?.join

@[simp] theorem outAt_nil (k : Nat) : outAt [] k = none := rfl

@[simp] theorem outAt_cons_zero (o : Option ElemOut) (r : List (Option ElemOut)) : outAt (o :: r) 0 = o := rfl

@[simp] theorem outAt_cons_succ (o : Option ElemOut) (r : List (Option ElemOut)) (k : Nat) :
    outAt (o :: r) (k + 1) = outAt r k := rfl

theorem elemAt_putElems (w : Nat) (out : List (Option ElemOut)) (x k : Nat) :
    elemAt w (putElems w x out) k = ((outAt out k).map fun v => v.val % 2 ^ w).getD (elemAt w x k) := by
  induction out generalizing x k with
  | nil => rfl
  | cons o r ih =>
    have hlt (v : Nat) : v % 2 ^ w < 2 ^ w := Nat.mod_lt _ (Nat.two_pow_pos w)
    cases o with
    | none =>
      cases k with
      | zero => simp [putElems, elemAt]
      | succ k => simp [putElems, elemAt_cons_succ (hlt _), ih, elemAt_succ w x]
    | some v =>
      cases k with
      | zero => simp [putElems, elemAt_cons_zero (hlt _)]
      | succ k => simp [putElems, elemAt_cons_succ (hlt _), ih, elemAt_succ w x]

theorem testBit_putElems_one (out : List (Option ElemOut)) (k : Nat) :
    (putElems 1 0 out).testBit k = decide ((((outAt out k).map fun v => v.val % 2).getD 0) = 1) := by
  have h := elemAt_putElems 1 out 0 k
  simp only [elemAt, Nat.one_mul, Nat.pow_one, Nat.zero_div, Nat.zero_mod] at h
  rw [Nat.testBit_eq_decide_div_mod_eq, h]

/-- The classes a list of elements raises for element `k`. -/
def clsAt (out : List (Option ElemOut)) (k : Nat) : Nat := ((outAt out k).map ElemOut.cls).getD 0

theorem testBit_add_two_mul_zero {b : Nat} (hb : b < 2) (m : Nat) : (b + 2 * m).testBit 0 = decide (b = 1) := by
  rw [Nat.testBit_zero, Nat.add_mul_mod_self_left, Nat.mod_eq_of_lt hb]

theorem testBit_add_two_mul_succ {b : Nat} (hb : b < 2) (m k : Nat) :
    (b + 2 * m).testBit (k + 1) = m.testBit k := by
  rw [Nat.testBit_succ]; congr 1; omega

theorem xmBits_cons (xc : Nat) (o : Option ElemOut) (r : List (Option ElemOut)) :
    xmBits xc (o :: r) = (decide (xc ≤ 5) && (clsAt (o :: r) 0).testBit xc).toNat + 2 * xmBits xc r := by
  cases o with
  | none => simp [xmBits, clsAt]
  | some v =>
    by_cases hx : xc ≤ 5 <;> by_cases hc : v.cls / 2 ^ xc % 2 = 1 <;>
      simp [xmBits, clsAt, Nat.testBit_eq_decide_div_mod_eq, hx, hc]

theorem testBit_xmBits (xc : Nat) (out : List (Option ElemOut)) (k : Nat) :
    (xmBits xc out).testBit k = (decide (xc ≤ 5) && (clsAt out k).testBit xc) := by
  induction out generalizing k with
  | nil => simp [xmBits, clsAt]
  | cons o r ih =>
    rw [xmBits_cons]
    cases k with
    | zero =>
      rw [testBit_add_two_mul_zero (Bool.toNat_lt _)]
      simp
    | succ k =>
      rw [testBit_add_two_mul_succ (Bool.toNat_lt _), ih]
      rfl

/-! ### The lists the instructions write -/

theorem outAt_range (n : Nat) (f : Nat → Option ElemOut) (k : Nat) :
    outAt ((List.range n).map f) k = if k < n then f k else none := by
  unfold outAt
  rw [List.getElem?_map]
  by_cases h : k < n
  · simp [h]
  · simp [h]

theorem outAt_mapActive (n act : Nat) (f : Nat → ElemOut) (k : Nat) :
    outAt (mapActive n act f) k = if k < n ∧ act.testBit k = true then some (f k) else none := by
  rw [mapActive, outAt_range]
  by_cases h : k < n <;> simp [h]

theorem outAt_map {α : Type} (g : α → ElemOut) (plan : List (Option α)) (k : Nat) :
    outAt (plan.map fun o => o.map g) k = (plan[k]?.join).map g := by
  unfold outAt
  rw [List.getElem?_map]
  cases plan[k]? <;> rfl

end Sys2Proof.Machine
end

section
/-!
PROOF RULES. How a long-vector instruction's body starts and ends, and what it leaves of the state outside its own context
(05_vector_registers.md R177, R181-R184).
-/
namespace Sys2Proof.Machine

/-! ### The state outside the long-vector context -/

/-- A change leaves every memory and the current slot's registers, but for `g`, the PC, CIR and the wait. -/
structure RestKept (s t : State) (g : Option (BitVec 5)) : Prop where
  cur : t.cur = s.cur
  run : t.me.run = s.me.run
  regs : ∀ n, some n ≠ g → t.me.getG n = s.me.getG n
  ext : ∀ n, t.me.getE n = s.me.getE n
  status : t.me.status = s.me.status ∧ t.me.cause = s.me.cause ∧ t.me.epc = s.me.epc ∧ t.me.eval = s.me.eval
  mem : ∀ w, (t.tile w).mem = (s.tile w).mem
  dram : t.dram = s.dram
  host : t.host = s.host

/-- The same of a body's effect, before the PC moves. -/
structure BodyKept (s t : State) (g : Option (BitVec 5)) : Prop extends RestKept s t g where
  pc : t.me.pc = s.me.pc

section
variable {s t u : State} {g : Option (BitVec 5)}

theorem RestKept.refl (s : State) : RestKept s s g where
  cur := rfl
  run := rfl
  regs _ _ := rfl
  ext _ := rfl
  status := ⟨rfl, rfl, rfl, rfl⟩
  mem _ := rfl
  dram := rfl
  host := rfl

theorem RestKept.trans (h : RestKept s t g) (h' : RestKept t u g) : RestKept s u g where
  cur := h'.cur.trans h.cur
  run := h'.run.trans h.run
  regs n hn := (h'.regs n hn).trans (h.regs n hn)
  ext n := (h'.ext n).trans (h.ext n)
  status := by
    obtain ⟨hs, hc, hp, hv⟩ := h.status
    obtain ⟨hs', hc', hp', hv'⟩ := h'.status
    exact ⟨hs'.trans hs, hc'.trans hc, hp'.trans hp, hv'.trans hv⟩
  mem w := (h'.mem w).trans (h.mem w)
  dram := h'.dram.trans h.dram
  host := h'.host.trans h.host

theorem BodyKept.refl (s : State) : BodyKept s s g := ⟨.refl s, rfl⟩

theorem BodyKept.trans (h : BodyKept s t g) (h' : BodyKept t u g) : BodyKept s u g :=
  ⟨h.toRestKept.trans h'.toRestKept, h'.pc.trans h.pc⟩

/-- A change of the current slot that leaves the registers named. -/
theorem restKept_updMe {f : Slot → Slot} (s : State) (hrun : ∀ x, (f x).run = x.run := by exact fun _ => rfl)
    (hregs : ∀ x n, some n ≠ g → (f x).getG n = x.getG n := by exact fun _ _ _ => rfl)
    (hext : ∀ x n, (f x).getE n = x.getE n := by exact fun _ _ => rfl)
    (hstatus : ∀ x, (f x).status = x.status ∧ (f x).cause = x.cause ∧ (f x).epc = x.epc ∧ (f x).eval = x.eval := by
      exact fun _ => ⟨rfl, rfl, rfl, rfl⟩) : RestKept s (s.updMe f) g where
  cur := rfl
  run := by rw [State.me_updMe, hrun]
  regs n hn := by rw [State.me_updMe, hregs _ n hn]
  ext n := by rw [State.me_updMe, hext]
  status := by rw [State.me_updMe]; exact hstatus _
  mem w := State.mem_updMe ..
  dram := rfl
  host := rfl

/-- A change of the tile that leaves its slots and its memory. -/
theorem State.me_updTile {s : State} {f : Tile → Tile} (h : ∀ x, (f x).slots = x.slots) : (s.updTile f).me = s.me := by
  simp [State.me, State.slot, State.updTile, h]

theorem bodyKept_updTile (s : State) {f : Tile → Tile} (hslots : ∀ x, (f x).slots = x.slots := by exact fun _ => rfl)
    (hmem : ∀ x, (f x).mem = x.mem := by exact fun _ => rfl) : BodyKept s (s.updTile f) g := by
  have hme : (s.updTile f).me = s.me := State.me_updTile hslots
  refine ⟨⟨rfl, by rw [hme], fun n _ => by rw [hme], fun n => by rw [hme], by rw [hme]; exact ⟨rfl, rfl, rfl, rfl⟩,
    fun w => ?_, rfl, rfl⟩, by rw [hme]⟩
  rw [State.updTile, State.tile_modTile]
  split
  case isTrue h => rw [hmem, h]
  case isFalse => rfl

theorem bodyKept_updVec (s : State) (f : VecCtx → VecCtx) : BodyKept s (s.updVec f) g := bodyKept_updTile s

theorem Slot.getG_setG_ne (x : Slot) {d n : BitVec 5} (v : Word) (h : n ≠ d) : (x.setG d v).getG n = x.getG n := by
  rw [Slot.getG_setG, if_neg fun hn => h hn.1]

theorem Slot.getG_setG_self (x : Slot) {d : BitVec 5} (v : Word) (h : d ≠ 0) : (x.setG d v).getG d = v := by
  rw [Slot.getG_setG, if_pos ⟨rfl, h⟩]

@[simp] theorem Slot.getE_setG (x : Slot) (d : BitVec 5) (v : Word) (n : BitVec 3) : (x.setG d v).getE n = x.getE n := by
  unfold Slot.setG; split <;> rfl

theorem bodyKept_setG (s : State) (d : BitVec 5) (v : Word) : BodyKept s (s.setG d v) (some d) where
  toRestKept := restKept_updMe s (by simp) (fun x n hn => x.getG_setG_ne v fun e => hn (congrArg some e)) (by simp)
    (by simp)
  pc := by simp [State.setG]

/-- Noting poison changes CIR alone (07_control_registers.md R244). -/
theorem Slot.consumePoison_eq (x : Slot) (off : Nat) : ∃ cir, x.consumePoison off = { x with cir := cir } := by
  unfold Slot.consumePoison
  split
  · exact ⟨x.cir, rfl⟩
  · exact ⟨_, rfl⟩

theorem Slot.consumePoison_kept {α : Type} (φ : Slot → α) (h : ∀ (x : Slot) c, φ { x with cir := c } = φ x) (x : Slot)
    (off : Nat) : φ (x.consumePoison off) = φ x := by
  obtain ⟨cir, he⟩ := x.consumePoison_eq off
  rw [he, h]

theorem bodyKept_notePoison (s : State) (b : Bool) : BodyKept s (s.notePoison b) g := by
  unfold State.notePoison
  split
  · have kept {α : Type} (φ : Slot → α) (h : ∀ (x : Slot) c, φ { x with cir := c } = φ x := by exact fun _ _ => rfl)
        (x : Slot) : φ (x.consumePoison s.pcOff) = φ x := x.consumePoison_kept φ h s.pcOff
    refine ⟨restKept_updMe s (kept Slot.run) (fun x n _ => kept (·.getG n) (x := x)) (fun x n => kept (·.getE n) (x := x))
      fun x => ⟨kept Slot.status (x := x), kept Slot.cause (x := x), kept Slot.epc (x := x), kept Slot.eval (x := x)⟩, ?_⟩
    rw [State.consumePoison, State.me_updMe, kept Slot.pc]
  · exact .refl s

@[simp] theorem State.vec_notePoison (s : State) (b : Bool) : (s.notePoison b).vec = s.vec := by
  unfold State.notePoison
  split
  · exact State.vec_updMe ..
  · rfl

@[simp] theorem State.g_notePoison (s : State) (b : Bool) : (s.notePoison b).me.g = s.me.g := by
  unfold State.notePoison
  split
  · rw [State.consumePoison, State.me_updMe]
    exact Slot.consumePoison_kept Slot.g (fun _ _ => rfl) ..
  · rfl

end

/-- A change of the tile that leaves its contexts. -/
theorem State.vec_updTile {s : State} {f : Tile → Tile} (h : ∀ x, (f x).vecs = x.vecs) : (s.updTile f).vec = s.vec := by
  simp [State.vec, h]

/-! ### How a body starts (01_machine.md R24; R183, R184) -/

/-- A good vector slot passes the checks of R24 and R184. -/
theorem vecBody_pass {s : State} {enc : Nat} {ok : Nat → Bool} {zero : Bool} {b : Body} (hslot : s.cur.slot.val < 2)
    (hbad : s.vec.bad = false) (hok : ok s.vec.fmt = true) (hvl : zero = true → s.vec.vl ≠ 0) :
    vecBody enc ok zero b s = b s := by
  have hz : (zero && s.vec.vl == 0) = false := by
    rw [Bool.and_eq_false_iff, beq_eq_false_iff_ne]
    exact or_iff_not_imp_left.2 fun h => hvl (by simpa using h)
  rw [vecBody, needVec, if_neg (by omega), hbad, hok, hz]
  rfl

/-- The state after the checker has examined an instruction: its LFSR has moved (R198). -/
def State.lfsrMoved (s : State) : State := s.updTile fun x => { x with lfsr := lfsrNext s.myTile.lfsr }

theorem checkedBody_pass {s : State} {b : Body} (h3 : bits s.myTile.inject 3 0 ≠ 3) (h4 : bits s.myTile.inject 3 0 ≠ 4) :
    checkedBody b s = b s.lfsrMoved := by
  have hc : s.checker s.vec.vl.toNat 0 = .ok s.lfsrMoved := by
    unfold State.checker
    rw [if_neg (by tauto)]
    rfl
  rw [checkedBody, hc]

theorem bodyKept_lfsrMoved (s : State) (g : Option (BitVec 5)) : BodyKept s s.lfsrMoved g := bodyKept_updTile s

@[simp] theorem State.vec_lfsrMoved (s : State) : s.lfsrMoved.vec = s.vec := State.vec_updTile fun _ => rfl

/-! ### How a body ends (R177) -/

/-- What an instruction keeps of its long-vector context: every vector register but `d` with its side array, every mask but
`md`, VL, VT, XCLASS and the accumulators. -/
structure VecCtx.Kept (c c' : VecCtx) (d : Option (BitVec 5)) (md : Option (BitVec 3)) : Prop where
  v : ∀ r : BitVec 5, some r ≠ d → c'.v[r.toFin] = c.v[r.toFin]
  m : ∀ r, some r ≠ md → c'.mask r = c.mask r
  side : ∀ r : BitVec 5, some r ≠ d → c'.x[r.toFin] = c.x[r.toFin]
  vl : c'.vl = c.vl
  vt : c'.vt = c.vt
  xclass : c'.xclass = c.xclass
  acc : c'.acc = c.acc ∧ c'.rs = c.rs

section
variable {s u t : State} {b : Body} {d g : Option (BitVec 5)} {md : Option (BitVec 3)}

theorem VecCtx.Kept.refl (c : VecCtx) : c.Kept c d md := ⟨fun _ _ => rfl, fun _ _ => rfl, fun _ _ => rfl, rfl, rfl, rfl, rfl, rfl⟩

theorem VecCtx.Kept.withFmask {c c' : VecCtx} (h : c.Kept c' d md) (f : BitVec 4096) :
    c.Kept { c' with fmask := f } d md := ⟨h.v, h.m, h.side, h.vl, h.vt, h.xclass, h.acc⟩

theorem RestKept.vecKept (h : RestKept s t g) (hc : s.vec.Kept t.vec d md) : VecKept s t d md g where
  v := hc.v
  m := hc.m
  side := hc.side
  vl := hc.vl
  vt := hc.vt
  xclass := hc.xclass
  acc := hc.acc
  regs := h.regs
  ext := h.ext
  status := h.status
  mem w x := by rw [h.mem]
  dram x := by rw [h.dram]
  host x := by rw [h.host]

/-- A body whose effect is over, and which only moves the PC past the instruction. -/
theorem runBody_adv4 (hs : Ready s) (hb : b s = .ok (u.adv 4)) (hu : BodyKept s u g) :
    ∃ t, runBody s b = .next t ∧ t.me.pc = s.me.pc + 4 ∧ t.me.wait = none ∧ RestKept s t g ∧ t.vec = u.vec ∧
      t.me.g = u.me.g := by
  have hrun : u.me.run = .running := hu.run.trans hs.2
  refine ⟨_, runBody_next hs hb (by rw [State.me_adv]; exact hrun), ?_, ?_, ?_, ?_, ?_⟩
  · rw [State.me_updMe, State.me_adv]
    exact congrArg (· + 4) hu.pc
  · rw [State.me_updMe]
  · exact (hu.toRestKept.trans (restKept_updMe u)).trans (restKept_updMe _)
  · rw [State.vec_updMe, State.adv, State.vec_updMe]
  · rw [State.me_updMe, State.me_adv]

/-- The same with FMASK made all ones. -/
theorem runBody_longDone (hs : Ready s) (hb : b s = .ok u.longDone) (hu : BodyKept s u g) :
    ∃ t, runBody s b = .next t ∧ VecDone s t ∧ RestKept s t g ∧ t.vec = { u.vec with fmask := BitVec.allOnes 4096 } ∧
      t.me.g = u.me.g := by
  obtain ⟨t, ht, hpc, hwait, hrest, hvec, hg⟩ := runBody_adv4 hs hb (hu.trans (bodyKept_updVec u _))
  rw [State.vec_updVec] at hvec
  exact ⟨t, ht, ⟨hpc, by rw [hvec], hwait⟩, hrest, hvec, hg.trans (by rw [State.me_updVec])⟩

theorem Tile.slots_stripAdd (x : Tile) (k : Fin 8) (f : Strip → Strip) : (x.stripAdd k f).slots = x.slots := by
  unfold Tile.stripAdd; split <;> rfl

theorem Tile.vecs_stripAdd (x : Tile) (k : Fin 8) (f : Strip → Strip) : (x.stripAdd k f).vecs = x.vecs := by
  unfold Tile.stripAdd; split <;> rfl

theorem Tile.mem_stripAdd (x : Tile) (k : Fin 8) (f : Strip → Strip) : (x.stripAdd k f).mem = x.mem := by
  unfold Tile.stripAdd; split <;> rfl

/-- The same with the groups processed counted. -/
theorem runBody_arithDone {n : Nat} (hs : Ready s) (hb : b s = .ok (u.arithDone n)) (hu : BodyKept s u g) :
    ∃ t, runBody s b = .next t ∧ VecDone s t ∧ RestKept s t g ∧ t.vec = { u.vec with fmask := BitVec.allOnes 4096 } ∧
      t.me.g = u.me.g := by
  obtain ⟨t, ht, hdone, hrest, hvec, hg⟩ := runBody_longDone hs hb (hu.trans (bodyKept_updTile u
    (fun x => by rw [Tile.slots_stripAdd, Tile.perf_slots]) fun x => by rw [Tile.mem_stripAdd, Tile.perf_mem]))
  rw [State.vec_updTile fun x => by rw [Tile.vecs_stripAdd, Tile.perf_vecs]] at hvec
  rw [State.me_updTile fun x => by rw [Tile.slots_stripAdd, Tile.perf_slots]] at hg
  exact ⟨t, ht, hdone, hrest, hvec, hg⟩

/-- The end of an instruction of the vector pipe, as the statements of chapter 05 put it. -/
theorem runBody_vecDone (hs : Ready s) (hb : b s = .ok u.vecDone) (hu : BodyKept s u g) (hc : s.vec.Kept u.vec d md) :
    ∃ t, runBody s b = .next t ∧ VecDone s t ∧ VecKept s t d md g ∧
      t.vec = { u.vec with fmask := BitVec.allOnes 4096 } ∧ t.me.g = u.me.g := by
  obtain ⟨t, ht, hdone, hrest, hvec, hg⟩ := runBody_arithDone hs hb hu
  exact ⟨t, ht, hdone, hrest.vecKept (by rw [hvec]; exact hc.withFmask _), hvec, hg⟩

end

end Sys2Proof.Machine
end

section
/-!
PROOF RULES. What a vector register, a mask and XM read after elements or mask bits are written (05_vector_registers.md
R174, R181, R191; 02_number_formats.md R89, R90).
-/
namespace Sys2Proof.Machine

/-! ### VLMAX and the governing mask -/

theorem width_mul_le_of_lt_vlMax {f blk k : Nat} (h : k < vlMax f blk) : fmtWidth f * (k + 1) ≤ 8192 := by
  have hle : k + 1 ≤ 8192 / fmtWidth f := by
    unfold vlMax at h
    dsimp only at h
    split at h <;> omega
  exact (Nat.mul_le_mul_left _ hle).trans (Nat.mul_div_le ..)

theorem lt_vl_of_active {s : State} {m : BitVec 3} {e : BitVec 1} {k : Nat} (h : ActiveAt s m e k = true) :
    k < s.vec.vl.toNat := by
  simp only [ActiveAt, Bool.and_eq_true, decide_eq_true_eq] at h
  exact h.1.1

theorem testBit_active (s : State) (m : BitVec 3) (e : BitVec 1) (k : Nat) :
    (s.vec.active m e).testBit k = ActiveAt s m e k := by
  obtain rfl | rfl : e = 0 ∨ e = 1 := by revert e; decide
  all_goals simp [VecCtx.active, ActiveAt, Nat.testBit_mod_two_pow, BitVec.getLsbD, Bool.and_assoc]

/-- Elements written to the active elements alone. -/
theorem outAt_active (s : State) (m : BitVec 3) (e : BitVec 1) (f : Nat → ElemOut) (k : Nat) :
    outAt (mapActive s.vec.vl.toNat (s.vec.active m e) f) k = if ActiveAt s m e k then some (f k) else none := by
  rw [outAt_mapActive, testBit_active]
  exact if_congr ⟨fun h => h.2, fun h => ⟨lt_vl_of_active h, h⟩⟩ rfl rfl

/-! ### Classes collected in XM -/

theorem VecCtx.flags_eq (c : VecCtx) (out : List (Option ElemOut)) : ∃ xm, c.flags out = { c with xm := xm } := by
  unfold VecCtx.flags
  split
  · exact ⟨c.xm, rfl⟩
  · exact ⟨_, rfl⟩

theorem clsAt_of_all {out : List (Option ElemOut)} (h : ∀ o ∈ out, ∀ v ∈ o, v.cls = 0) (k : Nat) : clsAt out k = 0 := by
  unfold clsAt outAt
  cases ho : out[k]? with
  | none => rfl
  | some o =>
    cases o with
    | none => rfl
    | some v => exact h _ (List.mem_of_getElem? ho) v rfl

theorem VecCtx.xm_flags (c : VecCtx) (out : List (Option ElemOut)) {k : Nat} (hk : k < 4096) :
    (c.flags out).xm.getLsbD k =
      (c.xm.getLsbD k || (decide (c.xclass.toNat ≤ 5) && (clsAt out k).testBit c.xclass.toNat)) := by
  unfold VecCtx.flags
  split
  case isTrue h =>
    have hall : ∀ o ∈ out, ∀ v ∈ o, v.cls = 0 := by
      intro o ho v hv
      obtain rfl : o = some v := hv
      simpa using List.all_eq_true.1 h _ ho
    rw [clsAt_of_all hall]
    simp
  case isFalse =>
    simp only [BitVec.getLsbD_or, BitVec.getLsbD_ofNat, hk, decide_true, Bool.true_and, testBit_xmBits]

theorem VecCtx.kept_flags {d : Option (BitVec 5)} {md : Option (BitVec 3)} {c c' : VecCtx} (h : c.Kept c' d md)
    (out : List (Option ElemOut)) : c.Kept (c'.flags out) d md := by
  obtain ⟨xm, he⟩ := c'.flags_eq out
  rw [he]
  exact ⟨h.v, h.m, h.side, h.vl, h.vt, h.xclass, h.acc⟩

/-- XM where no class is raised. -/
theorem Flagged.xm_eq {s t : State} {cls : Nat → Nat} (h : Flagged s t cls) (hcls : ∀ k, cls k = 0) :
    t.vec.xm = s.vec.xm := by
  refine BitVec.eq_of_getLsbD_eq fun k hk => ?_
  rw [h k hk, hcls]
  simp

/-! ### Elements written to a vector register -/

/-- A context after elements of width `w` are written to register `d`. -/
def VecCtx.put (c : VecCtx) (d : BitVec 5) (w vmax : Nat) (out : List (Option ElemOut)) : VecCtx :=
  { c with v := c.v.set d.toFin (BitVec.ofNat 8192 (putElems w (c.reg d) out)),
           pois := c.pois.set d.toFin (putPoison w vmax (c.poisReg d) out) }

@[simp] theorem VecCtx.put_xm (c : VecCtx) (d : BitVec 5) (w vmax : Nat) (out : List (Option ElemOut)) :
    (c.put d w vmax out).xm = c.xm := rfl
@[simp] theorem VecCtx.put_xclass (c : VecCtx) (d : BitVec 5) (w vmax : Nat) (out : List (Option ElemOut)) :
    (c.put d w vmax out).xclass = c.xclass := rfl

theorem State.putVec_eq (s : State) (d : BitVec 5) (w vmax : Nat) (out : List (Option ElemOut)) :
    s.putVec d w vmax out = (s.updVec fun c => (c.put d w vmax out).flags out).notePoison (anyPoison out) := rfl

theorem State.vec_putVec (s : State) (d : BitVec 5) (w vmax : Nat) (out : List (Option ElemOut)) :
    (s.putVec d w vmax out).vec = (s.vec.put d w vmax out).flags out := by
  rw [State.putVec_eq, State.vec_notePoison, State.vec_updVec]

theorem bodyKept_putVec (s : State) (d : BitVec 5) (w vmax : Nat) (out : List (Option ElemOut))
    (g : Option (BitVec 5)) : BodyKept s (s.putVec d w vmax out) g :=
  (bodyKept_updVec s _).trans (bodyKept_notePoison _ _)

theorem VecCtx.kept_put (c : VecCtx) (d : BitVec 5) (w vmax : Nat) (out : List (Option ElemOut))
    (md : Option (BitVec 3)) : c.Kept (c.put d w vmax out) (some d) md := by
  refine ⟨fun r hr => ?_, fun _ _ => rfl, fun _ _ => rfl, rfl, rfl, rfl, rfl, rfl⟩
  have hne : d.toNat ≠ r.toNat := toNat_ne fun h => hr (congrArg some h.symm)
  simp [VecCtx.put, Vector.getElem_set_ne _ _ hne]

theorem VecCtx.elemAt_put (c : VecCtx) (d : BitVec 5) (vmax : Nat) (out : List (Option ElemOut)) {w k : Nat}
    (h : w * (k + 1) ≤ 8192) : elemAt w ((c.put d w vmax out).reg d) k =
      ((outAt out k).map fun v => v.val % 2 ^ w).getD (elemAt w (c.reg d) k) := by
  have hreg : (c.put d w vmax out).reg d = putElems w (c.reg d) out % 2 ^ 8192 := by
    rw [← BitVec.toNat_ofNat]
    exact congrArg BitVec.toNat (Vector.getElem_set_self ..)
  rw [hreg, elemAt_mod_two_pow h, elemAt_putElems]

/-- An instruction that writes a list of elements of the current format to `d`: the elements given and their classes, and
nothing else of the context or outside it. -/
theorem runBody_putVec {s s' : State} {b : Body} {d : BitVec 5} {out : List (Option ElemOut)} (hs : Ready s)
    (hkept : BodyKept s s' none) (hvec : s'.vec = s.vec)
    (hb : b s = .ok (s'.putVec d (fmtWidth s.vec.fmt) s.vec.vlMax out).vecDone) :
    ∃ t, runBody s b = .next t ∧ VecDone s t ∧ VecKept s t (some d) none none ∧
      (Wrote s t d s.vec.vlMax fun k => (outAt out k).map fun v => v.val % 2 ^ fmtWidth s.vec.fmt) ∧
      Flagged s t (clsAt out) := by
  have hu : (s'.putVec d (fmtWidth s.vec.fmt) s.vec.vlMax out).vec = _ := hvec ▸ State.vec_putVec s' ..
  have hput := VecCtx.kept_flags (s.vec.kept_put d (fmtWidth s.vec.fmt) s.vec.vlMax out none) out
  obtain ⟨t, ht, hdone, hall, hvt, -⟩ := runBody_vecDone hs hb (hkept.trans (bodyKept_putVec ..)) (by rw [hu]; exact hput)
  rw [hu] at hvt
  refine ⟨t, ht, hdone, hall, fun k hk => ?_, fun k hk => ?_⟩
  · obtain ⟨xm, hflags⟩ := (s.vec.put d (fmtWidth s.vec.fmt) s.vec.vlMax out).flags_eq out
    have hfmt : t.vec.fmt = s.vec.fmt := by rw [VecCtx.fmt, hall.vt]; rfl
    have hreg : t.vec.reg d = (s.vec.put d (fmtWidth s.vec.fmt) s.vec.vlMax out).reg d := by rw [hvt, hflags]; rfl
    rw [elemOf, hfmt, hreg, VecCtx.elemAt_put _ _ _ _ (width_mul_le_of_lt_vlMax hk)]
    rfl
  · have hxm : t.vec.xm = ((s.vec.put d (fmtWidth s.vec.fmt) s.vec.vlMax out).flags out).xm := by rw [hvt]
    rw [hxm, VecCtx.xm_flags _ out hk, VecCtx.put_xm, VecCtx.put_xclass]

/-! ### Bits written to a mask register -/

/-- A context after the bits of `act` are written to mask `d` from `val`. -/
def VecCtx.putM (c : VecCtx) (d : BitVec 3) (act val : Nat) : VecCtx :=
  { c with m := c.m.set d.toFin ((c.mask d &&& ~~~BitVec.ofNat 4096 act) |||
      (BitVec.ofNat 4096 val &&& BitVec.ofNat 4096 act)) }

theorem State.putMask_eq (s : State) (d : BitVec 3) (act val : Nat) :
    s.putMask d act val = s.updVec fun c => c.putM d act val := rfl

theorem VecCtx.kept_setMask (c : VecCtx) (d : BitVec 3) (v : BitVec 4096) (dv : Option (BitVec 5)) :
    c.Kept { c with m := c.m.set d.toFin v } dv (some d) := by
  refine ⟨fun _ _ => rfl, fun r hr => ?_, fun _ _ => rfl, rfl, rfl, rfl, rfl, rfl⟩
  have hne : d.toNat ≠ r.toNat := toNat_ne fun h => hr (congrArg some h.symm)
  simp [VecCtx.mask, Vector.getElem_set_ne _ _ hne]

theorem VecCtx.mask_putM (c : VecCtx) (d : BitVec 3) (act val : Nat) {k : Nat} (hk : k < 4096) :
    ((c.putM d act val).mask d).getLsbD k = if act.testBit k then val.testBit k else (c.mask d).getLsbD k := by
  have h : (c.putM d act val).mask d = _ := Vector.getElem_set_self ..
  rw [h]
  simp only [BitVec.getLsbD_or, BitVec.getLsbD_and, BitVec.getLsbD_not, BitVec.getLsbD_ofNat, hk, decide_true,
    Bool.true_and]
  cases act.testBit k <;> simp

/-- The bits of a list written to mask `d`, with the classes the list raises. -/
def State.putBits (s : State) (d : BitVec 3) (act : Nat) (out : List (Option ElemOut)) : State :=
  ((s.putMask d act (putElems 1 0 out)).updVec fun c => c.flags out).notePoison (anyPoison out)

/-- An instruction that writes a list of bits to a mask: the bits given and their classes, and nothing else of the context or
outside it. -/
theorem runBody_putBits {s s' : State} {b : Body} {d : BitVec 3} {act : Nat} {out : List (Option ElemOut)} (hs : Ready s)
    (hkept : BodyKept s s' none) (hvec : s'.vec = s.vec) (hb : b s = .ok (s'.putBits d act out).vecDone) :
    ∃ t, runBody s b = .next t ∧ VecDone s t ∧ VecKept s t none (some d) none ∧
      (∀ k, k < 4096 → (t.vec.mask d).getLsbD k = if act.testBit k then
        decide (((outAt out k).map fun v => v.val % 2).getD 0 = 1) else (s.vec.mask d).getLsbD k) ∧
      Flagged s t (clsAt out) := by
  have hu : (s'.putBits d act out).vec = (s.vec.putM d act (putElems 1 0 out)).flags out := by
    rw [State.putBits, State.vec_notePoison, State.vec_updVec, State.putMask_eq, State.vec_updVec, hvec]
  have hbody : BodyKept s (s'.putBits d act out) none :=
    ((hkept.trans (bodyKept_updVec ..)).trans (bodyKept_updVec ..)).trans (bodyKept_notePoison ..)
  obtain ⟨t, ht, hdone, hall, hvt, -⟩ := runBody_vecDone (d := none) (md := some d) hs hb hbody
    (by rw [hu]; exact VecCtx.kept_flags (s.vec.kept_setMask d _ none) out)
  rw [hu] at hvt
  refine ⟨t, ht, hdone, hall, fun k hk => ?_, fun k hk => ?_⟩
  · obtain ⟨xm, hflags⟩ := (s.vec.putM d act (putElems 1 0 out)).flags_eq out
    have hm : t.vec.mask d = (s.vec.putM d act (putElems 1 0 out)).mask d := by rw [hvt, hflags]; rfl
    rw [hm, VecCtx.mask_putM _ _ _ _ hk, testBit_putElems_one]
  · have hxm : t.vec.xm = ((s.vec.putM d act (putElems 1 0 out)).flags out).xm := by rw [hvt]
    rw [hxm, VecCtx.xm_flags _ out hk]
    rfl

end Sys2Proof.Machine
end

section
/-!
Moves among vector elements, and results in scalar registers (05_vector_registers.md R181, R192, R194).
-/
namespace Sys2Proof.Machine

/-! ### The moves of major 0x10 (R194) -/

/-- An instruction that writes to `d`, of every element `k` below VLMAX that `f` gives a value, the value's low bits, and
raises no class. -/
def WritesElems (i : Instr) (d : BitVec 5) (s : State) (f : Nat → Option Nat) : Prop :=
  ∃ b out, exec i s = runBody s b ∧ b s = .ok (s.putVec d (fmtWidth s.vec.fmt) s.vec.vlMax out).vecDone ∧
    ∀ k, ((outAt out k).map fun v => v.val % 2 ^ fmtWidth s.vec.fmt) = f k ∧ clsAt out k = 0

theorem WritesElems.result {i : Instr} {d : BitVec 5} {s : State} {f : Nat → Option Nat} (h : WritesElems i d s f)
    (hs : Ready s) : ∃ t, exec i s = .next t ∧ VecDone s t ∧ VecKept s t (some d) none none ∧ t.vec.xm = s.vec.xm ∧
      Wrote s t d s.vec.vlMax f := by
  obtain ⟨b, out, hexec, hb, hout⟩ := h
  obtain ⟨t, ht, hdone, hkept, hwrote, hflag⟩ := runBody_putVec hs (.refl s) rfl hb
  refine ⟨t, hexec.trans ht, hdone, hkept, hflag.xm_eq fun k => (hout k).2, fun k hk => ?_⟩
  rw [hwrote k hk, ← (hout k).1]

section
variable {s : State} {enc : Nat} {m : BitVec 3} {e : BitVec 1} {d a : BitVec 5}

/-- A vector slot with a format that is not BFP passes the checks of a move. -/
theorem vecBody_pass_move {ok : Nat → Bool} {b : Body} (hr : VecReady s) (hok : ok s.vec.fmt = true) :
    vecBody enc ok true b s = b s := by
  obtain ⟨-, hslot, hbad, hvl, -⟩ := hr
  exact vecBody_pass hslot hbad hok fun _ => hvl

theorem nonBfp_eq {f : Nat} (h : isBfp f = false) : nonBfp f = true := by simp [nonBfp, h]

variable {i : Instr} {f : Nat → Option Nat}

/-- A move that gives each active element a value. -/
theorem writesElems_active {b : Body} {v : Nat → Nat} {p : Nat → Bool} (hexec : exec i s = runBody s b)
    (hb : b s = .ok (s.putVec d (fmtWidth s.vec.fmt) s.vec.vlMax
      (mapActive s.vec.vl.toNat (s.vec.active m e) fun i => { val := v i, psn := p i })).vecDone)
    (hf : ∀ k, f k = if ActiveAt s m e k then some (v k % 2 ^ fmtWidth s.vec.fmt) else none) : WritesElems i d s f := by
  refine ⟨b, _, hexec, hb, fun k => ?_⟩
  rw [clsAt, outAt_active, hf]
  split <;> exact ⟨rfl, rfl⟩

/-- What a plan of a cross-element move gives element `k` (R194). -/
def planVal (s : State) (a : BitVec 5) : Option Nat → Nat
  | some j => elemOf s a j
  | none => 0

/-- A cross-element move writes what its plan names. -/
theorem writesElems_crossElem {plan : State → Nat → List (Option (Option Nat))} (hr : VecReady s)
    (hfmt : isBfp s.vec.fmt = false) (hexec : exec i s = runBody s (crossElem enc m e d a plan))
    (hf : ∀ k, f k = (((plan s (s.vec.active m e))[k]?).join).map (planVal s a)) : WritesElems i d s f := by
  refine ⟨_, _, hexec, vecBody_pass_move hr (nonBfp_eq hfmt), fun k => ?_⟩
  rw [clsAt, outAt_map, hf]
  cases ((plan s (s.vec.active m e))[k]?).join with
  | none => exact ⟨rfl, rfl⟩
  | some o =>
    cases o with
    | none => exact ⟨congrArg some (Nat.zero_mod _), rfl⟩
    | some j => exact ⟨congrArg some (elemAt_mod ..), rfl⟩

end

/-- A plan with one entry for each element below VL. -/
theorem join_range (n : Nat) (f : Nat → Option (Option Nat)) (k : Nat) :
    (((List.range n).map f)[k]?).join = if k < n then f k else none := by
  rw [List.getElem?_map]
  by_cases h : k < n <;> simp [h]

theorem countP_range_below {k n : Nat} (h : k ≤ n) (p : Nat → Bool) :
    (List.range n).countP (fun j => decide (j < k) && p j) = (List.range k).countP p := by
  induction n, h using Nat.le_induction with
  | base => exact List.countP_congr fun j hj => by simp [List.mem_range.1 hj]
  | succ n hn ih =>
    rw [List.range_succ, List.countP_append, ih]
    simp [hn]

/-- The active elements before element `k`, counted in the list of all of them. -/
theorem countP_activesOf (s : State) (m : BitVec 3) (e : BitVec 1) {k : Nat} (h : k ≤ s.vec.vl.toNat) :
    (activesOf s m e).countP (fun j => decide (j < k)) = (List.range k).countP (s.vec.active m e).testBit := by
  rw [activesOf, List.countP_filter, countP_range_below h]
  exact List.countP_congr fun j _ => by rw [testBit_active]

theorem ranks_eq (n act : Nat) : ranks n act =
    (List.range n).map fun i => if act.testBit i then some ((List.range i).countP act.testBit) else none := by
  have h : (List.range n).foldl (fun (l, j) i => if act.testBit i then (l ++ [some j], j + 1) else (l ++ [none], j))
      (([] : List (Option Nat)), 0) =
      ((List.range n).map fun i => if act.testBit i then some ((List.range i).countP act.testBit) else none,
        (List.range n).countP act.testBit) := by
    induction n with
    | zero => rfl
    | succ n ih =>
      rw [List.range_succ, List.foldl_append, ih, List.map_append, List.countP_append]
      cases hb : act.testBit n <;> simp [hb]
  exact congrArg Prod.fst h

theorem filter_active (s : State) (m : BitVec 3) (e : BitVec 1) :
    ((List.range s.vec.vl.toNat).filter fun i => (s.vec.active m e).testBit i) = activesOf s m e :=
  List.filter_congr fun i _ => testBit_active s m e i

/-- Each move as the list of elements it writes. -/
theorem vecMove_writes {i : Instr} {d : BitVec 5} {f : State → Nat → Option Nat} {s : State} (h : VecMove i d f)
    (hr : VecReady s) (hfmt : isBfp s.vec.fmt = false) : WritesElems i d s (f s) := by
  have hok := nonBfp_eq hfmt
  cases h with
  | vsel b x y m _ a =>
    exact writesElems_active (e := 0) rfl (vecBody_pass_move hr hok) fun k => by rw [elemAt_mod]; rfl
  | vmv x m e _ a =>
    exact writesElems_active rfl ((vecBody_pass_move hr rfl).trans (if_neg (by simp [hfmt]))) fun k => by
      rw [elemAt_mod]; rfl
  | vmvx m e _ a => exact writesElems_active (p := fun _ => false) rfl (vecBody_pass_move hr hok) fun k => rfl
  | vgath b x y m e _ a =>
    refine writesElems_active rfl (vecBody_pass_move hr hok) fun k => ?_
    rw [apply_ite (· % 2 ^ fmtWidth s.vec.fmt), elemAt_mod, Nat.zero_mod]
    rfl
  | vslideup t x m e _ a =>
    refine writesElems_crossElem hr hfmt rfl fun k => ?_
    rw [join_range, testBit_active]
    by_cases hact : ActiveAt s m e k = true
    · by_cases hoff : (s.g t).toNat ≤ k <;> simp [hact, lt_vl_of_active hact, hoff, planVal]
    · simp [hact]
  | vslidedn t x m e _ a =>
    refine writesElems_crossElem hr hfmt rfl fun k => ?_
    rw [join_range, testBit_active]
    by_cases hact : ActiveAt s m e k = true
    · by_cases hoff : k + (s.g t).toNat < s.vec.vlMax <;> simp [hact, lt_vl_of_active hact, hoff, planVal]
    · simp [hact]
  | vcomp x m e _ a =>
    refine writesElems_crossElem hr hfmt rfl fun k => ?_
    dsimp only
    rw [filter_active, List.getElem?_map]
    cases (activesOf s m e)[k]? <;> rfl
  | vexp x m e _ a =>
    refine writesElems_crossElem hr hfmt rfl fun k => ?_
    rw [ranks_eq, List.map_map, join_range, Function.comp_apply, testBit_active]
    by_cases hact : ActiveAt s m e k = true
    · have hk := lt_vl_of_active hact
      simp [hact, hk, planVal, countP_activesOf s m e hk.le]
    · simp [hact]
  | viota m e =>
    refine ⟨_, _, rfl, vecBody_pass_move hr hok, fun k => ?_⟩
    dsimp only
    rw [clsAt, outAt_range]
    by_cases hk : k < s.vec.vl.toNat
    · rw [if_pos hk, if_pos hk, countP_activesOf s m e hk.le, ← countOnes_eq]
      exact ⟨rfl, rfl⟩
    · rw [if_neg hk, if_neg hk]
      exact ⟨rfl, rfl⟩

theorem vectorMoves : VectorMoves := fun _ _ _ _ h hr hfmt => (vecMove_writes h hr hfmt).result hr.1

/-! ### Results in scalar registers (R192, R194) -/

/-- A body that writes a value to `g d`, notes poison and completes. -/
theorem runBody_scalarResult {s : State} {d : BitVec 5} {v r : Word} {b : Body} {p : Bool} (hs : Ready s)
    (hb : b s = .ok ((s.setG d v).notePoison p).vecDone) (hr : v = r) :
    ∃ t, runBody s b = .next t ∧ VecDone s t ∧ VecKept s t none none (some d) ∧ (d ≠ 0 → t.me.getG d = r) := by
  subst hr
  have hvec : ((s.setG d v).notePoison p).vec = s.vec := by rw [State.vec_notePoison, State.setG, State.vec_updMe]
  obtain ⟨t, ht, hdone, hkept, -, hg⟩ := runBody_vecDone (d := none) (md := none) hs hb
    ((bodyKept_setG s d v).trans (bodyKept_notePoison ..)) (by rw [hvec]; exact .refl _)
  refine ⟨t, ht, hdone, hkept, fun hd => ?_⟩
  rw [State.g_notePoison, State.setG, State.me_updMe] at hg
  rw [← Slot.getG_setG_self s.me v hd, Slot.getG, Slot.getG, hg]

theorem testBit_active_and (s : State) (m : BitVec 3) (e : BitVec 1) (a : BitVec 3) (k : Nat) :
    (s.vec.active m e &&& (s.vec.mask a).toNat).testBit k = (ActiveAt s m e k && (s.vec.mask a).getLsbD k) := by
  rw [Nat.testBit_land, testBit_active]
  rfl

theorem vectorToScalar : VectorToScalar := by
  intro s hs hslot hbad
  have pass {ok : Nat → Bool} (enc : Nat) (b : Body) (hok : ok s.vec.fmt = true) : vecBody enc ok false b s = b s :=
    vecBody_pass hslot hbad hok (by simp)
  refine ⟨fun m e d a => ?_, fun m e d a => ?_, fun r x d a hfmt => ?_⟩
  · refine runBody_scalarResult (p := false) hs (pass _ _ rfl) ?_
    rw [popCount, countOnes_eq]
    simp only [testBit_active_and]
  · refine runBody_scalarResult (p := false) hs (pass _ _ rfl) ?_
    simp only [testBit_active_and]
    cases (List.range 4096).find? fun k => ActiveAt s m e k && (s.vec.mask a).getLsbD k with
    | none => exact BitVec.eq_of_toNat_eq rfl
    | some k => rfl
  · by_cases hk : (s.g r).toNat < s.vec.vlMax
    · exact runBody_scalarResult hs ((pass _ _ (nonBfp_eq hfmt)).trans (if_pos hk)) (if_pos hk).symm
    · exact runBody_scalarResult (p := false) hs ((pass _ _ (nonBfp_eq hfmt)).trans (if_neg hk)) (if_neg hk).symm

/-- Settles O14: each move is the list of elements it writes over vd, read element by element; MPOPC, MFIRST and VEXT are one
write of g d. -/
theorem vectorScalarMoves : Obligations.VectorScalarMoves :=
  ⟨vectorToScalar, vectorMoves⟩

end Sys2Proof.Machine
end

section
/-!
Compares and the mask instructions (05_vector_registers.md R177, R181, R191-R193).
-/
namespace Sys2Proof.Machine

/-! ### Compares (R191) -/

/-- The classes a compare raises for two elements: invalid for a signalling NaN, and with `ord` for any NaN. -/
def cmpClasses (ord : Bool) (f p q : Nat) : Nat :=
  if isFp f && (isSnan f p || isSnan f q || (ord && (isNan f p || isNan f q))) then 1 else 0

theorem cmpClasses_of_isInt {f : Nat} (h : isInt f = true) (ord : Bool) (p q : Nat) : cmpClasses ord f p q = 0 := by
  have hfp : isFp f = false := by
    simp only [isInt, decide_eq_true_eq] at h
    simp only [isFp, Bool.and_eq_false_iff, decide_eq_false_iff_not]
    omega
  simp [cmpClasses, hfp]

/-- A floating-point relation: its value with and without a NaN, and its classes. -/
theorem cmpF_eq {fm : Nat} (hfp : isFp fm = true) (f : Int → Bool) (nanRes ord : Bool) (p q : Nat) :
    cmpF f nanRes ord fm p q =
      (if isNan fm p || isNan fm q then nanRes else f (fpOrder fm p q), cmpClasses ord fm p q) := by
  rw [cmpF, cmpClasses, hfp, Bool.true_and]
  split <;> rfl

/-- A relation that a NaN makes false, and one that it makes true. -/
theorem relation_false_of_nan (b c r : Bool) : (if b || c then false else r) = (!b && !c && r) := by
  cases b <;> cases c <;> rfl

theorem relation_true_of_nan (b c r : Bool) : (if b || c then true else r) = (b || c || r) := by
  cases b <;> cases c <;> rfl

/-- Each compare as the model's shared operation. -/
theorem exec_compare {i : Instr} {b a : BitVec 5} {m d : BitVec 3} {e : BitVec 1} {ok : Nat → Bool}
    {f : Nat → Nat → Nat → Bool} {ord : Bool} (h : VecCmp i b m e d a ok f ord) : ∃ enc g,
      (∀ s, exec i s = runBody s (vcompare enc ok b m e d a g)) ∧
      ∀ fm p q, ok fm = true → g fm p q = (f fm p q, cmpClasses ord fm p q) := by
  have int {x y : Bool} {fm p q : Nat} (hfm : isInt fm = true) (hxy : x = y) :
      (x, 0) = (y, cmpClasses false fm p q) := by rw [cmpClasses_of_isInt hfm, hxy]
  cases h with
  | vcmpNe => exact ⟨_, _, fun _ => rfl, fun fm p q hfm => int hfm (by dsimp only; rw [decide_not]; rfl)⟩
  | vcmpEq | vcmpLt | vcmpLe | vcmpGt | vcmpGe | vcmpLtu | vcmpLeu | vcmpGtu | vcmpGeu =>
    exact ⟨_, _, fun _ => rfl, fun fm p q hfm => int hfm rfl⟩
  | vfcmpNe =>
    exact ⟨_, _, fun _ => rfl, fun fm p q hfm => by
      rw [cmpF_eq hfm, relation_true_of_nan]; dsimp only; rw [decide_not]; rfl⟩
  | vfcmpUn => exact ⟨_, _, fun _ => rfl, fun fm p q hfm => by rw [cmpF_eq hfm, relation_true_of_nan, Bool.or_false]⟩
  | vfcmpEq => exact ⟨_, _, fun _ => rfl, fun fm p q hfm => by rw [cmpF_eq hfm, relation_false_of_nan]; rfl⟩
  | vfcmpLt | vfcmpLe | vfcmpGt | vfcmpGe =>
    exact ⟨_, _, fun _ => rfl, fun fm p q hfm => by rw [cmpF_eq hfm, relation_false_of_nan]⟩

/-- The list a compare writes: the relation's bit and its classes for each active element. -/
def compareOut (s : State) (b : BitVec 5) (m : BitVec 3) (e : BitVec 1) (a : BitVec 5)
    (g : Nat → Nat → Nat → Bool × Nat) : List (Option ElemOut) :=
  mapActive s.vec.vl.toNat (s.vec.active m e) fun k =>
    { val := b2n (g s.vec.fmt (elemOf s a k) (elemOf s b k)).1, cls := (g s.vec.fmt (elemOf s a k) (elemOf s b k)).2,
      psn := elemPoison (s.vec.poisReg a) (fmtWidth s.vec.fmt) k || elemPoison (s.vec.poisReg b) (fmtWidth s.vec.fmt) k }

section
variable (s : State) (b : BitVec 5) (m : BitVec 3) (e : BitVec 1) (a : BitVec 5) (g : Nat → Nat → Nat → Bool × Nat) (k : Nat)

theorem val_compareOut : ((outAt (compareOut s b m e a g) k).map fun v => v.val % 2) =
    if ActiveAt s m e k then some (b2n (g s.vec.fmt (elemOf s a k) (elemOf s b k)).1 % 2) else none := by
  rw [compareOut, outAt_active]
  split <;> rfl

theorem clsAt_compareOut : clsAt (compareOut s b m e a g) k =
    if ActiveAt s m e k then (g s.vec.fmt (elemOf s a k) (elemOf s b k)).2 else 0 := by
  rw [clsAt, compareOut, outAt_active]
  split <;> rfl

end

/-- A good vector slot's compare, in a format it accepts. -/
theorem vcompare_eq {s : State} {enc : Nat} {ok : Nat → Bool} {b a : BitVec 5} {m d : BitVec 3} {e : BitVec 1}
    {g : Nat → Nat → Nat → Bool × Nat} (hr : VecReady s) (hok : ok s.vec.fmt = true) :
    vcompare enc ok b m e d a g s = .ok (s.lfsrMoved.putBits d (s.vec.active m e) (compareOut s b m e a g)).vecDone := by
  obtain ⟨-, hslot, hbad, hvl, h3, h4⟩ := hr
  rw [vcompare, vecBody_pass hslot hbad hok fun _ => hvl, checkedBody_pass h3 h4]
  simp only [State.vec_lfsrMoved]
  rfl

theorem vectorCompare : VectorCompare := by
  intro i b m e d a ok f ord s h hr hok fm p q
  obtain ⟨enc, g, hexec, hg⟩ := exec_compare h
  have hgk (k : Nat) : g s.vec.fmt (elemOf s a k) (elemOf s b k) = (f fm (p k) (q k), cmpClasses ord fm (p k) (q k)) :=
    hg fm _ _ hok
  obtain ⟨t, ht, hdone, hkept, hmask, hflag⟩ := runBody_putBits hr.1 (bodyKept_lfsrMoved s _) s.vec_lfsrMoved
    (vcompare_eq (enc := enc) (d := d) (g := g) hr hok)
  refine ⟨t, (hexec s).trans ht, hdone, hkept, fun k hk => ?_, fun k hk => ?_⟩
  · rw [hmask k hk, testBit_active, val_compareOut, hgk]
    split
    · cases f fm (p k) (q k) <;> rfl
    · rfl
  · rw [hflag k hk, clsAt_compareOut, hgk]
    dsimp only
    cases ActiveAt s m e k <;> simp [cmpClasses]

/-! ### MAND to MNOT, MSETN and MMOVE (R192, R193) -/

/-- MAND to MNOT as the model's shared operation on masks. -/
theorem exec_maskLogic {i : Instr} {d : BitVec 3} {f : VecCtx → Nat → Bool} (h : MaskLogic i d f) : ∃ enc g,
    (∀ s, exec i s = runBody s (maskOp enc d g)) ∧ ∀ c k, k < 4096 → (g c).getLsbD k = f c k := by
  cases h with
  | mand => exact ⟨_, _, fun _ => rfl, fun c k _ => BitVec.getLsbD_and⟩
  | mor => exact ⟨_, _, fun _ => rfl, fun c k _ => BitVec.getLsbD_or⟩
  | mxor => exact ⟨_, _, fun _ => rfl, fun c k _ => BitVec.getLsbD_xor⟩
  | mandn => exact ⟨_, _, fun _ => rfl, fun c k hk => by simp only [BitVec.getLsbD_and, BitVec.getLsbD_not, hk, decide_true, Bool.true_and]⟩
  | mnot => exact ⟨_, _, fun _ => rfl, fun c k hk => by simp only [BitVec.getLsbD_not, hk, decide_true, Bool.true_and]⟩

section
variable {s : State} {b : Body} {d : Option (BitVec 5)} {md : Option (BitVec 3)}

/-- A mask instruction of R192 or R193: its context replaced, and the PC moved. -/
theorem runBody_updVec_adv {f : VecCtx → VecCtx} (hs : Ready s) (hb : b s = .ok ((s.updVec f).adv 4))
    (hc : s.vec.Kept (f s.vec) d md) : ∃ t, runBody s b = .next t ∧ t.me.pc = s.me.pc + 4 ∧ t.vec = f s.vec ∧
      VecKept s t d md none := by
  obtain ⟨t, ht, hpc, -, hrest, hvec, -⟩ := runBody_adv4 hs hb (bodyKept_updVec s f)
  rw [State.vec_updVec] at hvec
  exact ⟨t, ht, hpc, hvec, hrest.vecKept (by rw [hvec]; exact hc)⟩

end

/-- The register MMOVE writes reads the value, and every other register what it read. -/
theorem VecCtx.wide_setWide {c c' : VecCtx} {d : BitVec 5} {v : BitVec 4096} (h : c.setWide d v = some c') :
    c'.wide d = some v ∧ (∀ r, r ≠ d → c'.wide r = c.wide r) ∧
      c.Kept c' none (if d.toNat < 8 then some (d.setWidth 3) else none) := by
  unfold VecCtx.setWide at h
  split at h
  case isTrue hd =>
    cases h
    have hkept := c.kept_setMask (d.setWidth 3) v none
    refine ⟨?_, fun r hr => ?_, by rw [if_pos hd]; exact hkept⟩
    · rw [VecCtx.wide, if_pos hd]
      exact congrArg some (Vector.getElem_set_self ..)
    · by_cases hr8 : r.toNat < 8
      · have hne : r.setWidth 3 ≠ d.setWidth 3 := fun e => hr (BitVec.eq_of_toNat_eq (by
          have := congrArg BitVec.toNat e
          simp only [BitVec.toNat_setWidth] at this
          omega))
        rw [VecCtx.wide, VecCtx.wide, if_pos hr8, if_pos hr8, hkept.m _ fun e => hne (Option.some.inj e)]
      · rw [VecCtx.wide, VecCtx.wide, if_neg hr8, if_neg hr8]
  case isFalse hd =>
    rw [if_neg hd]
    split at h
    case isTrue h8 =>
      cases h
      refine ⟨by rw [VecCtx.wide, if_neg hd, if_pos h8], fun r hr => ?_, fun _ _ => rfl, fun _ _ => rfl, fun _ _ => rfl,
        rfl, rfl, rfl, rfl, rfl⟩
      have hr8 : r.toNat ≠ 8 := fun e => toNat_ne hr (e.trans h8.symm)
      simp only [VecCtx.wide, VecCtx.mask, hr8, if_false]
    case isFalse =>
      split at h
      case isTrue h9 =>
        cases h
        refine ⟨by simp [VecCtx.wide, h9], fun r hr => ?_, fun _ _ => rfl, fun _ _ => rfl, fun _ _ => rfl,
          rfl, rfl, rfl, rfl, rfl⟩
        have hr9 : r.toNat ≠ 9 := fun e => toNat_ne hr (e.trans h9.symm)
        simp only [VecCtx.wide, VecCtx.mask, hr9, if_false]
      case isFalse => cases h

theorem VecCtx.setWide_of_le (c : VecCtx) {d : BitVec 5} (v : BitVec 4096) (h : d.toNat ≤ 9) :
    ∃ c', c.setWide d v = some c' := by
  unfold VecCtx.setWide
  split
  · exact ⟨_, rfl⟩
  · split
    · exact ⟨_, rfl⟩
    · exact ⟨_, if_pos (by omega)⟩

theorem VecCtx.wide_of_ge (c : VecCtx) {a : BitVec 5} (h : 10 ≤ a.toNat) : c.wide a = none := by
  rw [VecCtx.wide, if_neg (by omega), if_neg (by omega), if_neg (by omega)]

theorem VecCtx.setWide_of_ge (c : VecCtx) {d : BitVec 5} (v : BitVec 4096) (h : 10 ≤ d.toNat) : c.setWide d v = none := by
  rw [VecCtx.setWide, if_neg (by omega), if_neg (by omega), if_neg (by omega)]

/-- MMOVE's body on a good vector slot. -/
theorem exec_mmove {s : State} (hslot : s.cur.slot.val < 2) (hbad : s.vec.bad = false) (d a : BitVec 5) : ∃ enc b,
    exec (.mmove d a) s = runBody s b ∧
    (∀ c, (s.vec.wide a).bind (s.vec.setWide d) = some c → b s = .ok ((s.updVec fun _ => c).adv 4)) ∧
    ((s.vec.wide a).bind (s.vec.setWide d) = none → b s = .error (.trap 0x01 (BitVec.ofNat 64 enc))) := by
  refine ⟨vEnc 0 0 0 0 0 0x19 0x0F d a, _, rfl, fun c hc => ?_, fun hc => ?_⟩
  · rw [vecBody_pass hslot hbad rfl (by simp), hc]
  · rw [vecBody_pass hslot hbad rfl (by simp), hc]
    rfl

theorem maskWrites : MaskWrites := by
  intro s hs hslot hbad
  have pass {ok : Nat → Bool} (enc : Nat) (b : Body) (hok : ok s.vec.fmt = true) : vecBody enc ok false b s = b s :=
    vecBody_pass hslot hbad hok (by simp)
  refine ⟨fun i d f h => ?_, fun d a => ?_, fun d a v hv hd => ?_, fun d a hda => ?_⟩
  · obtain ⟨enc, g, hexec, hg⟩ := exec_maskLogic h
    obtain ⟨t, ht, hpc, hvec, hkept⟩ := runBody_updVec_adv (b := maskOp enc d g)
      (f := fun c => c.putM d (2 ^ s.vec.vl.toNat - 1) (g s.vec).toNat) hs (pass _ _ rfl) (s.vec.kept_setMask d _ none)
    refine ⟨t, (hexec s).trans ht, hpc, by rw [hvec]; rfl, hkept, by rw [hvec]; rfl, fun k hk => ?_⟩
    rw [hvec, VecCtx.mask_putM _ _ _ _ hk, Nat.testBit_two_pow_sub_one, ← hg s.vec k hk]
    simp only [decide_eq_true_eq]
    rfl
  · let v := BitVec.ofNat 4096 (2 ^ min 4096 (s.g a).toNat - 1)
    obtain ⟨b, hexec, hb⟩ : ∃ b, exec (.msetn d a) s = runBody s b ∧
        b s = .ok ((s.updVec fun c => { c with m := c.m.set d.toFin v }).adv 4) := ⟨_, rfl, pass _ _ rfl⟩
    obtain ⟨t, ht, hpc, hvec, hkept⟩ := runBody_updVec_adv hs hb (s.vec.kept_setMask d v none)
    refine ⟨t, hexec.trans ht, hpc, by rw [hvec], hkept, by rw [hvec], fun k hk => ?_⟩
    have hm : t.vec.mask d = v := by rw [hvec]; exact Vector.getElem_set_self ..
    rw [hm, BitVec.getLsbD_ofNat, Nat.testBit_two_pow_sub_one]
    simp [hk]
  · obtain ⟨enc, b, hexec, hok, -⟩ := exec_mmove hslot hbad d a
    obtain ⟨c, hc⟩ := s.vec.setWide_of_le v hd
    obtain ⟨hself, hothers, hctx⟩ := VecCtx.wide_setWide hc
    obtain ⟨t, ht, hpc, hvec, hkept⟩ := runBody_updVec_adv hs (hok c (by rw [hv]; exact hc)) hctx
    exact ⟨t, hexec.trans ht, hpc, by rw [hvec, hself], fun r hr => by rw [hvec, hothers r hr], hkept⟩
  · obtain ⟨enc, b, hexec, -, hill⟩ := exec_mmove hslot hbad d a
    refine ⟨_, hexec.trans (runBody_error_trap hs (hill ?_))⟩
    rcases hda with hd | ha
    · cases s.vec.wide a with
      | none => rfl
      | some v => exact s.vec.setWide_of_ge v hd
    · rw [s.vec.wide_of_ge ha]; rfl

/-- Settles O13: a compare is the list of bits it writes over md, read bit by bit; the mask instructions replace one mask. -/
theorem maskInstructions : Obligations.MaskInstructions :=
  ⟨vectorCompare, maskWrites⟩

end Sys2Proof.Machine
end

section
/-!
CTLR, CTLW, CTLS and CTLC (07_control_registers.md R231-R233, R237; 05_vector_registers.md R184).
-/
namespace Sys2Proof.Machine

/-! ### The checks of a CTL access -/

section
variable {s : State} {enc n r : Nat} {w : Option Nat} {rd wr : Bool}

theorem isVecReg_iff (n : Nat) : isVecReg n = true ↔ 0x010 ≤ n ∧ n ≤ 0x014 := by simp [isVecReg]

/-- Where the encoding is illegal whatever the slot's level: no such register, a vector register in slots 2 to 7, or a write of
VL with VT.BAD (R232, R184). -/
def CtlIllegal (s : State) (n : Nat) (wr : Bool) : Prop :=
  cregLevels n = none ∨ (0x010 ≤ n ∧ n ≤ 0x014 ∧ 2 ≤ s.cur.slot.val) ∨ (wr = true ∧ n = 0x013 ∧ s.vec.bad = true)

/-- What the levels of a register's columns leave of an access that is not illegal (R231, R233). -/
def ctlLevel (enc prv r : Nat) (w : Option Nat) (rd wr : Bool) : Except Stop Unit :=
  if rd = true ∧ prv < r ∨ wr = true ∧ ∀ p, w = some p → prv < p then .error (.trap 0x03 (BitVec.ofNat 64 enc)) else .ok ()

theorem ctlCheck_of_illegal (h : CtlIllegal s n wr) :
    ctlCheck s enc n rd wr = .error (.trap 0x01 (BitVec.ofNat 64 enc)) := by
  unfold ctlCheck
  dsimp only
  split
  · rfl
  case h_2 r w hl =>
    rcases h with hn | ⟨hlo, hhi, hslot⟩ | ⟨hwr, hn, hbad⟩
    · rw [hn] at hl; cases hl
    · rw [if_pos (by simp [(isVecReg_iff n).2 ⟨hlo, hhi⟩, hslot])]; rfl
    · split
      · rfl
      · rw [if_pos (by simp [hwr, hn, hbad])]; rfl

theorem ctlCheck_of_not_illegal (h : ¬CtlIllegal s n wr) (hl : cregLevels n = some (r, w)) :
    ctlCheck s enc n rd wr = ctlLevel enc s.me.prv r w rd wr := by
  have hslot : ¬(isVecReg n && decide (2 ≤ s.cur.slot.val)) = true := fun hc => h (.inr (.inl (by
    rw [Bool.and_eq_true, isVecReg_iff, decide_eq_true_eq] at hc
    exact ⟨hc.1.1, hc.1.2, hc.2⟩)))
  have hbad : ¬(wr && n == 0x013 && s.vec.bad) = true := fun hc => h (.inr (.inr (by
    rw [Bool.and_eq_true, Bool.and_eq_true, beq_iff_eq] at hc
    exact ⟨hc.1.1, hc.1.2, hc.2⟩)))
  unfold ctlCheck ctlLevel
  rw [hl]
  dsimp only
  rw [if_neg hslot, if_neg hbad]
  by_cases hrd : rd = true ∧ s.me.prv < r
  · rw [if_pos (by simp [hrd]), if_pos (.inl hrd)]; rfl
  · rw [if_neg (by simpa using hrd)]
    cases wr with
    | false => simp [hrd]
    | true =>
      cases w with
      | none => simp [cPRIVILEGE]
      | some l =>
        by_cases hp : s.me.prv < l <;> simp [hrd, hp, cPRIVILEGE]

end

/-! ### A write of a control register leaves every slot's run state -/

/-- The run states of a tile's slots. -/
def Tile.runs (x : Tile) (k : Fin 8) : RunState := x.slots[k].run

theorem Tile.runs_modSlot (x : Tile) (k : Fin 8) {f : Slot → Slot} (hf : ∀ y, (f y).run = y.run) :
    (x.modSlot k f).runs = x.runs := by
  funext j
  rw [Tile.runs, Tile.modSlot_slot]
  split
  case isTrue h => rw [hf, h]; rfl
  case isFalse => rfl

theorem keepsRuns_onSlot (s : State) (t : Nat) (k : Fin 8) {f : Slot → Slot}
    (hf : ∀ y, (f y).run = y.run := by exact fun _ => rfl) : Keeps Tile.runs s (s.onSlot t k f) :=
  keeps_modTile s t fun x => x.runs_modSlot k hf

theorem keepsRuns_onVec (s : State) (t : Nat) (k : Fin 8) (f : VecCtx → VecCtx) : Keeps Tile.runs s (s.onVec t k f) := by
  unfold State.onVec
  split
  · exact keeps_modTile s t
  · exact .refl s

theorem Slot.run_rearm (x : Slot) : x.rearm.run = x.run := by
  unfold Slot.rearm; split <;> rfl

/-- A write of one of the tile's registers. -/
theorem keepsRuns_modTile (s : State) (t : Nat) {f : Tile → Tile} (hf : ∀ x, (f x).slots = x.slots) :
    Keeps Tile.runs s (s.modTile t f) := keeps_modTile s t fun x => by
  funext k
  rw [Tile.runs, Tile.runs]
  simp only [hf]

theorem keeps_ite {α : Type} {φ : Tile → α} {c : Prop} [Decidable c] {s a b : State} (ha : Keeps φ s a)
    (hb : Keeps φ s b) : Keeps φ s (if c then a else b) := by
  split
  · exact ha
  · exact hb

theorem keepsRuns_writePlain (s : State) (t : Nat) (k : Fin 8) (n : Nat) (q : Word) :
    Keeps Tile.runs s (s.writePlain t k n q) := by
  unfold State.writePlain
  -- CAUSE to CIR, WDOG and WDLIM, PID to PRIO, and the tile's registers
  iterate 6 refine keeps_ite (keepsRuns_onSlot s t k) ?_
  iterate 2 refine keeps_ite (keepsRuns_onSlot s t k fun x => Slot.run_rearm _) ?_
  iterate 4 refine keeps_ite (keepsRuns_onSlot s t k) ?_
  iterate 3 refine keeps_ite (keepsRuns_modTile s t fun _ => rfl) ?_
  exact .refl s

theorem keepsRuns_cregWrite (s : State) (t : Nat) (k : Fin 8) (prv n : Nat) (q : Word) :
    Keeps Tile.runs s (s.cregWrite t k prv n q) := by
  unfold State.cregWrite
  -- STATUS, the vector registers, the tile's registers with a rule of their own
  refine keeps_ite (keepsRuns_onSlot s t k) ?_
  iterate 5 refine keeps_ite (keepsRuns_onVec s t k _) ?_
  iterate 4 refine keeps_ite (keepsRuns_modTile s t fun x => by split <;> rfl) ?_
  iterate 2 refine keeps_ite (keepsRuns_modTile s t fun _ => rfl) ?_
  refine keeps_ite (keepsRuns_modTile s t fun x => by split <;> rfl) ?_
  exact keepsRuns_writePlain ..

theorem run_cregWrite (s : State) (prv n : Nat) (q : Word) :
    (s.cregWrite s.cur.tile s.cur.slot prv n q).me.run = s.me.run := by
  obtain ⟨hcur, hruns⟩ := keepsRuns_cregWrite s s.cur.tile s.cur.slot prv n q
  rw [State.me, State.me, hcur]
  exact congrFun (hruns s.cur.tile) s.cur.slot

/-! ### The instructions (R237) -/

/-- Each CTL instruction as the model's shared operation, with its own word for EVAL. -/
theorem exec_ctl {i : Instr} {c : BitVec 12} {rd wr : Bool} (h : CtlForm i c rd wr) : ∃ enc d f,
    (∀ s, exec i s = runBody s (ctlBody enc c rd wr d f)) ∧ ∀ n w, encodeWord i = some (n, w) → enc = w := by
  have hc : (c.setWidth 13).toNat = c.toNat := BitVec.toNat_setWidth_of_le (by decide)
  have h0 : (0 : BitVec 5).toNat = 0 := rfl
  cases h with
  | ctlr | ctlw | ctls | ctlc =>
    refine ⟨_, _, _, fun _ => rfl, fun n w he => ?_⟩
    cases he
    rw [iEnc, hc]
    omega

theorem setG_adv_done (s : State) (len : Nat) (d : BitVec 5) (v : Word) :
    ((s.setG d v).adv len).updMe (fun x => { x with wait := none }) = s.ended len fun x => x.setG d v := by
  simp only [State.adv, State.setG, State.ended, State.updMe_updMe, Slot.setG_pc]

section
variable {s : State} {n : Nat}

/-- The columns an access uses, at a level that suffices for each. -/
theorem levels_of_allowed {rd wr : Bool} (huse : rd = true ∨ wr = true) (hr : rd = true → Readable s n)
    (hw : wr = true → Writable s n) : ∃ r w, cregLevels n = some (r, w) ∧ (rd = true → r ≤ s.me.prv) ∧
      (wr = true → ∃ l, w = some l ∧ l ≤ s.me.prv) ∧ (0x010 ≤ n → n ≤ 0x014 → s.cur.slot.val < 2) := by
  cases wr with
  | false =>
    obtain ⟨r, w, hl, hp, hv⟩ := hr (by simpa using huse)
    exact ⟨r, w, hl, fun _ => hp, by simp, hv⟩
  | true =>
    obtain ⟨r, l, hl, hp, hv, -⟩ := hw rfl
    refine ⟨r, some l, hl, fun hrd => ?_, fun _ => ⟨l, rfl, hp⟩, hv⟩
    obtain ⟨r', w', hl', hp', -⟩ := hr hrd
    obtain ⟨rfl, -⟩ : r = r' ∧ some l = w' := Prod.mk.inj (Option.some.inj (hl.symm.trans hl'))
    exact hp'

/-- An access whose level suffices for each column it uses passes its checks. -/
theorem ctlCheck_pass {enc : Nat} {rd wr : Bool} (huse : rd = true ∨ wr = true) (hr : rd = true → Readable s n)
    (hw : wr = true → Writable s n) : ctlCheck s enc n rd wr = .ok () := by
  obtain ⟨r, w, hl, hrd, hwr, hv⟩ := levels_of_allowed huse hr hw
  have hill : ¬CtlIllegal s n wr := by
    rintro (hn | ⟨hlo, hhi, hslot⟩ | ⟨h, hn, hbad⟩)
    · rw [hl] at hn; cases hn
    · have := hv hlo hhi; omega
    · obtain ⟨-, -, -, -, -, hgood⟩ := hw h
      rw [hgood hn] at hbad
      cases hbad
  rw [ctlCheck_of_not_illegal hill hl, ctlLevel, if_neg]
  rintro (⟨h, hlt⟩ | ⟨h, hlt⟩)
  · have := hrd h; omega
  · obtain ⟨l, rfl, hle⟩ := hwr h
    have := hlt l rfl
    omega

end

theorem controlRegisters : ControlRegisters := by
  intro s c d a hs old put
  have hrun (v : Word) : (put v).me.run = .running := (run_cregWrite ..).trans hs.2
  refine ⟨fun hr => ?_, fun hw => ?_, fun hr hw => ?_⟩
  · refine (runBody_next hs (t := (s.setG d old).adv 4) ?_ (by simp [hs.2])).trans (congrArg _ (setG_adv_done ..))
    rw [ctlBody, ctlCheck_pass (.inl rfl) (fun _ => hr) (by simp)]
    rfl
  · refine runBody_next hs (t := (put (s.g a)).adv 4) ?_ (by simp [hrun])
    rw [ctlBody, ctlCheck_pass (.inr rfl) (by simp) fun _ => hw]
    rfl
  · have hboth (enc : Nat) : ctlCheck s enc c.toNat true true = .ok () :=
      ctlCheck_pass (.inl rfl) (fun _ => hr) fun _ => hw
    constructor
    · refine runBody_next hs (t := ((put (old ||| s.g a)).setG d old).adv 4) ?_ (by simp [hrun])
      rw [ctlBody, hboth]
      rfl
    · refine runBody_next hs (t := ((put (old &&& ~~~s.g a)).setG d old).adv 4) ?_ (by simp [hrun])
      rw [ctlBody, hboth]
      rfl

theorem controlRegisterTraps : ControlRegisterTraps := by
  intro i c rd wr s nbits w h hs he
  obtain ⟨enc, d, f, hexec, henc⟩ := exec_ctl h
  obtain rfl := henc _ _ he
  rw [hexec]
  refine ⟨fun hill => runBody_error_trap hs ?_, fun r l hill hl hp => runBody_error_trap hs ?_⟩
  · rw [ctlBody, ctlCheck_of_illegal hill]
  · rw [ctlBody, ctlCheck_of_not_illegal hill hl, ctlLevel, if_pos hp]

/-- Settles O7: a CTL access is its checks, then one write of the register through its rule and one of g d. -/
theorem controlRegisterAccess : Obligations.ControlRegisterAccess :=
  ⟨controlRegisters, controlRegisterTraps⟩

end Sys2Proof.Machine
end

section
/-!
SETVL, SETVLI and SETVT (05_vector_registers.md R177, R185, R186).
-/
namespace Sys2Proof.Machine

/-! ### The strip closed (14_counters_and_records.md R474) -/

/-- A change of the current tile's trace or counters alone. -/
def TileAside (s t : State) : Prop := BodyKept s t none ∧ t.vec = s.vec

section
variable {s t u : State}

theorem BodyKept.weaken (h : BodyKept s t none) (g : Option (BitVec 5)) : BodyKept s t g :=
  ⟨⟨h.cur, h.run, fun n _ => h.regs n (by simp), h.ext, h.status, h.mem, h.dram, h.host⟩, h.pc⟩

theorem TileAside.refl (s : State) : TileAside s s := ⟨.refl s, rfl⟩

theorem TileAside.trans (h : TileAside s t) (h' : TileAside t u) : TileAside s u :=
  ⟨h.1.trans h'.1, h'.2.trans h.2⟩

theorem tileAside_updTile (s : State) {f : Tile → Tile} (hslots : ∀ x, (f x).slots = x.slots := by exact fun _ => rfl)
    (hmem : ∀ x, (f x).mem = x.mem := by exact fun _ => rfl) (hvecs : ∀ x, (f x).vecs = x.vecs := by exact fun _ => rfl) :
    TileAside s (s.updTile f) := ⟨bodyKept_updTile s hslots hmem, State.vec_updTile hvecs⟩

theorem tileAside_ite {c : Prop} [Decidable c] (ht : TileAside s t) (hu : TileAside s u) :
    TileAside s (if c then t else u) := by
  split
  · exact ht
  · exact hu

theorem tileAside_addRecord (s : State) (k typ : Nat) (p0 : Word) (rest : List (BitVec 128)) :
    TileAside s (s.addRecord s.cur.tile k typ p0 rest) := by
  have hroll : TileAside s (s.updTile fun x => { x with trace := x.trace.roll (s.cycle s.cur.tile) }) := tileAside_updTile s
  refine hroll.trans ?_
  unfold State.addRecord
  exact tileAside_ite (tileAside_updTile _) (tileAside_updTile _)

theorem tileAside_slotRecord (s : State) (en typ : Nat) (p0 : Word) (rest : List (BitVec 128)) :
    TileAside s (s.slotRecord en typ p0 rest) := by
  unfold State.slotRecord
  split
  · exact tileAside_addRecord ..
  · exact .refl s

theorem tileAside_closeStrip (s : State) (vl : Nat) : TileAside s (s.closeStrip vl) := by
  unfold State.closeStrip
  split
  · dsimp only
    split
    · exact tileAside_updTile s
    · exact (tileAside_slotRecord ..).trans (tileAside_updTile _)
  · exact .refl s

end

/-! ### The lengths granted and VT set -/

/-- An instruction that replaces the vector context, writes the VL it leaves to `g d` too and completes. -/
theorem runBody_setVec {s u : State} {b : Body} {d : BitVec 5} {f : VecCtx → VecCtx} (hs : Ready s)
    (hu : TileAside (s.updVec f) u) (hb : b s = .ok (u.setG d ((f s.vec).vl.setWidth 64)).longDone) :
    ∃ t, runBody s b = .next t ∧ VecDone s t ∧ t.vec = { f s.vec with fmask := BitVec.allOnes 4096 } ∧
      (d ≠ 0 → t.me.getG d = t.vec.vl.setWidth 64) ∧ ∀ n, n ≠ d → t.me.getG n = s.me.getG n := by
  obtain ⟨hkept, hvec⟩ := hu
  obtain ⟨t, ht, hdone, hrest, hvt, hg⟩ := runBody_longDone hs hb
    (((bodyKept_updVec s f).trans (hkept.weaken _)).trans (bodyKept_setG u d _))
  rw [State.setG, State.vec_updMe, hvec, State.vec_updVec] at hvt
  rw [State.setG, State.me_updMe] at hg
  refine ⟨t, ht, hdone, hvt, fun hd => ?_, fun n hn => hrest.regs n fun e => hn (Option.some.inj e)⟩
  rw [hvt, ← Slot.getG_setG_self u.me ((f s.vec).vl.setWidth 64) hd, Slot.getG, Slot.getG, hg]

/-- SETVL and SETVLI on a good vector slot. -/
theorem runBody_setvlBody {s : State} (hs : Ready s) (hslot : s.cur.slot.val < 2) (hbad : s.vec.bad = false) (enc : Nat)
    (d : BitVec 5) (q : State → Word) : ∃ t, runBody s (setvlBody enc d q) = .next t ∧ VecDone s t ∧
      t.vec.vl = BitVec.ofNat 13 (s.vec.grant (q s).toNat) ∧ t.vec.vt = s.vec.vt ∧
      (d ≠ 0 → t.me.getG d = t.vec.vl.setWidth 64) ∧ ∀ n, n ≠ d → t.me.getG n = s.me.getG n := by
  have hb : setvlBody enc d q s = .ok (((s.updVec fun c => c.setVl (q s)).closeStrip (s.vec.setVl (q s)).vl.toNat).setG d
      ((s.vec.setVl (q s)).vl.setWidth 64)).longDone := by
    rw [setvlBody, vecBody_pass hslot hbad rfl (by simp)]
    simp only [State.vec_updVec]
  obtain ⟨t, ht, hdone, hvec, hd, hothers⟩ := runBody_setVec (f := fun c => c.setVl (q s)) hs (tileAside_closeStrip ..) hb
  exact ⟨t, ht, hdone, by rw [hvec]; rfl, by rw [hvec]; rfl, hd, hothers⟩

/-- VT after a value with a reserved bit or a reserved format code. -/
theorem VecCtx.setVt_reserved (c : VecCtx) {q : Word} (h : 2 ^ 11 ≤ q.toNat ∨ fmtKnown (bits q 4 0) = false) :
    c.setVt q = { c with vt := 0x80000000, vl := 0 } := by
  rw [VecCtx.setVt, if_pos]
  rcases h with h | h
  · exact .inl (by omega)
  · exact .inr h

/-- VT after a good value, with VL trimmed to it. -/
theorem VecCtx.setVt_good (c : VecCtx) {q : Word} (h : ¬(2 ^ 11 ≤ q.toNat ∨ fmtKnown (bits q 4 0) = false)) :
    (c.setVt q).vt = q.setWidth 32 ∧ (c.setVt q).vl = BitVec.ofNat 13 ((c.setVt q).grant c.vl.toNat) ∧
      (c.setVt q).v = c.v ∧ (c.setVt q).m = c.m := by
  obtain ⟨hlt, hfmt⟩ := not_or.1 h
  have hbits : BitVec.ofNat 32 (bits q 10 0) = q.setWidth 32 := by
    rw [bits, Nat.pow_zero, Nat.div_one, Nat.mod_eq_of_lt (by omega)]
    exact BitVec.eq_of_toNat_eq (by simp)
  rw [VecCtx.setVt, if_neg (by rintro (h' | h') <;> [omega; exact hfmt h']), hbits]
  exact ⟨rfl, rfl, rfl, rfl⟩

/-- The grant depends on VT alone. -/
theorem VecCtx.grant_congr {c c' : VecCtx} (h : c'.vt = c.vt) (q : Nat) : c'.grant q = c.grant q := by
  have hfmt : c'.fmt = c.fmt := congrArg (bits · 4 0) h
  have hblk : c'.blk = c.blk := congrArg (fun vt => blockLen (bits vt 6 5)) h
  have hmax : c'.vlMax = c.vlMax := by rw [VecCtx.vlMax, VecCtx.vlMax, hfmt, hblk]
  rw [VecCtx.grant, VecCtx.grant, hfmt, hblk, hmax]

/-- The statement's grant and the model's (R185). -/
theorem VecCtx.grant_eq (c : VecCtx) (q : Nat) :
    Min.min q c.vlMax - (if isBfp c.fmt then Min.min q c.vlMax % c.blk else 0) = c.grant q := by
  rw [VecCtx.grant]
  split <;> rfl

/-- Settles O17: each of the three replaces the context through one rule, and writes the VL it leaves to g d. -/
theorem setVector : Obligations.SetVector := by
  intro s hs hslot grant
  have hgrant (c : VecCtx) (q : Nat) : grant c q = c.grant q := c.grant_eq q
  simp only [hgrant]
  refine ⟨fun d a hbad => runBody_setvlBody hs hslot hbad _ d fun st => st.g a, fun i d hbad => ?_, fun d a => ?_⟩
  · have hi : (i.setWidth 64).toNat = i.toNat := BitVec.toNat_setWidth_of_le (by decide)
    rw [← hi]
    exact runBody_setvlBody hs hslot hbad _ d fun _ => i.setWidth 64
  · obtain ⟨b, hexec, hb⟩ : ∃ b, exec (.setvt d a) s = runBody s b ∧
        b s = .ok ((s.updVec fun c => c.setVt (s.g a)).setG d ((s.vec.setVt (s.g a)).vl.setWidth 64)).longDone := by
      refine ⟨_, rfl, ?_⟩
      rw [needVec, if_neg (by omega)]
      simp only [State.vec_updVec]
    obtain ⟨t, ht, hdone, hvec, hd, hothers⟩ := runBody_setVec hs (.refl _) hb
    refine ⟨t, hexec.trans ht, hdone, ?_, hd, hothers⟩
    have hvt : t.vec.vt = (s.vec.setVt (s.g a)).vt := by rw [hvec]
    have hvl : t.vec.vl = (s.vec.setVt (s.g a)).vl := by rw [hvec]
    rw [VecCtx.grant_congr hvt, hvt, hvl]
    split
    case isTrue h => rw [s.vec.setVt_reserved h]; exact ⟨rfl, rfl⟩
    case isFalse h =>
      obtain ⟨hset, hlen, -, -⟩ := s.vec.setVt_good h
      exact ⟨hset, hlen⟩

end Sys2Proof.Machine
end

section
/-!
The write rows: each changes its register and nothing else (05_vector_registers.md R175, R176, R186; 07_control_registers.md
R233, R234, R236, R249).
-/
namespace Sys2Proof.Machine

/-- A row whose rule is `f`. -/
theorem happens_of_runEvent {i : Instr} {s t : State} (f : State → State) (hup : s.dev.railUp = true)
    (hexec : exec i s = runEvent s f) (hf : f s = t) : Happens i s t := by
  rw [Happens, hexec, runEvent_up s f hup, hf]

/-- An update of a tile may be read at the tile it starts from. -/
theorem State.modTile_congr {s : State} {n : Nat} {f g : Tile → Tile} (h : f (s.tile n) = g (s.tile n)) :
    s.modTile n f = s.modTile n g := by rw [State.modTile, State.modTile, h]

/-! ### The registers of the long-vector context (R175, R176, R186) -/

/-- A register of a vector slot's context, written by `f`. -/
theorem onVec_of_vector {s : State} {n : Nat} {k : Fin 8} (hk : k.val < 2) {f : VecCtx → VecCtx} {c : VecCtx}
    (h : f (s.tile n).vecs[vecIdx k] = c) :
    s.onVec n k f = s.modTile n fun x => { x with vecs := x.vecs.set (vecIdx k) c } := by
  subst h
  rw [State.onVec, if_pos hk]
  exact State.modTile_congr rfl

theorem onVec_of_other {s : State} {n : Nat} {k : Fin 8} (hk : 2 ≤ k.val) (f : VecCtx → VecCtx) : s.onVec n k f = s := by
  rw [State.onVec, if_neg (by omega)]

theorem vectorRegisterWrites : VectorRegisterWrites := by
  intro s n k q hup
  refine ⟨fun hk i hi => ?_, fun hk => ?_⟩
  · simp only [List.mem_cons, List.not_mem_nil, or_false] at hi
    rcases hi with rfl | rfl | rfl | rfl | rfl <;> exact happens_of_runEvent _ hup rfl (onVec_of_other hk _)
  · intro j c one grant
    have hgrant (d : VecCtx) (v : Nat) : grant d v = d.grant v := d.grant_eq v
    refine ⟨⟨_, happens_of_runEvent _ hup rfl rfl, onVec_of_vector hk rfl⟩,
      ⟨_, happens_of_runEvent _ hup rfl rfl, onVec_of_vector hk rfl⟩,
      ⟨_, happens_of_runEvent _ hup rfl rfl, onVec_of_vector hk rfl⟩, fun hbad => ?_, fun hbad => ?_, fun hlt hfmt => ?_⟩
    · exact ⟨_, happens_of_runEvent _ hup rfl rfl, onVec_of_vector hk (if_pos hbad)⟩
    · rw [hgrant]
      exact ⟨_, happens_of_runEvent _ hup rfl rfl, onVec_of_vector hk (if_neg (Bool.eq_false_iff.1 hbad))⟩
    · have hgood : ¬(2 ^ 11 ≤ q.toNat ∨ fmtKnown (bits q 4 0) = false) := by
        rintro (h | h)
        · omega
        · rw [hfmt] at h; cases h
      refine ⟨_, c.setVt q, happens_of_runEvent _ hup rfl rfl, onVec_of_vector hk rfl, ?_⟩
      rw [hgrant]
      exact c.setVt_good hgood

/-! ### The tile's registers (R208, R234, R262, R344, R368, R462) -/

theorem bits_low {w m hi : Nat} {x : BitVec w} (h : m = 2 ^ (hi + 1)) : bits x hi 0 = x.toNat % m := by
  rw [bits, Nat.pow_zero, Nat.div_one, Nat.sub_zero, h]

/-- A value of 32 bits with [7:4] clear has no bit outside INJECT's fields (R234). -/
theorem injectFields_of_lt {v : Word} (hlt : v.toNat < 2 ^ 32) (h4 : bits v 7 4 = 0) : v &&& 0xFFFFFF0F = v := by
  refine BitVec.eq_of_getLsbD_eq fun i _ => ?_
  rw [BitVec.getLsbD_and]
  have hfield : ∀ i < 32, i < 4 ∨ 8 ≤ i → (0xFFFFFF0F : Word).getLsbD i = true := by decide
  have hclear : v.getLsbD i = false ∨ (i < 32 ∧ (i < 4 ∨ 8 ≤ i)) := by
    by_cases h32 : i < 32
    · by_cases hi : i < 4 ∨ 8 ≤ i
      · exact .inr ⟨h32, hi⟩
      · have := testBit_bits v 7 4 (i - 4)
        rw [h4, Nat.zero_testBit, show 4 + (i - 4) = i by omega] at this
        simp only [show i - 4 < 7 + 1 - 4 by omega, decide_true, Bool.true_and] at this
        exact .inl this.symm
    · exact .inl (Nat.testBit_lt_two_pow (hlt.trans_le (Nat.pow_le_pow_right (by decide) (by omega))))
  rcases hclear with h | ⟨h32, hi⟩
  · rw [h, Bool.false_and]
  · rw [hfield i h32 hi, Bool.and_true]

/-- INJECT armed with a kind of the table (R234). -/
theorem writeInject_of_kind (s : State) (n : Nat) {v : Word} (hlt : v.toNat < 2 ^ 32) (h4 : bits v 7 4 = 0)
    (hkind : bits v 3 0 ≤ 5) : s.writeInject n v = s.modTile n fun x => { x with inject := v } := by
  simp only [State.writeInject, if_pos hkind, injectFields_of_lt hlt h4]

theorem tileRegisterWrites : TileRegisterWrites := by
  intro i n f s h hup
  cases h with
  | mslot _ i q =>
    exact happens_of_runEvent (·.writeMslot n i q) hup rfl (by rw [State.writeMslot, bits_low (m := 4) rfl, BitVec.ofNat_toNat])
  | bfmt _ i q => exact happens_of_runEvent (·.writeBfmt n i q) hup rfl (by rw [State.writeBfmt, bits_low (m := 32) rfl])
  | perfsel _ i q =>
    exact happens_of_runEvent (·.writePerfsel n i q) hup rfl (by rw [State.writePerfsel, bits_low (m := 2 ^ 16) rfl]; simp [eventKnown])
  | probeDelay _ q => exact happens_of_runEvent (·.writeProbeDelay n q) hup rfl (by rw [State.writeProbeDelay, bits_low (m := 2 ^ 32) rfl])
  | decDeadline _ q => exact happens_of_runEvent (·.writeDecDeadline n q) hup rfl (by rw [State.writeDecDeadline, bits_low (m := 2 ^ 16) rfl])
  | crate _ i q =>
    exact happens_of_runEvent (·.writeCrate n i q) hup rfl (by rw [State.writeCrate, bits_low (m := 8) rfl, BitVec.ofNat_toNat])
  | drop _ f =>
    have hf := f.isLt
    refine happens_of_runEvent (·.writeInject n _) hup rfl (writeInject_of_kind s n ?_ ?_ ?_) <;>
      simp only [bits, BitVec.toNat_ofNat] <;> omega
  | hold _ f d =>
    have hf := f.isLt
    have hd := d.isLt
    refine happens_of_runEvent (·.writeInject n _) hup rfl (writeInject_of_kind s n ?_ ?_ ?_) <;>
      simp only [bits, BitVec.toNat_ofNat] <;> omega
  | mismatch | double | poison =>
    refine happens_of_runEvent (·.writeInject n _) hup rfl (writeInject_of_kind s n ?_ ?_ ?_) <;> decide

/-! ### STATUS by its rule (R236) -/

theorem bit_setBit {w i : Nat} (hi : i < w) (x : BitVec w) (b : Bool) (j : Nat) :
    bit (setBit x i b) j = if j = i then b else bit x j := by
  have hone : (BitVec.ofNat w (2 ^ i)).getLsbD j = decide (j = i) := by
    rw [BitVec.getLsbD_ofNat, Nat.testBit_two_pow]
    by_cases h : j = i
    · subst h; simp [hi]
    · simp [h, Ne.symm h]
  unfold bit setBit
  by_cases hj : j < w
  · cases b <;>
      simp only [if_true, if_false, Bool.false_eq_true, BitVec.getLsbD_or, BitVec.getLsbD_and, BitVec.getLsbD_not, hone, hj,
        decide_true, Bool.true_and] <;>
      by_cases h : j = i <;> simp [h]
  · rw [BitVec.getLsbD_of_ge _ j (by omega), if_neg (by omega), BitVec.getLsbD_of_ge x j (by omega)]

/-- STATUS outside SAVED after a write at level `prv`: PW and EOS are the value's, IE and TD too above level P. -/
theorem bit_writeStatus (old q : Word) (prv : Nat) {i : Nat} (hi : ¬(16 ≤ i ∧ i ≤ 24)) :
    bit (writeStatus old q prv) i =
      if i = 0 ∨ i = 8 ∨ (prv ≠ 0 ∧ (i = 1 ∨ i = 2)) then bit q i else bit old i := by
  have h0 : bit (setBit (setBit old 0 (bit q 0)) 8 (bit q 8)) i = if i = 0 ∨ i = 8 then bit q i else bit old i := by
    rw [bit_setBit (by decide), bit_setBit (by decide)]
    by_cases h8 : i = 8 <;> by_cases hi0 : i = 0 <;> simp [h8, hi0]
  unfold writeStatus
  split
  case isTrue hp =>
    simp only [h0, hp, ne_eq, not_true_eq_false, false_and, or_false]
  case isFalse hp =>
    rw [bit_setBits (by decide) (by decide), if_neg hi, bit_setBit (by decide), bit_setBit (by decide), h0]
    by_cases h2 : i = 2 <;> by_cases h1 : i = 1 <;> simp [h2, h1, hp]

theorem bits_congr {w : Nat} {x y : BitVec w} {hi lo : Nat} (h : ∀ i, lo ≤ i → i ≤ hi → bit x i = bit y i) :
    bits x hi lo = bits y hi lo := by
  refine Nat.eq_of_testBit_eq fun j => ?_
  rw [testBit_bits, testBit_bits]
  by_cases hj : j < hi + 1 - lo
  · exact congrArg _ (h (lo + j) (by omega) (by omega))
  · simp [hj]

/-! ### The registers of a slot's own context (R233, R236, R249) -/

theorem happens_controlRegisterWrite {s : State} {n : Nat} {k : Fin 8} {c : BitVec 12} {q : Word} {r l : Nat}
    (hup : s.dev.railUp = true) (hl : cregLevels c.toNat = some (r, some l)) :
    (l ≤ (s.slot n k).prv → Happens (.controlRegisterWrite n k c q) s (s.writePlain n k c.toNat q)) ∧
    ((s.slot n k).prv < l → Happens (.controlRegisterWrite n k c q) s s) := by
  have hexec : exec (.controlRegisterWrite n k c q) s =
      .next (if (s.slot n k).prv < l then s else s.writePlain n k c.toNat q) := by
    change execControlRegisterWrite n k c q s = _
    rw [execControlRegisterWrite, runEvent_up _ _ hup, hl]
  rw [Happens, Happens, hexec]
  exact ⟨fun hp => by rw [if_neg (by omega)], fun hp => by rw [if_pos hp]⟩

theorem happens_slotImageWrite {s : State} {n : Nat} {k : Fin 8} {o : BitVec 10} {q : Word} {f : Slot → Slot}
    (hup : s.dev.railUp = true) (ho : o.toNat % 8 = 0) (hrun : (s.slot n k).run = .stopped)
    (hf : ∀ x : Slot, x.imageWrite o.toNat q = f x) : Happens (.slotImageWrite n k o q) s (s.modSlot n k f) :=
  happens_of_runEvent _ hup rfl ((if_pos ⟨ho, hrun⟩).trans (congrArg _ (funext hf)))

/-- A register of a slot's context, by its number and in its image: levels, and one write of it. -/
theorem SlotReg.writes {c o : Nat} {f : Word → Slot → Slot} (h : SlotReg c o f) :
    (∃ r, cregLevels (BitVec.ofNat 12 c).toNat = some (r, some 1)) ∧
    (∀ (s : State) n k q, s.writePlain n k (BitVec.ofNat 12 c).toNat q = s.modSlot n k (f q)) ∧
    (BitVec.ofNat 10 o).toNat % 8 = 0 ∧ ∀ (x : Slot) q, x.imageWrite (BitVec.ofNat 10 o).toNat q = f q x := by
  cases h with
  | epc | eval | tvec | scratch | cause | prio =>
    exact ⟨⟨_, rfl⟩, fun _ _ _ _ => rfl, rfl, fun _ _ => rfl⟩

theorem imageWrite_g (x : Slot) (r : BitVec 5) (q : Word) :
    x.imageWrite (BitVec.ofNat 10 (8 * r.toNat)).toNat q = x.setG r q := by
  have hr := r.isLt
  have hi : (BitVec.ofNat 10 (8 * r.toNat)).toNat / 8 = r.toNat := by
    rw [BitVec.toNat_ofNat]; omega
  simp only [Slot.imageWrite, hi, if_pos hr, BitVec.ofNat_toNat, BitVec.setWidth_eq]

theorem onlyTile_modTile (s : State) (n : Nat) (f : Tile → Tile) : OnlyTile s (s.modTile n f) n :=
  ⟨fun u hu => State.tile_modTile_ne s n u f hu.symm, rfl, rfl, rfl, rfl, rfl⟩

theorem slotRegisterWrites : SlotRegisterWrites := by
  intro s n k q hup put
  refine ⟨fun c o f h => ?_, fun r hrun => ?_, fun hrun => ?_, fun o hrun => ?_, ?_⟩
  · obtain ⟨⟨r, hl⟩, hplain, ho, himage⟩ := h.writes
    obtain ⟨hwrite, hkeep⟩ := happens_controlRegisterWrite (k := k) (n := n) (q := q) hup hl
    exact ⟨fun hp => by simpa only [hplain] using hwrite hp, fun hp => hkeep (by omega),
      fun hrun => happens_slotImageWrite hup ho hrun fun x => himage x q⟩
  · exact happens_slotImageWrite hup (by rw [BitVec.toNat_ofNat]; omega) hrun fun x => imageWrite_g x r q
  · exact happens_slotImageWrite hup rfl hrun fun _ => rfl
  · exact happens_of_runEvent _ hup rfl (if_neg fun h => hrun h.2)
  · have hst : ((s.writeStatusReg n k q (s.slot n k).prv).slot n k).status =
        writeStatus (s.slot n k).status q (s.slot n k).prv := by
      rw [State.writeStatusReg, State.onSlot, State.slot_modSlot_self]
    refine ⟨_, happens_of_runEvent (fun st => st.writeStatusReg n k q (st.slot n k).prv) hup rfl rfl, ?_⟩
    have hbit {i : Nat} (hi : ¬(16 ≤ i ∧ i ≤ 24)) := bit_writeStatus (s.slot n k).status q (s.slot n k).prv hi
    rw [hst]
    refine ⟨by simpa using hbit (i := 0) (by decide), by simpa using hbit (i := 8) (by decide),
      ?_, bits_congr fun i hlo hhi => ?_, fun hp => bits_congr fun i hlo hhi => ?_,
      fun hp => bits_congr fun i hlo hhi => ?_, onlyTile_modTile s n _⟩
    · rw [Slot.prv, hst]
      exact bits_congr fun i hlo hhi => by rw [hbit (by omega), if_neg (by omega)]
    · rw [hbit (by omega), if_neg (by omega)]
    · rw [hbit (by omega), if_neg (by omega)]
    · rw [hbit (by omega), if_pos (by omega)]

/-- Settles O35: each row is one update of the register it names, through its rule. -/
theorem registerRows : Obligations.RegisterRows :=
  ⟨vectorRegisterWrites, tileRegisterWrites, slotRegisterWrites⟩

end Sys2Proof.Machine
end
